-- ==== Sys2Proof/Word.lean ====
section
/-! DEFINITION. Word and byte types of the Waizor W48 block (spec/00_scope.md R6, R7). -/

namespace Sys2Proof

/-- One byte. -/
abbrev Byte := BitVec 8

/-- A 32-bit register word, also the bit pattern of an FP32 value (R54). -/
abbrev Word := BitVec 32

/-- A 16-bit pattern: bf16 values and 16-bit counters (R54, R40). -/
abbrev Half := BitVec 16

/-- Bits [119:0] of a 128-bit command (R117); the opcode byte is the constructor. -/
abbrev CmdWord := BitVec 120

end Sys2Proof
end

