-- ==== Sys2Proof/Syntax.lean ====
section
/-! DEFINITION. The commands of the block: one constructor of `Instr` per row of spec/opcode_table.json,
and the operand types they carry. What an operand means is stated beside the constructor; what the command
does is in Machine/. -/

namespace Sys2Proof

/-- A core: cluster 0 to 5, core 0 to 7 (R31). -/
structure CoreRef where
  cluster : Fin 6
  core : Fin 8
  deriving DecidableEq, Repr

/-- A context slot on a core (R31, R110). -/
structure SlotRef where
  cluster : Fin 6
  core : Fin 8
  slot : Fin 4
  deriving DecidableEq, Repr

/-- The engines of a core (R105). -/
inductive Engine
  | m0 | m1 | vec | xfr
  deriving DecidableEq, Repr

/-- A unit address (R31); fields as numbers, MODULE 15 bits, ROLE_EPOCH 16 bits. -/
structure UnitAddr where
  module : Nat := 0
  cluster : Nat := 0
  core : Nat := 0
  slot : Nat := 0
  roleEpoch : Nat := 0
  deriving DecidableEq, Repr

/-- The kind of a fabric packet (R517). -/
inductive PktKind
  | write | writeAck | readReq | readData | msg | msgCredit | nack | event
  | collUp | collDown | global | marker | guyline | time
  deriving DecidableEq, Repr

/-- A fabric packet: the header fields of R516 and the payload (a trailer of row headers stands at its end, R528). -/
structure Packet where
  kind : PktKind
  stamp : Nat := 0
  addr : Nat := 0
  dstModule : Nat := 0
  dstPitch : Nat := 0
  dstUnit : UnitAddr := {}
  srcUnit : UnitAddr := {}
  tenant : Nat := 0
  tag : Nat := 0
  len : Nat := 0
  vc : Nat := 0
  ordered : Bool := false
  detour : Bool := false
  last : Bool := false
  poison : Bool := false
  code : Nat := 0
  enc : Nat := 0
  dstBf16 : Bool := false
  rowLen : Nat := 0
  rows : Nat := 0
  group : Nat := 0
  seq : Nat := 0
  pktIndex : Nat := 0
  cop : Nat := 0
  rop : Nat := 0
  rfmt : Bool := false
  gop : Nat := 0
  line : Nat := 0
  creditPeg : Nat := 0
  payload : List Byte := []
  deriving DecidableEq, Repr

/-- The path on which a dictionary request arrives (R781, R837); each is a requester of its own (R788). -/
inductive Path
  | mailbox (m : Fin 8)
  | usb2
  | segment (addr : Nat)
  | guyline (module : Nat)
  | internal
  deriving DecidableEq, Repr

/-- A dictionary request as the MC sees it once its frame is unsealed (R782, R783): its path, its session
(0 outside a session), its REQUEST_ID and its TARGET. -/
structure Req where
  path : Path
  session : Nat := 0
  requestId : Nat := 0
  target : Nat := 0xFFFF
  byNode : Bool := false
  deriving DecidableEq, Repr

/-- What one access of a code-protected line or word found (R646 to R656, R667). -/
inductive Finding
  | clean
  | corrected (symbols : Nat)
  | refetched
  | uncorrectable
  | poison
  deriving DecidableEq, Repr

/-- The state of the header of a CSI-2 packet at the receiver (R609). -/
inductive HeaderCheck
  | good | corrected | bad
  deriving DecidableEq, Repr

/-- A word of a code-protected memory that a sweep visits: its address within the memory, the LOCATION the
fault log reports for it (R666; the mapping is internal, R284) and what the read found. -/
structure SweptLine where
  line : Nat
  location : Nat
  finding : Finding
  deriving DecidableEq, Repr

/-- A wake source as it reaches the power controller (R749). -/
inductive WakeCause
  | parkedSlotPulse
  | sramRequest (cluster : Fin 6)
  | fabricPacket
  | hostDoorbell
  | trigger
  | expiryFenceDue
  | supply
  deriving DecidableEq, Repr

/-- The commands of the block, in the order of spec/opcode_table.json. -/
inductive Instr
  -- the command stream of a context slot (R117, R124): the slot that issues, and bits [119:0] of the command
  | nop (u : SlotRef) (w : CmdWord)
  | wait (u : SlotRef) (w : CmdWord)
  | signal (u : SlotRef) (w : CmdWord)
  | pegTake (u : SlotRef) (w : CmdWord)
  | pegGive (u : SlotRef) (w : CmdWord)
  | park (u : SlotRef) (w : CmdWord)
  | loop (u : SlotRef) (w : CmdWord)
  | branch (u : SlotRef) (w : CmdWord)
  | fence (u : SlotRef) (w : CmdWord)
  | event (u : SlotRef) (w : CmdWord)
  | setreg (u : SlotRef) (w : CmdWord)
  | addreg (u : SlotRef) (w : CmdWord)
  | pset (u : SlotRef) (w : CmdWord)
  | slotRd (u : SlotRef) (w : CmdWord)
  | slotWr (u : SlotRef) (w : CmdWord)
  | stop (u : SlotRef) (w : CmdWord)
  | mma (u : SlotRef) (w : CmdWord)
  | accZero (u : SlotRef) (w : CmdWord)
  | accMove (u : SlotRef) (w : CmdWord)
  | vadd (u : SlotRef) (w : CmdWord)
  | vsub (u : SlotRef) (w : CmdWord)
  | vmul (u : SlotRef) (w : CmdWord)
  | vfma (u : SlotRef) (w : CmdWord)
  | vmax (u : SlotRef) (w : CmdWord)
  | vmin (u : SlotRef) (w : CmdWord)
  | vcmp (u : SlotRef) (w : CmdWord)
  | vsel (u : SlotRef) (w : CmdWord)
  | vcvt (u : SlotRef) (w : CmdWord)
  | vexp (u : SlotRef) (w : CmdWord)
  | vexp2 (u : SlotRef) (w : CmdWord)
  | vlog2 (u : SlotRef) (w : CmdWord)
  | vrcp (u : SlotRef) (w : CmdWord)
  | vrsqrt (u : SlotRef) (w : CmdWord)
  | vdiv (u : SlotRef) (w : CmdWord)
  | vtanh (u : SlotRef) (w : CmdWord)
  | vsigm (u : SlotRef) (w : CmdWord)
  | vsilu (u : SlotRef) (w : CmdWord)
  | vgelu (u : SlotRef) (w : CmdWord)
  | vrsum (u : SlotRef) (w : CmdWord)
  | vrmax (u : SlotRef) (w : CmdWord)
  | vrssq (u : SlotRef) (w : CmdWord)
  | vtrans (u : SlotRef) (w : CmdWord)
  | xcopy (u : SlotRef) (w : CmdWord)
  | xgather (u : SlotRef) (w : CmdWord)
  | xscatter (u : SlotRef) (w : CmdWord)
  | xchain (u : SlotRef) (w : CmdWord)
  | xqread (u : SlotRef) (w : CmdWord)
  | xqflush (u : SlotRef) (w : CmdWord)
  | xfill (u : SlotRef) (w : CmdWord)
  | wconv (u : SlotRef) (w : CmdWord)
  | wpool (u : SlotRef) (w : CmdWord)
  | wexpand (u : SlotRef) (w : CmdWord)
  | whalo (u : SlotRef) (w : CmdWord)
  | kvapp (u : SlotRef) (w : CmdWord)
  | kvscore (u : SlotRef) (w : CmdWord)
  | kvsel (u : SlotRef) (w : CmdWord)
  | kvattn (u : SlotRef) (w : CmdWord)
  | kvpref (u : SlotRef) (w : CmdWord)
  | kvsketch (u : SlotRef) (w : CmdWord)
  | rcell (u : SlotRef) (w : CmdWord)
  | rproj (u : SlotRef) (w : CmdWord)
  | rscan (u : SlotRef) (w : CmdWord)
  | rckpt (u : SlotRef) (w : CmdWord)
  | rswapOut (u : SlotRef) (w : CmdWord)
  | rswapIn (u : SlotRef) (w : CmdWord)
  | rswapRevoke (u : SlotRef) (w : CmdWord)
  | fwrite (u : SlotRef) (w : CmdWord)
  | fread (u : SlotRef) (w : CmdWord)
  | fmsg (u : SlotRef) (w : CmdWord)
  | fcollAllreduce (u : SlotRef) (w : CmdWord)
  | fcollReduce (u : SlotRef) (w : CmdWord)
  | fcollBroadcast (u : SlotRef) (w : CmdWord)
  | fglobalBarrier (u : SlotRef) (w : CmdWord)
  | fglobalBroadcast (u : SlotRef) (w : CmdWord)
  -- what engines, cluster controllers and sequencers do on their own
  /-- The step that the engine of a core is running ends; `cycles` core cycles of work (R134, R181). -/
  | engineStepEnd (c : CoreRef) (e : Engine) (cycles : Nat)
  | commandComplete (u : SlotRef) (e : Engine)
  | divApply (c : CoreRef)
  | donationQuantumExpiry (cluster : Fin 6) (peg : Nat)
  | eventPulseArrive (cluster : Fin 6) (line : Nat)
  | slotWake (u : SlotRef)
  | xchainEntryStart (u : SlotRef)
  /-- Read data returns for a tag: the fault code of its poison, if any (R217, R226), and for a line of LPDDR4X what the
  access found and the LOCATION the fault log reports (R650 to R656, R666). -/
  | readResponse (tag : Nat) (poison : Option Nat) (found : Finding) (line : Nat)
  | writeCommitAck (tag : Nat)
  | quotaStallTimeout (pitch : Nat)
  | watchdogExpiry (u : SlotRef)
  | teardownComplete (pitch : Nat)
  -- the memory tier unit and the flash controller
  /-- A multiple of a heat period: `bc` false for tier A, true for tiers B and C (R266). -/
  | heatHalving (bc : Bool)
  | migrationSwitch (page : Nat)
  /-- A tile of a promotion from tier C arrives; `readable` false when its flash copy failed (R280). -/
  | promotionTileArrive (page : Nat) (tile : Nat) (readable : Bool)
  | lazyPageFree (page : Nat)
  | periodicCheckpoint (set : Nat)
  | checkpointCommit (set : Nat)
  | budgetDayStart
  | flashProgramFail (channel die plane block : Nat)
  | journalReplay (durationMs : Nat)
  /-- One line of a frame slice: `cls` 0 S, 1 M, 2 L, 3 system region (R660, R661). -/
  | scrubSlice (cls : Nat) (found : List (Nat × Finding))
  | sramSweep (cluster : Fin 6) (found : List SweptLine)
  | groundsheetSweep (found : List SweptLine)
  | ceWindow
  | faultLogCommit
  | lifetimeCommit
  | islandBrownout (island : Nat)
  | islandReturn (island : Nat)
  | coreHeartbeatMiss (c : CoreRef)
  | flashDieFault (channel die : Nat)
  -- sensor queues and listening
  | audioBlockCommit (stream : Fin 4)
  | queueFlushEffect (queue : Fin 32)
  | staleTailNotice (queue : Fin 32)
  | replayBlock (stream : Fin 4)
  /-- The scores of beams 0 to 3 for one 10 ms frame (R582; the score's form is not stated). -/
  | l0Frame (scores : List Nat)
  /-- The scores of beams 0 to 3 for one 20 ms hop (R583; the model image is opaque). -/
  | l1Hop (scores : List Nat)
  | stageWake
  | stageTimeout (stage : Nat)
  | dropGraceExpiry
  | wakeOutHoldExpiry
  | lanternBrownout
  /-- A frame of the port as the glimpse receiver sees it: frame-start stamp and luma bytes (R595, R596). -/
  | glimpseFrame (stamp : Nat) (luma : List Byte)
  | playbackBlockDue
  -- cameras
  | csiFrameStart (port : Fin 4) (vc : Fin 4) (check : HeaderCheck)
  | csiFrameEnd (port : Fin 4) (vc : Fin 4) (check : HeaderCheck)
  /-- A long packet: header check, data type, payload as received (one number per pixel of a RAW type, one per byte of
  YUV422), and whether its CRC-16 matched (R606 to R609). -/
  | csiLongPacket (port : Fin 4) (vc : Fin 4) (dataType : Nat) (check : HeaderCheck) (payload : List Nat) (crcOk : Bool)
  | frameTimeout (ctx : Fin 16)
  | lineArbitration
  | bandCommit (ctx : Fin 16) (out : Fin 3)
  | fsyncPulse (rising : Bool)
  /-- A camera control transfer ends: bus, status 0 to 4 of CciResult, bytes read (R638, R645). -/
  | cciTransferDone (bus : Fin 2) (status : Nat) (data : List Byte)
  -- the fabric router
  | portTrainingDone (port : Fin 6) (farModule : Nat) (farPort : Nat)
  /-- A port goes DOWN; the lane that lost lock, where one did: transmit or receive, and its number (R501, R666). -/
  | portDown (port : Fin 6) (lane : Option (Bool × Fin 4))
  | portTrainingRetry (port : Fin 6)
  | flitCrcError (port : Fin 6) (seq : Nat)
  /-- A passing packet at the input of a port (R512). -/
  | packetForward (port : Fin 6) (pkt : Packet)
  | escapeWaitExpiry (index : Nat)
  | write (pkt : Packet)
  | writeAck (pkt : Packet)
  | readReq (pkt : Packet)
  | readData (pkt : Packet)
  | msg (pkt : Packet)
  | msgCredit (pkt : Packet)
  | nack (pkt : Packet)
  | eventPacket (pkt : Packet)
  | eventForwardSend (cluster : Fin 6) (line : Nat)
  | collUp (pkt : Packet)
  | collDown (pkt : Packet)
  /-- Packets of a group's barrier and broadcast, with their tenant tag (R516). -/
  | globalBarrierArrival (group : Nat) (module : Nat) (tenant : Nat)
  | globalBarrierRelease (group : Nat) (tenant : Nat)
  | globalBroadcastPacket (group : Nat) (tenant : Nat) (payload : List Byte)
  /-- A marker arrives on a virtual channel of an input port (R547). -/
  | marker (port : Fin 6) (vc : Nat)
  | snapshotBroadcast (tenant : Nat) (origin : Nat)
  | globalReport (module : Nat)
  | fabricResetBroadcast
  | tenantFenceBroadcast (tenant : Nat) (gen : Nat) (origin : Nat)
  /-- A management frame arrives from a module on the guyline channels (R19, R781). -/
  | guyline (module : Nat) (frame : List Byte)
  /-- A TIME exchange ends with the four stamps of R552 at a child. -/
  | timePacket (t1 t2 t3 t4 : Nat)
  /-- This module's own exchange with its parent, or the answer to a child's packet that has come through a port, sent at t1 (R552). -/
  | timeExchange (child : Option (Fin 6 × Nat))
  | timeHoldover
  | timeRootTakeover (root : Nat)
  -- the object dictionary (R781 to R796)
  | uoaRead (r : Req) (index sub param offset : Nat)
  | uoaWrite (r : Req) (index sub offset : Nat) (more : Bool) (data : List Byte)
  | uoaWriteNv (r : Req) (index sub param offset : Nat) (more : Bool) (data : List Byte)
  | uoaWriteSigned (r : Req) (index sub : Nat) (data : List Byte)
  | uoaEnumerate (r : Req) (index first : Nat)
  | uoaSubscribe (r : Req) (data : List Byte)
  | uoaUnsubscribe (r : Req) (number : Nat)
  | uoaAbort (r : Req)
  | uoaDiscover (r : Req)
  /-- A HEARTBEAT arrives: on the segment or over guyline; the sender's module, node, role and SEG_UP (R791). -/
  | uoaHeartbeat (onSegment : Bool) (fromManager : Bool) (module node : Nat) (segUp : Bool)
  | proxyResponse (worker : Nat) (requestId : Nat) (frame : List Byte)
  | proxyTimeout (worker : Nat) (requestId : Nat)
  | stagedSegmentTimeout (r : Req) (index sub : Nat)
  | heartbeatSend
  | segmentDown (peer : Nat)
  | telemetrySnapshot (number : Nat) (late : Bool)
  | cmdInProgressDone (index sub : Nat) (status : Nat)
  -- writes of CMD objects (the request, and the value written)
  | extentDefine (r : Req) (v : List Byte)
  | extentRemove (r : Req) (v : List Byte)
  | pagePin (r : Req) (v : List Byte)
  | pageFree (r : Req) (v : List Byte)
  | stateSetCreate (r : Req) (v : List Byte)
  | stateSetDelete (r : Req) (v : List Byte)
  | stateSetAttach (r : Req) (v : List Byte)
  | checkpointNow (r : Req) (v : List Byte)
  | kvLayoutDefine (r : Req) (v : List Byte)
  | kvLayoutRemove (r : Req) (v : List Byte)
  | kvSeqCreate (r : Req) (v : List Byte)
  | kvSeqDrop (r : Req) (v : List Byte)
  | stateHandleBind (r : Req) (v : List Byte)
  | stateHandleRevoke (r : Req) (v : List Byte)
  | stateHandleSwapOut (r : Req) (v : List Byte)
  | stateHandleSwapIn (r : Req) (v : List Byte)
  | pitchCreate (r : Req) (v : List Byte)
  | pitchStart (r : Req) (v : List Byte)
  | pitchRemove (r : Req) (v : List Byte)
  | pegShare (r : Req) (v : List Byte)
  | pegUnshare (r : Req) (v : List Byte)
  | pegStatusClear (r : Req) (cluster : Fin 6) (v : List Byte)
  | pitchPriorityWrite (r : Req) (pitch : Fin 32) (v : List Byte)
  | queueEnable (r : Req) (queue : Fin 32)
  | queueDisable (r : Req) (queue : Fin 32)
  | portEnable (r : Req) (port : Fin 6) (v : List Byte)
  | snapshotStart (r : Req) (v : List Byte)
  | fabricReset (r : Req) (v : List Byte)
  | tenantFence (r : Req) (v : List Byte)
  | eventForwardDefine (r : Req) (cluster : Fin 6) (v : List Byte)
  | eventForwardRemove (r : Req) (cluster : Fin 6) (v : List Byte)
  | collGroupDefine (r : Req) (group : Fin 64) (v : List Byte)
  | collGroupRemove (r : Req) (group : Fin 64) (v : List Byte)
  | encStreamAssign (r : Req) (v : List Byte)
  | encStreamRelease (r : Req) (v : List Byte)
  | encCountersClear (r : Req) (v : List Byte)
  | kwsModelLoad (r : Req) (v : List Byte)
  | glimpseEnable (r : Req) (v : List Byte)
  | playbackEnable (r : Req) (v : List Byte)
  | cciTransfer (r : Req) (v : List Byte)
  | faultLogClear (r : Req) (v : List Byte)
  | frameRetire (r : Req) (v : List Byte)
  | lpddrBankRetire (r : Req) (v : List Byte)
  | sramBankRetire (r : Req) (v : List Byte)
  | coreRetire (r : Req) (v : List Byte)
  | flashDieRetire (r : Req) (v : List Byte)
  | retireClear (r : Req) (v : List Byte)
  -- security
  | attestRequest (r : Req) (v : List Byte)
  | attestReportReady
  | ephemeralKeyExpiry
  | sessionOpen (r : Req) (v : List Byte)
  | sessionClose (r : Req) (v : List Byte)
  | sessionIdleTimeout (session : Nat)
  | debugUnlock (r : Req) (v : List Byte)
  | rollbackAdvanceNow (r : Req) (v : List Byte)
  | rollbackAdvance
  | tenantCreate (r : Req) (v : List Byte)
  | tenantRemove (r : Req) (v : List Byte)
  | tenantRemoveFabric (r : Req) (v : List Byte)
  | retentionDaysWrite (r : Req) (tenant : Fin 64) (v : List Byte)
  | epochExpire (r : Req) (v : List Byte)
  | rekeyStart (r : Req) (v : List Byte)
  | rekeySweepDone (tenant : Fin 64)
  | pendingKeyCreate (tenant : Fin 64)
  | dayKeyRoll (tenant : Fin 64)
  | expiryFence (entry : Nat)
  | expiryDrainDone (entry : Nat)
  | expiryDrainCut (entry : Nat)
  | keyStoreCommit
  -- power, supplies and reset
  | powerFloorSet (r : Req) (v : List Byte)
  | powerRequestStowed (r : Req)
  | powerRequestOff (r : Req)
  | dozeEntry
  | lanternEntry
  | powerEntryStep
  | clusterGate (cluster : Fin 6)
  | wakeSource (cause : WakeCause)
  | powerReturnStep
  | wakeAtAlarm
  /-- A 1 ms window of measured input power ends with this average (R758). -/
  | powerCapWindow (averageMw : Nat)
  /-- A sensor interval: the ten junction readings in m°C (R761); `ten` true at a 10 ms interval. -/
  | thermalInterval (temps : List Int)
  | thermalTrip (sensor : Fin 10)
  | vinApply
  | vinRemove
  /-- VLNT is applied, the straps PROF1 and PROF0 reading so at a reset release that follows at once (R736, R859). -/
  | vlntApply (straps : Fin 4)
  | vcalLoss
  | refclkLoss
  | resetNAssert
  /-- Reset release with the straps PROF1 and PROF0 as sampled (R859). -/
  | resetRelease (straps : Fin 4)
  -- field update
  | updateBegin (r : Req) (v : List Byte)
  | updatePiece (r : Req) (offset : Nat) (data : List Byte)
  | updateActivate (r : Req)
  | updateActivateReset (r : Req)
  /-- The reset that UpdateActivate 2 asked for, and its release with the straps as sampled (R812, R859). -/
  | activateReset (straps : Fin 4)
  | updateCancel (r : Req) (v : List Byte)
  | trialConfirm
  -- management
  | roleKeyInstall (r : Req) (v : List Byte)
  | roleKeyReset (r : Req) (v : List Byte)
  | nvImageWrite (r : Req) (v : List Byte)
  | nvClearSection (r : Req) (v : List Byte)
  | calendarSet (r : Req) (v : List Byte)
  -- host link
  | mbReqLen (mailbox : Fin 8) (len : Nat)
  | mbRespAck (mailbox : Fin 8)
  | pwrDoorbell (value : Word)
  | doorbell (d : Fin 16)
  | winBase (high : Bool) (value : Word)
  | windowPitch (r : Req) (v : List Byte)
  | dmaProd (channel : Fin 4) (value : Word)
  /-- The descriptor at the head of a channel's ring is done: its 32 B and, for host to state, the host bytes (R835). -/
  | dmaDescriptorDone (channel : Fin 4) (descriptor : List Byte) (hostData : List Byte)
  | bar2Read (offset : Nat) (len : Nat)
  | bar2Write (offset : Nat) (data : List Byte)
  | usb2BulkTransfer (frame : List Byte)
  | linkCl2Request
  | usb4EnChange (level : Bool)
  -- registers
  | coreModeWrite (c : CoreRef) (value : Word)
  | ftimeLoRead (u : SlotRef)
  /-- A write of a register without a row of its own: `bar0` true for a BAR0 offset, else a die control address. -/
  | registerWrite (bar0 : Bool) (address : Nat) (value : Word)
  | vlntRemove
  /-- REFCLK is back; the release of the reset that its loss began samples the straps (R857, R859). -/
  | refclkReturn (straps : Fin 4)
  /-- The post-decimation samples of the 24 channels at one index, as 24-bit values (R569 to R572). -/
  | audioSample (samples : List Int)
  /-- The host router connects the link with these rates in Gbit/s (R825, R841). -/
  | usb4LinkConnect (hostToModule moduleToHost : Nat)
  deriving DecidableEq, Repr

end Sys2Proof
end

