-- ==== Sys2Proof/Config.lean ====
section
/-! DEFINITION. What one implementation of the block fixes and the spec leaves open: constants without a body, so that
nothing can be proved of their values (notes/assumptions). -/

namespace Sys2Proof.Config

/-- The transcendental functions' results (R170 bounds them); the argument is the opcode and the operand's pattern. -/
opaque transcendental : Nat → Word → Word

/-- The routing of event lines that the cluster controller sets for a started pitch (R42; no object sets it):
(cluster, line, kind 0 peg, 1 slot, 2 chain, number) from the pitch record. -/
opaque lineRouting : Nat → List Byte → List (Nat × Nat × Nat × Nat)

/-- A value the spec leaves open, fresh at each use: the model's counter, the length in bytes. -/
opaque freeBytes : Nat → Nat → List Byte

/-- A bit the spec leaves open, fresh at each use. -/
opaque freeBool : Nat → Bool

/-- A number the spec leaves open, fresh at each use. -/
opaque freeNat : Nat → Nat

/-- Payload bytes of a flash block, which the spec does not state (R303, R676). -/
opaque flashBlockBytes : Nat

/-- Standard algorithms that the spec names and this model does not unfold: RSASSA-PSS with SHA-256 (R687) under a public
key, and its signing with the identity key. -/
opaque pssVerify : (key msg signature : List Byte) → Bool
/-- The signature with the identity key; its salt is drawn at a counter value. -/
opaque pssSign : Nat → List Byte → List Byte

/-- AES-256-GCM (R691): sealing gives ciphertext and tag; opening fails where the tag does. -/
opaque gcmSeal : (key nonce aad data : List Byte) → List Byte
opaque gcmOpen : (key nonce aad data : List Byte) → Option (List Byte)

/-- The P-384 public key of the ephemeral pair drawn at a counter value, and its shared secret with a peer's key (R690). -/
opaque ephemeralPublic : Nat → List Byte
opaque ecdh : Nat → List Byte → List Byte

/-- HKDF-SHA-256 (R690): salt, input key, info, length. -/
opaque hkdf : (salt ikm info : List Byte) → Nat → List Byte

/-- The image-signing key's fused digest, the die serial, the identity key's certificate and public key (R683, R684, R868). -/
opaque signingDigest : List Byte
opaque dieSerial : Nat
opaque identityCertificate : List Byte
opaque identityKey : List Byte

/-- What the header of a keyword model image names (R584; Preper's format is not stated): its weights and the bytes of its
program. -/
opaque modelHeader : List Byte → Nat × Nat

/-- The digest of the boot ROM, fixed at manufacture (R685), and the debug-disable fuse (R683). -/
opaque romDigest : List Byte
opaque debugFused : Bool

/-- The firmware image with which the module left manufacture, in slot A until an update replaces it (R805, R868). -/
opaque factoryImage : List Byte

/-- Bytes of a key store image that holds this many entries and tenant records (R701 states no layout). -/
opaque keyStoreBytes : (entries tenants : Nat) → Nat

/-- The 16 B of a DISCOVER response (R784 names its fields, not their places): module ID, PLCA node ID, segment role, profile, die
serial; and the data of a HEARTBEAT (R791), with what a receiver reads from it: module ID, node ID, SEG_UP and the sender's role. -/
opaque discoverBytes : (module node role profile serial : Nat) → List Byte
opaque heartbeatBytes : (module node : Nat) → (segUp manager : Bool) → List Byte
opaque heartbeatFields : List Byte → Nat × Nat × Bool × Bool

/-- The 16-bit pixel that a stage of the image pipeline leaves where its FP32 result is NaN (R618 states none). -/
opaque nanPixel : Nat

/-- The channel group, die and bank (group*16 + die*8 + bank) of a 2 MiB block of frames, by the internal hash (R284, R649),
and which of a channel's two flash dies holds a flash page, by the controller's internal map (R666). -/
opaque blockBank : Nat → Nat
opaque flashDie : (flashPage : Nat) → Nat

/-- What the CRC-8 of class L starts from, and what its result is XORed with; R646 states its polynomial alone. -/
opaque crcStart : Nat
opaque crcFinal : Nat

/-- The 512 bits that the DRBG drew as key material: two AES-256 keys, 64 bytes (R698, R700); the argument counts the draws. -/
opaque keyMaterial : Nat → List Byte

/-- Plane, block and page of a flash page on its die, by the controller's internal map (R666). -/
opaque flashCell : (flashPage : Nat) → Nat

/-- Where the hash of R284 starts a frame's 256 B units among the channels of its group, by 2 MiB block, and the row and column of a
unit: internal to the module. -/
opaque unitStart : (block : Nat) → Nat
opaque unitCell : (frame unit : Nat) → Nat

/-- Has the next router freed by a tick of the time base the flits of a packet in flight (R509, R511): by counter, and the packet's
place among those in flight. -/
opaque flitsFreed : (counter index : Nat) → Bool

end Sys2Proof.Config
end

