-- ==== Sys2Proof/Machine/State.lean ====
section
/-! DEFINITION. The state of the W48 block: every register, table, memory, queue and mode the spec gives it, as plain data.
Operations on it stand in Machine/Ops.lean and the family files. Sparse tables list only what differs from a default. -/

namespace Sys2Proof.Machine

/-- A sparse table: keys strictly rising in use; an absent key stands for the default its reader names. -/
abbrev Tab (α : Type) := List (Nat × α)

/-- A memory: (address, byte) cells, addresses strictly rising, no cell equal to 0, what an unlisted address reads as. -/
abbrev Mem := List Host.Cell

/-- Why the machine stops with a fault. A pitch fault (R485) is no machine fault: it is a next state in teardown. -/
inductive Fault
  /-- A register access names an offset or address that no register table of the spec holds: raised by
  REGISTER_WRITE (R8 gives the access codes of registers that exist; the spec says nothing of others). Safe: the
  model stops where the hardware may go on. -/
  | noSuchRegister (address : Nat)
  deriving DecidableEq, Repr

/-- Why a command has no meaning. -/
inductive Refusal
  /-- The command has no meaning in the model yet; raised by Dispatch only. Safe. -/
  | notModelled (mnemonic : String)
  deriving DecidableEq, Repr

/-! ### Cores, slots and engines (chapter 03) -/

/-- The states of a context slot (R116), with their codes. -/
inductive SlotState
  | idle | active | waiting | parked | stopped | teardown
  deriving DecidableEq, Repr

/-- The operand that DONE_SIG or STOP applies (R117, R145). -/
inductive Operand
  | none
  | line (n : Nat)
  | peg (name : Nat)
  deriving DecidableEq, Repr

/-- What a slot is held on (R116, R129). -/
inductive Hold
  | none
  | event (line : Nat)
  | pegWait (peg thresh : Nat)
  | pegTake (peg amount : Nat)
  | preEvent (line : Nat)
  | prePeg (peg : Nat)
  | fence (mask : Nat) (commit : Bool)
  | park (mode : Nat)
  | stop (op : Operand)
  /-- the command at STREAM_PTR needs tier B space that is not free (R301); the state address -/
  | quota (addr : Nat)
  deriving DecidableEq, Repr

/-- One active LOOP (R142): its LC, the offset of the first body command, the commands of the body, the count. -/
structure LoopFrame where
  lc : Nat
  start : Nat
  body : Nat
  count : Nat
  deriving DecidableEq, Repr

/-- A command that the sequencer has fetched and holds in a slot's command buffer (R105, R126, R142): its offset, opcode and
word, and where it waits to issue, the engines it needs (none for a control command). The buffer holds a command that waits to
issue, and the bodies of active loops. -/
structure Fetched where
  ptr : Nat
  opcode : Nat
  word : Nat
  waits : Option (List Engine) := none
  deriving DecidableEq, Repr

/-- A context slot of a core: its registers (R188) and its sequencer's state (R110, R116, R142). -/
structure Slot where
  st : SlotState := .idle
  pitch : Nat := 0
  spBase : Nat := 0
  spSizeM1 : Nat := 0
  accBase : Nat := 0
  accSizeM1 : Nat := 0
  /-- SP_SHARE and ACC_SHARE as written at the last assignment (R188, R190) -/
  spShare : Word := 0
  accShare : Word := 0
  streamPtr : Nat := 0
  pred : BitVec 8 := 1
  numFlags : BitVec 6 := 0
  numTrap : BitVec 6 := 0
  satCount : Word := 0
  roleEpoch : Half := 0
  lc : Vector Half 4 := Vector.replicate 4 0
  ftimeHi : Word := 0
  regs : Vector Word 32 := Vector.replicate 32 0
  /-- pending counters of routed lines (R153) -/
  pending : Tab Nat := []
  /-- pending counters of the slot's transfer chain (R222) -/
  chainPending : Tab Nat := []
  hold : Hold := .none
  /-- the PRE_WAIT of the command at STREAM_PTR has been met -/
  preReady : Bool := false
  loops : List LoopFrame := []
  /-- the command buffer, up to 32 commands (R126) -/
  buffer : List Fetched := []
  /-- reserved by a pitch from its creation (R455) -/
  reserved : Bool := false
  /-- the watchdog of R482: the time it has run since its last restart -/
  watchRun : Nat := 0
  deriving DecidableEq, Repr

/-- What a command in progress waits for outside the block's engines. -/
inductive JobWait
  | none
  | tag (reads writes : List Nat)
  | quota (addr : Nat)
  | queue (queue : Nat)
  | handle (handle : Nat)
  | chainLine (line : Nat)
  | credit (peg : Nat)
  deriving DecidableEq, Repr

/-- What an XQREAD still has to deliver (R237, R238), and the sequence number of the packet it has claimed. -/
structure QRead where
  queue : Nat
  any : Bool
  left : Nat
  claimed : Option Nat := none
  /-- destination: SPACE and CLUSTER of its location word, and the address of the next delivery -/
  space : Nat
  cluster : Nat
  addr : Int
  stride : Nat
  swap : Nat
  delivered : Nat := 0
  deriving DecidableEq, Repr

/-- The state of an XCHAIN in progress (R220 to R223). -/
structure Chain where
  listOff : Nat
  entries : Nat
  repeats : Nat
  srcStep : Int
  dstStep : Int
  rep : Nat := 0
  entry : Nat := 0
  deriving DecidableEq, Repr

/-- A packet of a fabric command that is still to be sent, with the place its data goes to in this module (FREAD): space,
cluster and address of the run, the offset of the packet's bytes in it, and SWAP (R520, R523). -/
structure Send where
  pkt : Packet
  space : Nat := 0
  cluster : Nat := 0
  addr : Int := 0
  off : Nat := 0
  swap : Nat := 0
  deriving DecidableEq, Repr

/-- One run or element of a transfer; no source for a skip, which writes zero bytes (R203); SWAP as it applies to the run. -/
structure Run where
  src : Option Int
  dst : Int
  len : Nat
  swap : Nat := 0
  deriving DecidableEq, Repr

/-- The index table that an XGATHER or XSCATTER still has to read (R202, R205): the table's scratchpad offset, the next entry, the
entries, the element's bytes, PACK_STRIDE, and the addresses of SRC and DST with the steps of a repetition added. -/
structure IndexPlan where
  gather : Bool
  table : Nat
  next : Nat
  count : Nat
  elem : Nat
  pack : Nat
  swap : Nat
  src : Int
  dst : Int
  deriving DecidableEq, Repr

/-- What a transfer still has to form into packets (R210): the spaces and clusters of its ends, the runs in order, the part of an
index table not yet read, and the pattern of an XFILL. -/
structure Move where
  srcSpace : Nat := 0
  srcCluster : Nat := 0
  dstSpace : Nat := 0
  dstCluster : Nat := 0
  runs : List Run := []
  index : Option IndexPlan := none
  fill : Option Nat := none
  deriving DecidableEq, Repr

/-- Bytes of the packet in progress that are still to be written (R211): their destination. -/
structure Piece where
  space : Nat
  cluster : Nat
  addr : Int
  bytes : List Byte
  deriving DecidableEq, Repr

/-- One step of a matrix or vector command (R101, R157, R179): its number in the command, what it writes to the slot's shares, as (in
the accumulator share, offset, bytes), the conditions it meets and the elements it clips; `on` names its engine where the command runs
on two. What it writes is formed from what memory holds when it begins (R131, R416). -/
structure Step where
  index : Nat := 0
  on : Option Engine := none
  writes : List (Bool × Nat × List Byte) := []
  fl : BitVec 6 := 0
  sat : Nat := 0
  deriving DecidableEq, Repr

/-- What a command in progress applies when it completes, beside its operand. -/
inductive Done
  | kvLength (pitch layout seq layer len : Nat)
  | handleRelease (handle : Nat)
  | swapOut (handle addr : Nat)
  | swapIn (handle addr : Nat)
  deriving DecidableEq, Repr

/-- A command that works under a handle's hold, as its descriptor was fetched: the descriptor, the scalar registers at
issue, the handle, the steps its chunk has run, and those of them that STEPS does not count yet (R393, R408). -/
structure Chunk where
  words : Nat
  regs : Vector Word 32
  handle : Nat
  steps : Nat := 0
  ran : Nat := 0
  deriving DecidableEq, Repr

/-- A command in progress, suspended or ready on the engines of a core (R116, R127, R136). -/
structure Job where
  slot : Nat
  opcode : Nat
  engines : List Engine
  /-- engines on which it runs now -/
  running : List Engine := []
  /-- it counts as naming both matrix engines until it begins on one (R168) -/
  either : Bool := false
  /-- it has begun its work (R125) -/
  begun : Bool := false
  cmdPtr : Nat := 0
  desc : Nat := 0
  /-- the descriptor block as read at issue (R122), and the slot's scalar registers then (R162, R193) -/
  words : Nat := 0
  regs : Vector Word 32 := Vector.replicate 32 0
  done : Operand := .none
  cmplLines : List Nat := []
  /-- number conditions met in the steps in progress, by engine (R101) -/
  conds : List (Engine × BitVec 6) := []
  /-- the progress registers (R110, R136): the steps not yet begun, the packets not yet formed, and the packet in progress -/
  todo : List Step := []
  move : Option Move := none
  flight : List Piece := []
  wait : JobWait := .none
  tags : List Nat := []
  onDone : List Done := []
  qread : Option QRead := none
  chain : Option Chain := none
  chunk : Option Chunk := none
  /-- KV sequences that it names, as (layout, number) (R320), and pages that it reads (R372) -/
  seqs : List (Nat × Nat) := []
  pages : List Nat := []
  /-- fabric packets not yet sent -/
  sends : List Send := []
  deriving DecidableEq, Repr

/-- A core: its registers (R181, R183), memories (R105) and commands in progress in order of readiness. -/
structure Core where
  mode : Word := 0x300
  /-- a DIV written and not yet in effect (R185) -/
  newDiv : Option Nat := none
  busyM0 : Word := 0
  busyM1 : Word := 0
  busyV : Word := 0
  busyX : Word := 0
  preempts : Word := 0
  jobs : List Job := []
  scratch : Mem := []
  acc : Mem := []
  /-- poisoned 64 B lines: of the scratchpad, and of the accumulator file -/
  spPoison : Tab Nat := []
  accPoison : Tab Nat := []
  deriving DecidableEq, Repr

/-! ### Clusters, pegs and event lines (chapters 03, 09) -/

/-- A peg (R40, R151, R464, R496): value, status bits, holders of a lock peg as (slot index, amount). -/
structure Peg where
  value : Half := 0
  ovf : Bool := false
  abandoned : Bool := false
  holders : List (Nat × Nat) := []
  deriving DecidableEq, Repr

/-- A slot, or a packet of a message command, waiting on a peg (R149), in order of arrival. -/
structure Waiter where
  peg : Nat
  slot : Nat
  /-- true for WAIT: the value is left unchanged -/
  keep : Bool
  amount : Nat
  /-- true for a message command, whose slot goes on (R532) -/
  job : Bool := false
  deriving DecidableEq, Repr

/-- A donation (R466 to R469): waiter and holder (slot indices), peg, start in fabric time. -/
structure Donation where
  waiter : Nat
  holder : Nat
  peg : Nat
  start : Nat
  deriving DecidableEq, Repr

/-- A place to which a line is routed (R42). -/
inductive RouteTarget
  | peg (number : Nat)
  | slot (core slot : Nat)
  | chain (core slot : Nat)
  | port
  deriving DecidableEq, Repr

/-- A pulse raised on a line and not yet delivered; `only` names the pitches that a pulse of the system lines 230 to
233 and 240 to 242 may reach (R481, R585), and `src` the island that raised it, by its LOCATION code (R26, R666). -/
structure Pulse where
  line : Nat
  only : Option (List Nat) := none
  src : Nat
  deriving DecidableEq, Repr

/-- A forwarded line (R535). -/
structure Forward where
  line : Nat
  unit : UnitAddr
  destLine : Nat
  /-- pulses waiting to be sent -/
  queued : Nat := 0
  deriving DecidableEq, Repr

/-- A cluster: its SRAM, pegs, routing, pulses in flight and orphan log (R41, R109, R478, R535). -/
structure Cluster where
  sram : Mem := []
  sramPoison : Tab Nat := []
  pegs : Tab Peg := []
  waiters : List Waiter := []
  donations : List Donation := []
  routes : List (Nat × RouteTarget) := []
  /-- pulses raised and not yet delivered, oldest first -/
  pulses : List Pulse := []
  forwards : List Forward := []
  orphans : List (List Byte) := []
  gated : Bool := false
  deriving DecidableEq, Repr

/-! ### Pitches (chapter 09) -/

/-- The states of a pitch (R456). -/
inductive PitchState
  | free | created | running | teardown | tornDown | complete
  deriving DecidableEq, Repr

/-- What a teardown in progress has recorded (R486 to R490). -/
structure Teardown where
  code : Nat
  detail : Nat := 0
  opcode : Nat := 0
  streamPtr : Nat := 0
  unit : UnitAddr := {}
  stamp : Nat := 0
  secondary : Nat := 0
  waiter : Nat := 0
  byCommand : Bool := false
  pagesFreed : Bool := false
  /-- a PitchRemove waits for step 6 (R459) -/
  removeAfter : Bool := false
  deriving DecidableEq, Repr

/-- An extent of a pitch's state range (R248, R249). -/
structure Extent where
  number : Nat
  base : Nat
  length : Nat
  stateSet : Nat := 0
  discard : Bool := false
  excl : Nat := 0
  pin : Nat := 0
  initTier : Nat := 0
  codeClass : Nat := 0
  maxLog2 : Nat := 0
  minLog2 : Nat := 0
  nonce : Nat := 0
  deriving DecidableEq, Repr

/-- A layout of the KV store (R313); the fields of its record. -/
structure KvLayout where
  number : Nat
  record : List Byte
  deriving DecidableEq, Repr

/-- A span of a KV sequence (R321 to R323): first token, tokens up to its end, its key, its page per layer (state
address); `fixed` once a day-key roll has fixed its end (R339). -/
structure KvSpan where
  first : Nat
  count : Nat
  keyIndex : Nat := 0
  epoch : Nat := 0
  fixed : Bool := false
  freed : Bool := false
  pages : Tab Nat := []
  deriving DecidableEq, Repr

/-- A KV sequence (R318 to R320): per layer the committed length LEN_L and the next position to be assigned (R334), its
spans in order from span 0, and the sketch of each span that has one. -/
structure KvSeq where
  layout : Nat
  number : Nat
  lens : Tab Nat := []
  assigned : Tab Nat := []
  baseSpan : Nat := 0
  spans : List KvSpan := []
  sketches : Tab (List Byte) := []
  /-- KvSeqDrop has been accepted and waits for the commands issued before it (R320) -/
  dropping : Bool := false
  deriving DecidableEq, Repr

/-- A resident pitch (R451 to R457). -/
structure Pitch where
  st : PitchState := .free
  record : List Byte := []
  tenantTag : Nat := 0
  slots : List Nat := []
  down : Option Teardown := none
  extents : List Extent := []
  layouts : List KvLayout := []
  seqs : List KvSeq := []
  /-- the inbox of each slot: next entry, and unreleased entries as (source unit, credit peg) -/
  inboxNext : Tab Nat := []
  inboxHeld : Tab (List (UnitAddr × Nat)) := []
  hostPosts : Nat := 0
  deriving DecidableEq, Repr

/-- A peg loan (R465). -/
structure Loan where
  owner : Nat
  borrower : Nat
  cluster : Nat
  first : Nat
  count : Nat
  deriving DecidableEq, Repr

/-! ### State memory (chapters 05, 06, 07) -/

/-- A tier (R259). -/
inductive Tier
  | a | b | c
  deriving DecidableEq, Repr

/-- Who issues a request to state memory (R265, R871). -/
inductive Requester
  | core (c : Nat)
  | router
  | host
  | firmware
  deriving DecidableEq, Repr

/-- A migration of a page in progress (R274 to R281). -/
structure Migration where
  dest : Tier
  /-- the request tag of the tier unit's reserve that it copies under (R273) -/
  tag : Nat := 0
  /-- tiles copied -/
  done : List Nat := []
  /-- tiles marked for copying again (R276) -/
  marked : List Nat := []
  passes : Nat := 0
  /-- where it goes: the tier A block's offset and its cluster, or the first frame of a move within tier B -/
  frame : Nat := 0
  cluster : Nat := 0
  /-- the key entry and epoch that a move within tier B re-encrypts the page under (R706, R717) -/
  rekey : Option (Nat × Nat) := none
  /-- tiles that requests wait for, oldest first (R274) -/
  waiting : List Nat := []
  deriving DecidableEq, Repr

/-- Frames that a switched migration has left and that reads issued before the switch still use (R278): the cluster of tier A
frames, none for tier B; offset or first frame; bytes; class; the tags of the reads. -/
structure Leaving where
  cluster : Option Nat
  frame : Nat
  size : Nat
  cls : Nat
  tags : List Nat
  deriving DecidableEq, Repr

/-- A write that waits for tier B space (R301): its pitch and state address, and the fabric time from which it has waited under STALL,
none while R270 makes space for it. -/
structure Stalled where
  pitch : Nat
  addr : Nat
  since : Option Nat := none
  deriving DecidableEq, Repr

/-- A tile in flash with its header (R290): its page, its index in it (the companion tile of a KV page is the one behind the last,
R327), the write sequence number, and whether its program has completed. Tenant tag and epoch are the flash page's (R291). -/
structure FlashTile where
  page : Nat
  tile : Nat
  seq : Nat := 0
  written : Bool := false
  deriving DecidableEq, Repr

/-- A flash page of up to 4 tiles of one tenant tag and epoch (R290, R291); it is open while its stream still fills it (R292). -/
structure FlashPage where
  number : Nat
  channel : Nat
  /-- which of its channel's two dies it lies on (R289) -/
  die : Nat
  tag : Nat
  epoch : Nat
  /-- the key table entry under which its tiles lie: with the tag and epoch, its stream (R292, R717) -/
  entry : Nat
  tiles : List FlashTile
  isOpen : Bool := true
  deriving DecidableEq, Repr

/-- A page with its metadata record (R251, R257, R261, R265). -/
structure Page where
  /-- the model's own number of the page -/
  id : Nat
  /-- index of its metadata record (R257) -/
  record : Nat := 0
  /-- the pitch that maps it; none while its state set is detached -/
  owner : Option Nat
  stateSet : Nat := 0
  addr : Nat
  sizeLog2 : Nat
  tier : Tier
  heat : Nat := 0
  pin : Nat := 0
  excl : Nat := 0
  codeClass : Nat := 0
  tenantTag : Nat := 0
  keyIndex : Nat := 0
  epoch : Nat := 0
  frameA : Nat := 0
  frameB : Nat := 0
  home : Nat := 0
  lastAccess : Nat := 0
  data : Mem := []
  dirty : List Nat := []
  cleanCopy : List Nat := []
  unreadable : List Nat := []
  poison : Tab Nat := []
  aborted : Bool := false
  /-- the requester whose promotion to tier A waits for frames (R267) -/
  wantsA : Option Requester := none
  handle : Option Nat := none
  /-- the page belongs to the key/value store (its epoch never moves, R339) -/
  kv : Bool := false
  /-- layout, sequence, layer and span of a KV page (R328) -/
  layout : Nat := 0
  seq : Nat := 0
  layer : Nat := 0
  span : Nat := 0
  /-- the scale companion block of a KV page (R326) -/
  companion : Mem := []
  migration : Option Migration := none
  deriving DecidableEq, Repr

/-- A state set (R304 to R312), with the image of its last committed checkpoint. -/
structure StateSet where
  id : Nat
  tenant : Nat
  policy : Nat
  interval : Nat
  attached : Option Nat := none
  extents : List Extent := []
  layouts : List KvLayout := []
  seqs : List KvSeq := []
  lastCommit : Nat := 0
  /-- the write sequence number that followed the last commit (R305) -/
  commitSeq : Nat := 0
  /-- the multiple of its interval at which a periodic checkpoint is next due (R307) -/
  next : Nat := 0
  inProgress : Bool := false
  commanded : Bool := false
  pendingPages : List Page := []
  /-- 64 B lines of pages that the checkpoint in progress has taken, by page (R306) -/
  taken : Tab (List Nat) := []
  pendingSeqs : List KvSeq := []
  committedPages : List Page := []
  committedExtents : List Extent := []
  committedLayouts : List KvLayout := []
  committedSeqs : List KvSeq := []
  deriving DecidableEq, Repr

/-- The states of a state handle (R384). -/
inductive HandleState
  | free | bound | swapping | swapped
  deriving DecidableEq, Repr

/-- A state handle (R384 to R387). -/
structure Handle where
  st : HandleState := .free
  generation : Half := 0
  pitch : Nat := 0
  /-- state address of the working page, and of the backing page while SWAPPED -/
  page : Nat := 0
  backing : Nat := 0
  comp : Bool := false
  vectors : Nat := 0
  elems : Nat := 0
  steps : Nat := 0
  /-- the command that holds it, and those that wait, in order of arrival: 2 × slot, plus 1 for its transfer engine; 384
  is the swap-out that StateHandleSwap asked for -/
  held : Option Nat := none
  waiting : List Nat := []
  swapAddr : Nat := 0
  deriving DecidableEq, Repr

/-- The holder of a request tag (R224). -/
inductive TagHolder
  | engine (core : Nat)
  | tierUnit
  | router
  | hostLink
  deriving DecidableEq, Repr

/-- An outstanding request (R38, R224, R226). -/
structure TagEntry where
  tag : Nat
  holder : TagHolder
  shared : Bool := false
  flash : Bool := false
  write : Bool := false
  pitch : Nat := 0
  slot : Nat := 0
  /-- state address of the request -/
  addr : Nat := 0
  /-- its request-issue stamp (R53) -/
  stamp : Nat := 0
  /-- the request went to another module's router (R38) -/
  fabric : Bool := false
  deriving DecidableEq, Repr

/-- The memory tier unit and the flash controller (chapter 05). -/
structure TierUnit where
  pages : List Page := []
  nextPage : Nat := 1
  sets : List StateSet := []
  handles : Tab Handle := []
  tags : List TagEntry := []
  /-- the balance of R297, in bytes; it starts at one FlashDailyBudget (R299) -/
  balance : Int := 2300000000000
  /-- tier B fell below its low water mark and has not yet reached the high one (R270) -/
  demoting : Bool := false
  lastBudgetDay : Nat := 0
  /-- balance, bytes of the day and day number as last committed (R298); none where no commit is valid (R299) -/
  committedBalance : Option (Int × Nat × Nat) := none
  /-- open write streams by their keys, the least recently written first (R292) -/
  openStreams : List Nat := []
  /-- flash pages written, oldest first, and the next write sequence number (R290) -/
  flash : List FlashPage := []
  flashSeq : Nat := 0
  /-- frames not yet released after a switch (R278) -/
  leaving : List Leaving := []
  /-- requests that wait for tier B space (R301) -/
  stalled : List Stalled := []
  retiredBlocks : List Nat := []
  /-- retirements as (command subindex, argument, SEQ, in force since) (R673, R682) -/
  retired : List (Nat × Nat × Nat × Nat) := []
  retireClearPending : Bool := false
  retiredDies : List Nat := []
  journalReplayed : Bool := true
  deriving DecidableEq, Repr

/-! ### Sensor queues (chapter 04) -/

/-- A packet in a slot of a sensor queue (R231 to R242). -/
structure QPacket where
  slot : Nat
  seq : Nat
  stamp : Nat
  prodFlags : Nat
  length : Nat
  overlong : Bool
  visible : Bool
  claimedBy : Option Nat := none
  everClaimed : Bool := false
  commitStamp : Nat := 0
  deriving DecidableEq, Repr

/-- A sensor queue beside its objects (R228 to R245). -/
structure Queue where
  bank : Nat := 0
  lastSlot : Option Nat := none
  packets : List QPacket := []
  nextSeq : Nat := 0
  lostSince : Nat := 0
  flushedSince : Bool := false
  flushAsked : List Nat := []
  reference : Nat := 0
  noticeFired : Bool := false
  stalled : List Nat := []
  deriving DecidableEq, Repr

/-! ### Fabric (chapter 10) -/

/-- The states of a port (R502). -/
inductive PortState
  | disabled | training | up | down | miswired | parked
  deriving DecidableEq, Repr

/-- A port of the fabric router beside its objects (R499 to R511). -/
structure Port where
  st : PortState := .disabled
  /-- sequence number from which the receiver has asked for replay (R500) -/
  replayFrom : Nat := 0
  deriving DecidableEq, Repr

/-- A packet the router or the engine holds (R508, R512): the channel it waits for. -/
structure HeldPacket where
  pkt : Packet
  port : Nat
  vc : Nat
  escape : Bool := false
  since : Nat := 0
  deriving DecidableEq, Repr

/-- Flits of a packet injected by a pitch, still held at the next router's input (R511): port, data class, pitch, request tag. -/
structure FlitHold where
  port : Nat
  cls : Nat
  pitch : Nat
  flits : Nat
  tag : Nat := 0
  deriving DecidableEq, Repr

/-- A fabric request outstanding (R522, R523): its tag, its slot, and for a read where its data goes. -/
structure FabricOp where
  tag : Nat
  slot : Nat
  send : Send
  deriving DecidableEq, Repr

/-- A collective or global command of a member in progress (R539, R545, R546): its group, sequence number, slot and pitch;
the operation (COP, or 8 for a barrier and 9 for a broadcast), ROP, RFMT, class and bytes; where the result goes; the
contribution; the next packet of it to enter the tree, and the packets of the result that have been written. -/
structure CollOp where
  group : Nat
  seq : Nat
  slot : Nat
  pitch : Nat
  cop : Nat
  rop : Nat := 0
  bf16 : Bool := false
  cls : Nat := 0
  len : Nat := 0
  space : Nat := 0
  cluster : Nat := 0
  addr : Int := 0
  data : List Byte := []
  next : Nat := 0
  written : List Nat := []
  deriving DecidableEq, Repr

/-- A collective group (R536 to R542). -/
structure Group where
  st : Nat := 0
  record : List Byte := []
  nextSeq : Nat := 0
  deriving DecidableEq, Repr

/-- An encoding stream (R96, R525). -/
structure EncStream where
  owner : Nat := 0xFF
  history : List Word := []
  clipped : Nat := 0
  underflowed : Nat := 0
  reencoded : Nat := 0
  deriving DecidableEq, Repr

/-- One entry of the reduction store (R541): a packet of a collective partly combined: the modules whose contributions
have met, in FP32, the operation of the first, and whether a later one differed from it (R542). -/
structure Reduction where
  group : Nat
  seq : Nat
  index : Nat
  sources : List Nat := []
  values : List Word := []
  bytes : Nat := 0
  cop : Nat := 0
  rop : Nat := 0
  bf16 : Bool := false
  last : Bool := false
  cls : Nat := 0
  tenant : Nat := 0
  bad : Bool := false
  deriving DecidableEq, Repr

/-- A barrier of a group at its root (R544). -/
structure Barrier where
  group : Nat
  arrived : List Nat := []
  deriving DecidableEq, Repr

/-- A snapshot or tenant fence in progress (R547 to R549): the module that started it and when; the markers received as
(port, channel); whether this module has sent its own markers and its report; and at the starting module the reports
received. -/
structure Cut where
  tenant : Nat
  fence : Bool
  newGen : Nat := 0
  origin : Nat := 0
  start : Nat := 0
  markersIn : List (Nat × Nat) := []
  sentMarkers : Bool := false
  reported : Bool := false
  reports : List Nat := []
  deriving DecidableEq, Repr

/-- The fabric router (chapter 10). -/
structure Fabric where
  ports : Tab Port := []
  held : List HeldPacket := []
  /-- packets sent, as (port, virtual channel, packet), oldest first; port 6 is the ejection of this module -/
  sent : List (Nat × Nat × Packet) := []
  ops : List FabricOp := []
  colls : List CollOp := []
  groups : Tab Group := []
  streams : Tab EncStream := []
  reductions : List Reduction := []
  barriers : List Barrier := []
  cut : Option Cut := none
  holdover : Bool := false
  /-- packets in flight on their first hop under a pitch's allocation (R511), and collective packets that wait for it, with their
  pitch -/
  inFlight : List FlitHold := []
  due : List (Nat × Packet) := []
  /-- packets for this module that wait to be taken, oldest first: in the ejection queue (R558), else in their input channels -/
  arrivals : List Packet := []
  /-- cuts that begin when the one in progress is complete -/
  cuts : List Cut := []
  deriving DecidableEq, Repr

/-! ### Listening (chapter 11) -/

/-- What the front end and the Lantern engine noted of a 10 ms block (R579): its number (first index / 160), the voice flags at
its end, whether a sample saturated, and the beam of a trigger raised on a hop that ends in it. -/
structure BlockInfo where
  block : Nat
  voice : Nat := 0
  sat : Bool := false
  trigger : Option Nat := none
  deriving DecidableEq, Repr

/-- A complete block of the RAW stream that waits to be committed (R578). -/
structure RawBlock where
  block : Nat
  stamp : Nat
  data : List Byte
  deriving DecidableEq, Repr

/-- The acoustic front end, the Lantern engine and the wake cascade (chapter 11). -/
structure Listening where
  /-- sample index of the next sample -/
  index : Nat := 0
  /-- the last samples of each of the 24 channels before and after trim, newest first, and the stamps of the last 16 -/
  raw : Tab (List Int) := []
  history : Tab (List Int) := []
  recent : List Nat := []
  ring : Mem := []
  stamps : Mem := []
  /-- the first index of the ring since reset or its last restart (R593) -/
  ringStart : Nat := 0
  groundPoison : Tab Nat := []
  /-- the last blocks, newest first; the one in progress has its saturation here -/
  infos : List BlockInfo := []
  blockSat : Bool := false
  rawBlock : List Byte := []
  rawStamp : Nat := 0
  rawReady : List RawBlock := []
  /-- consecutive frames of each beam at or above, and below, VadThreshold (R582) -/
  attack : Tab Nat := []
  below : Tab Nat := []
  voiced : List Nat := []
  /-- the first block that L0 has not scored, and the first hop that L1 has not evaluated -/
  l0Next : Nat := 0
  l1Next : Nat := 0
  lastTrigger : Option Nat := none
  /-- the stamp T with which the cascade wakes -/
  triggerStamp : Nat := 0
  /-- the keyword model in force: its image, empty for none -/
  model : List Byte := []
  stageWaking : Option Nat := none
  /-- the fabric time at which the timer of the highest awake stage started (R587) -/
  stageSince : Nat := 0
  /-- the stage to which a drop in progress goes, and when the drop began (R588) -/
  dropTo : Option Nat := none
  dropSince : Nat := 0
  heldTrigger : Option Nat := none
  /-- WAKE_OUT is asserted, and since when (R589) -/
  wakeOut : Bool := false
  wakeOutSince : Nat := 0
  /-- streams that run; per stream the next block to deliver, the end of its backlog, and whether its next block is SHORT -/
  streamsOn : List Nat := []
  streamPos : Tab Nat := []
  streamEnd : Tab Nat := []
  streamShort : List Nat := []
  /-- the last glimpse frame kept, empty for none (R596) -/
  glimpse : List Byte := []
  playPos : Nat := 0
  /-- the block in progress on the TDM output came from the playback ring (R598) -/
  playing : Bool := false
  /-- the last block sent on the TDM output -/
  tdmOut : List Byte := []
  deriving DecidableEq, Repr

/-! ### Cameras (chapter 12) -/

/-- A complete line that waits in a port's line buffer (R613): its frame and its pixels. A RAW pixel is its 16-bit value; a
YUV422 pixel is Y + 256 Cb + 65,536 Cr of its pair (R608, R617). -/
structure RawLine where
  frame : Nat
  pixels : List Nat
  deriving DecidableEq, Repr

/-- What one output has delivered of a frame: the next output line, whether it has sent its first and its last band, and whether its
next band has begun, with the queue slot that it is written to (R240; none where the queue was disabled), and whether its bytes did not
all enter the output's write buffer (R635). -/
structure OutState where
  next : Nat := 0
  first : Bool := false
  last : Bool := false
  began : Bool := false
  slot : Option Nat := none
  bad : Bool := false
  deriving DecidableEq, Repr

/-- A frame of a context (R610 to R612, R641), from its Frame Start until its last band: its FRAME_NO, its stamps, the lines
received and those that have passed the arbiter, its marks as PROD_FLAGS bits, and the objects it began under. -/
structure Frame where
  id : Nat
  ctx : Nat
  number : Nat
  stamp : Nat
  window : Nat := 0
  endStamp : Nat := 0
  ended : Bool := false
  received : Nat := 0
  lines : List (List Nat) := []
  marks : Nat := 0
  scalars : Tab Nat := []
  domains : Tab (List Byte) := []
  outs : Tab OutState := []
  deriving DecidableEq, Repr

/-- The CSI-2 receivers and the image pipeline (chapter 12). -/
structure Cameras where
  /-- the line buffer of each port, oldest line first -/
  buffers : Tab (List RawLine) := []
  frames : List Frame := []
  nextFrame : Nat := 0
  /-- ports the arbiter has served, the last one first -/
  served : List Nat := []
  /-- contexts whose lines are discarded as overflowed (R616), and without counting (R639), until their next Frame Start -/
  overflowed : List Nat := []
  quiet : List Nat := []
  /-- outputs (3 × context + output) of which bands were dropped since the last delivered band (R634) -/
  dropped : List Nat := []
  /-- the last transfer asked for on each camera control bus, and the one in progress -/
  cci : Tab (List Byte) := []
  cciResult : List Byte := []
  cciBusy : Option Nat := none
  /-- ports whose CAMn_FSYNC is high -/
  fsync : List Nat := []
  deriving DecidableEq, Repr

/-! ### Error protection (chapter 13) -/

/-- An entry of the fault log (R665). -/
structure FaultEntry where
  kind : Nat
  outcome : Nat
  location : Nat
  frame : Nat := 0
  source : Nat := 0
  cls : Nat := 3
  symbols : Nat := 0
  count : Nat := 1
  seq : Nat := 0
  first : Nat := 0
  last : Nat := 0
  pitch : Option Nat := none
  deriving DecidableEq, Repr

/-- The fault log, the scrubber and the island monitors (chapter 13). -/
structure Errors where
  log : List FaultEntry := []
  nextSeq : Nat := 0
  committedLog : List FaultEntry := []
  logDirty : Bool := false
  /-- corrected events by window and bank: 512 × window number + bank; and the window that CE_WINDOW last began (R664) -/
  bankCounts : Tab Nat := []
  ceWindow : Nat := 0
  /-- the scrubber's place, by class (3: the system region): the start of its pass and the slices read of it (R661) -/
  scrub : Tab (Nat × Nat) := []
  bankLife : Tab Nat := []
  bankLifeCommitted : Tab Nat := []
  islandsDown : List Nat := []
  deriving DecidableEq, Repr

/-! ### Security (chapter 14) -/

/-- The state of a key table entry (R698). -/
inductive KeyState
  | free | pending | write | read | fenced | rekeyOld
  deriving DecidableEq, Repr

/-- A key table entry (R698). `material` names the key the security island drew (an abstract identity). -/
structure KeyEntry where
  st : KeyState := .free
  /-- re-keys of its epoch -/
  rekeys : Nat := 0
  epoch : Nat := 0
  gen : Nat := 0
  tenant : Nat := 0
  standing : Bool := false
  pair : Nat := 0
  /-- 0 once zeroised -/
  material : Nat := 0
  /-- its expiry has been asked for, or its re-key sweep is done: its fence is due -/
  due : Bool := false
  deriving DecidableEq, Repr

/-- The state of a tenant (R696). -/
inductive TenantState
  | free | active | removing
  deriving DecidableEq, Repr

/-- A tenant (R696): its retention in force and the lowered one that waits for the next boundary (R710), its key (exponent, then
modulus, as TenantCreate gives them), whether a roll is delayed (R709), and the removal's scope and progress (R721, R722): 1
accepted, 2 generation incremented, 3 keys zeroised. -/
structure Tenant where
  st : TenantState := .free
  generation : Nat := 0
  retentionDays : Nat := 0
  retentionNext : Option Nat := none
  rollOffset : Nat := 0
  requireConfidential : Bool := false
  key : List Byte := []
  rollDelayed : Bool := false
  fabricRemoval : Bool := false
  removal : Nat := 0
  /-- the fence of R721 step 5 is complete -/
  fenced : Bool := false
  deriving DecidableEq, Repr

/-- A management session (R689 to R692). -/
structure Session where
  id : Nat
  role : Nat
  tenant : Nat := 0
  keys : List Byte := []
  seqIn : Nat := 0
  seqOut : Nat := 0
  path : Path
  /-- when its last valid frame came, or it opened (R692) -/
  stamp : Nat := 0
  deriving DecidableEq, Repr

/-- The security island (chapter 14). -/
structure Security where
  /-- the measurement registers M_ROM, M_SEC, M_MC, M_LANTERN, M_NV, 32 B each -/
  measure : Tab (List Byte) := []
  rollback : Nat := 0
  debugUnlocked : Bool := false
  ephemeral : Option Nat := none
  ephemeralStamp : Nat := 0
  attestNonce : List Byte := []
  attestTag : Nat := 0xFFFF
  attestBusy : Bool := false
  report : List Byte := []
  sessions : List Session := []
  nextSession : Nat := 1
  confidential : Bool := false
  tenants : Tab Tenant := []
  keys : Tab KeyEntry := []
  nextKey : Nat := 1
  /-- the extent nonce counter (R704) -/
  extentNonce : Nat := 0
  committedTenants : Tab Tenant := []
  committedKeys : Tab KeyEntry := []
  storeDirty : Bool := false
  sealValid : Bool := true
  /-- the entry whose expiry fence runs (R711, R715) -/
  fence : Option Nat := none
  fenceStart : Nat := 0
  vendorNonce : Nat := 0
  roleKeys : Tab (List Byte) := []
  deriving DecidableEq, Repr

/-! ### Power (chapter 15) -/

/-- The power states (R734). -/
inductive PowerState
  | active | doze | lantern | stowed | off
  deriving DecidableEq, Repr

/-- The power controller, supplies and reset (chapters 15, 19). -/
structure Power where
  st : PowerState := .active
  vin : Bool := true
  vlnt : Bool := true
  vcal : Bool := true
  refclk : Bool := true
  resetN : Bool := true
  /-- the state to which an entry in progress goes, its last completed step, and whether its checkpoints are started (R743) -/
  entry : Option PowerState := none
  entryStep : Nat := 0
  entrySets : Bool := false
  /-- the state from which a return in progress comes, and its last completed step (R750) -/
  returning : Option PowerState := none
  returnStep : Nat := 0
  heldWake : Bool := false
  tripped : Bool := false
  warm : Bool := false
  /-- the save area of the groundsheet, empty while nothing is saved (R747) -/
  saved : List Byte := []
  /-- consecutive windows below 90 % of the cap, and above the cap with every running core at DIV 7 (R758) -/
  capBelow : Nat := 0
  capAbove : Nat := 0
  capDiv : Tab Nat := []
  thermalDiv : Tab Nat := []
  divRequest : Tab Nat := []
  /-- clusters of which a sensor has read too warm in the 10 ms interval in progress (R761) -/
  warmTen : List Nat := []
  /-- clusters that a return brings up (R750) -/
  returnClusters : List Nat := []
  /-- false while the module is held in reset -/
  booted : Bool := true
  deriving DecidableEq, Repr

/-! ### Management (chapters 16, 17) -/

/-- A response kept for repeats (R788). -/
structure Kept where
  path : Path
  session : Nat
  requestId : Nat
  op : Nat
  index : Nat
  sub : Nat
  offset : Nat
  stamp : Nat
  response : List Byte
  deriving DecidableEq, Repr

/-- A staged segmented write (R784). -/
structure Staged where
  path : Path
  session : Nat := 0
  index : Nat
  sub : Nat
  data : List Byte
  /-- when its last segment came -/
  stamp : Nat := 0
  deriving DecidableEq, Repr

/-- A telemetry subscription (R795, R796). -/
structure Subscription where
  number : Nat
  path : Path
  session : Nat := 0
  interval : Nat := 0
  next : Nat := 0
  objects : List Nat := []
  deriving DecidableEq, Repr

/-- A proxied request (R793, R794). -/
structure Proxied where
  worker : Nat
  requestId : Nat
  path : Path
  /-- it went on the segment, not on the guyline -/
  onSegment : Bool := true
  /-- the request's header, for the manager's own answers -/
  header : List Byte
  /-- when it was forwarded -/
  since : Nat := 0
  deriving DecidableEq, Repr

/-- The value of a Select object for one requester (R773): a session, or outside one a path. -/
structure Select where
  session : Nat
  path : Path
  key : Nat
  value : Nat
  deriving DecidableEq, Repr

/-- A worker as its manager knows it (R791 to R793): its module, its node, whether the segment counts as up, and the
HEARTBEATs received in a row on the segment since it went down. -/
structure Member where
  module : Nat
  node : Nat
  up : Bool := true
  heard : Nat := 0
  /-- when its last HEARTBEAT came on the segment -/
  stamp : Nat := 0
  deriving DecidableEq, Repr

/-- The MC: sessions of the dictionary, segment, lifetime counters and calendar (chapter 16). -/
structure Management where
  kept : List Kept := []
  responses : List (Path × List Byte) := []
  staged : List Staged := []
  subs : List Subscription := []
  proxied : List Proxied := []
  /-- the NV image in force and the older copy, empty for none (R779), and the image that a write of NvImage or NvClearSection
  puts in force at the next reset (R780) -/
  nvImage : List Byte := []
  nvOlder : List Byte := []
  nvNext : Option (List Byte) := none
  selects : List Select := []
  /-- CMDs running on: the request and the object's key (R787) -/
  inProgress : List (Req × Nat) := []
  segmentUp : Bool := true
  segmentManager : Nat := 0
  members : List Member := []
  /-- manager HEARTBEATs received in a row while the segment is down (R792) -/
  managerHeard : Nat := 0
  committedLife : Tab Nat := []
  /-- seconds that each port's transmitter has been on, and as last committed (R797, R798) -/
  laserSeconds : Tab Nat := []
  committedLaser : Tab Nat := []
  calendarValid : Bool := true
  slewTo : Int := 0
  resetScheduled : Bool := false
  deriving DecidableEq, Repr

/-- Field update (chapter 17). -/
structure Update where
  /-- 0 IDLE, 1 RECEIVING, 2 STAGED, 3 ARMED, 4 TRIAL (R805) -/
  st : Nat := 0
  packageLen : Nat := 0
  target : List Byte := []
  pieces : Tab (List Byte) := []
  activeSlot : Nat := 0
  slotA : List Byte := []
  slotB : List Byte := []
  deriving DecidableEq, Repr

/-- How a BAR2 read completes (R833): with data, with Unsupported Request, or poisoned. -/
inductive Completion
  | none
  | data (bytes : List Byte)
  | unsupported
  | poisoned
  deriving DecidableEq, Repr

/-- A request of the host that is accepted and not yet served: a BAR2 read or write under the window base of that moment (R834), or a
doorbell behind writes (R829). -/
inductive HostAsk
  | read (base offset len : Nat)
  | write (base offset : Nat) (data : List Byte)
  | bell (d : Nat)
  deriving DecidableEq, Repr

/-- The host link (chapter 18). -/
structure HostLink where
  connected : Bool := false
  usb4En : Bool := false
  cl2 : Bool := false
  rates : Nat := 0
  evtProd : Word := 0
  evtCons : Word := 0
  evtLost : Word := 0
  /-- the event window: record n at key n mod 4,096 (R830) -/
  events : Tab (List Byte) := []
  winBaseLo : Word := 0
  winBaseHi : Word := 0
  winStatus : Word := 0
  winErrors : Word := 0
  /-- tenant tag of the pitch when WindowPitch was written, and of each channel's pitch when HostDmaPitch was (R833) -/
  winTenant : Nat := 0
  dmaTenant : Tab Nat := []
  /-- LO, HI, ENTRIES, PROD, CONS of each DMA channel: key 8*channel + field -/
  dma : Tab Word := []
  mbReqLen : Tab Word := []
  mbRespLen : Tab Word := []
  /-- mailboxes with LEN_ERR set -/
  mbLenErr : List Nat := []
  mbReq : Tab (List Byte) := []
  mbResp : Tab (List Byte) := []
  mbQueue : Tab (List (List Byte)) := []
  /-- MSI-X vectors raised, oldest first -/
  vectors : List Nat := []
  /-- how the last BAR2 read completed -/
  lastRead : Completion := .none
  /-- requests held at the crossing, oldest first (R27, R829, R839) -/
  asks : List HostAsk := []
  /-- event records that wait for the MC's return: kind and payload (R678) -/
  late : List (Nat × List Byte) := []
  /-- writes the block has made to host memory: (address, bytes), oldest first -/
  hostWrites : List (Nat × List Byte) := []
  deriving DecidableEq, Repr

/-- The state of the block. -/
structure State where
  /-- commands waiting, first in, first out (this model's own; the block takes one per step) -/
  pending : List Instr := []
  /-- the model's own counter: each free value is an opaque function of Config applied to it -/
  freeCtr : Nat := 0
  /-- fabric time (R45) -/
  time : Nat := 0
  /-- fabric time at which each periodic event last took place, or a fixed delay began, by timer; at tmRun, the time that the image
  has run in this boot (R728) -/
  timers : Tab Nat := []
  /-- the calendar in UTC seconds (R43) -/
  calendar : Nat := 0
  /-- straps PROF1:PROF0 as last sampled (R859), and the profile in force (R2) -/
  straps : Nat := 0
  profile : Nat := 0
  /-- the ordering code: false WZ48-MA, true WZ48-MB (R3) -/
  mb : Bool := false
  moduleId : Nat := 0
  cores : Tab Core := []
  slots : Tab Slot := []
  /-- per core the slot whose command issued last (R128) -/
  lastIssued : Tab Nat := []
  clusters : Tab Cluster := []
  pitches : Tab Pitch := []
  loans : List Loan := []
  teardownLog : List (List Byte) := []
  queues : Tab Queue := []
  tier : TierUnit := {}
  fabric : Fabric := {}
  listen : Listening := {}
  cams : Cameras := {}
  errors : Errors := {}
  sec : Security := {}
  power : Power := {}
  mgmt : Management := {}
  update : Update := {}
  host : HostLink := {}
  /-- object dictionary: key index*256+subindex, values of scalar objects that differ from their default -/
  dict : Tab Nat := []
  /-- values of DOMAIN objects that differ from their default -/
  domains : Tab (List Byte) := []
  deriving DecidableEq, Repr

/-- The machine right after reset: ACTIVE, every cluster gated, no pitch resident, the journal's replay to come (R295, R736). Every
value the spec leaves open is named in the assumption log. -/
def State.reset : State := {
  clusters := [(0, { gated := true }), (1, { gated := true }), (2, { gated := true }), (3, { gated := true }), (4, { gated := true }),
    (5, { gated := true })]
  tier := { journalReplayed := false } }

end Sys2Proof.Machine
end

