-- ==== Sys2Proof/Machine/Table.lean ====
section
/-! DEFINITION. Operations of sparse tables and of memories, and the canonical form they keep. -/

namespace Sys2Proof.Machine

/-- The entry of a table at a key, if listed. -/
def tabFind {α : Type} (t : Tab α) (k : Nat) : Option α :=
  match t with
  | [] => none
  | (k', v) :: rest => if k' = k then some v else tabFind rest k

/-- The entry of a table at a key, or the default. -/
def tabGet {α : Type} (t : Tab α) (k : Nat) (d : α) : α := (tabFind t k).getD d

/-- Write an entry, keys rising. -/
def tabSet {α : Type} (t : Tab α) (k : Nat) (v : α) : Tab α :=
  match t with
  | [] => [(k, v)]
  | (k', v') :: rest =>
    if k' = k then (k, v) :: rest
    else if k < k' then (k, v) :: (k', v') :: rest
    else (k', v') :: tabSet rest k v

/-- Remove an entry. -/
def tabDel {α : Type} (t : Tab α) (k : Nat) : Tab α := t.filter (fun e => e.1 != k)

/-- Change an entry in place (the default where it is not listed). -/
def tabMod {α : Type} (t : Tab α) (k : Nat) (d : α) (f : α → α) : Tab α := tabSet t k (f (tabGet t k d))

/-- Keys strictly rising, from above `lo`. -/
def risingFrom {α : Type} (lo : Nat) : List (Nat × α) → Bool
  | [] => true
  | (k, _) :: rest => decide (lo ≤ k) && risingFrom (k + 1) rest

/-- The canonical form of a memory: addresses strictly rising, no listed cell equal to 0. -/
def Mem.wf (m : Mem) : Bool := risingFrom 0 m && m.all (fun c => c.2 != 0)

/-- One byte of memory; an unlisted address reads 0. -/
def memByte (m : Mem) (a : Nat) : Byte :=
  match m with
  | [] => 0
  | (k, v) :: rest => if k = a then v else memByte rest a

/-- `n` bytes from address `a`. -/
def memRead (m : Mem) (a n : Nat) : List Byte := (List.range n).map (fun i => memByte m (a + i))

/-- The cells that bytes at an address stand for, zero bytes left out. -/
def cellsOf (a : Nat) : List Byte → Mem
  | [] => []
  | b :: bs => if b = 0 then cellsOf (a + 1) bs else (a, b) :: cellsOf (a + 1) bs

/-- Store bytes at an address: the cells below, the bytes stored, the cells above. -/
def memWrite (m : Mem) (a : Nat) (bs : List Byte) : Mem :=
  m.filter (fun c => decide (c.1 < a)) ++ cellsOf a bs ++ m.filter (fun c => decide (a + bs.length ≤ c.1))

/-- Clear `n` bytes from an address to 0. -/
def memClear (m : Mem) (a n : Nat) : Mem := m.filter (fun c => decide (c.1 < a) || decide (a + n ≤ c.1))

/-- A little-endian number of `n` bytes (R6). -/
def memNat (m : Mem) (a n : Nat) : Nat := leNat (memRead m a n)

end Sys2Proof.Machine
end

