-- ==== Sys2Proof/Machine/Flags.lean ====
section
/-! DEFINITION. The number conditions of NUM_FLAGS (R97) and the values an operation returns with them. -/

namespace Sys2Proof.Machine

/-- NUM_FLAGS bits (R97). -/
abbrev Conds := BitVec 6

/-- An operation produced NaN from operands that contained no NaN. -/
def condNanGen : Conds := 0x20
/-- An operand or a decoded code was NaN. -/
def condNanIn : Conds := 0x10
/-- An operand or a decoded code was infinite. -/
def condInfIn : Conds := 0x08
/-- A finite result or expansion rounded to infinity. -/
def condOvf : Conds := 0x04
/-- A narrowing saturated. -/
def condSat : Conds := 0x02
/-- A finite non-zero value was divided by zero. -/
def condDivZero : Conds := 0x01

/-- A condition if a test holds. -/
def condIf (b : Bool) (c : Conds) : Conds := if b then c else 0

/-- A pattern with the conditions its computation met and the elements that saturated. -/
structure Num where
  bits : Word
  fl : Conds := 0
  sat : Nat := 0
  deriving DecidableEq, Repr

/-- What a command's arithmetic met: the OR of its conditions and its saturated elements (R97, R99). -/
structure Met where
  fl : Conds := 0
  sat : Nat := 0
  deriving DecidableEq, Repr

/-- Add what one value met. -/
def Met.add (m : Met) (n : Num) : Met := ⟨m.fl ||| n.fl, m.sat + n.sat⟩

/-- Join two. -/
def Met.join (m n : Met) : Met := ⟨m.fl ||| n.fl, m.sat + n.sat⟩

end Sys2Proof.Machine
end

