-- ==== Sys2Proof/Machine/Float.lean ====
section
/-! DEFINITION. The number formats, their arithmetic and narrowing (chapter 02, R54 to R69): every finite value is held
exactly as ±m·2^e and rounded once. -/

namespace Sys2Proof.Machine

/-- A value: NaN, an infinity, or ±m·2^e (a zero keeps its sign). -/
inductive Fp
  | nan
  | inf (neg : Bool)
  | fin (neg : Bool) (m : Nat) (e : Int)
  deriving DecidableEq, Repr

/-- The canonical NaN of FP32 (R57). -/
def nan32 : Word := 0x7FC00000

/-- Value of a binary pattern with `eb` exponent and `fb` fraction bits, IEEE style (R54). -/
def ieeeValue (eb fb w : Nat) : Fp :=
  let neg := bit w (eb + fb)
  let ex := field w (eb + fb - 1) fb
  let fr := w % 2 ^ fb
  let bias : Int := (2 ^ (eb - 1) - 1 : Nat)
  if ex = 2 ^ eb - 1 then (if fr = 0 then .inf neg else .nan)
  else if ex = 0 then .fin neg fr (1 - bias - fb)
  else .fin neg (2 ^ fb + fr) ((ex : Int) - bias - fb)

/-- Value of an FP32 pattern. -/
def f32Value (w : Word) : Fp := ieeeValue 8 23 w.toNat

/-- Value of a bf16 pattern. -/
def bf16Value (h : Nat) : Fp := ieeeValue 8 7 h

/-- Value of an FP8-E5M2 code. -/
def e5m2Value (c : Nat) : Fp := ieeeValue 5 2 c

/-- Value of an FP8-E4M3 code: no infinity, NaN only at 0x7F and 0xFF (R54). -/
def e4m3Value (c : Nat) : Fp :=
  if c % 128 = 127 then .nan
  else if field c 6 3 = 0 then .fin (bit c 7) (c % 8) (-9)
  else .fin (bit c 7) (8 + c % 8) ((field c 6 3 : Int) - 10)

/-- Value of a two's complement code of `n` bits; the most negative code is the NaN marker (R55). -/
def intValue (n c : Nat) : Fp :=
  let c := c % 2 ^ n
  if c = 2 ^ (n - 1) then .nan
  else if c < 2 ^ (n - 1) then .fin false c 0 else .fin true (2 ^ n - c) 0

/-- Round m·2^e to `fb` fraction bits with least exponent `qmin`: ties away from zero if `away`, else to even
(R62, R67). The answer is the magnitude pattern, exponent field included; it may reach or pass the infinity's. -/
def roundMag (away : Bool) (fb : Nat) (qmin : Int) (m : Nat) (e : Int) : Nat :=
  if m = 0 then 0
  else
    let q := max qmin ((Nat.log2 m : Int) + e - fb)
    let base := (q - qmin).toNat * 2 ^ fb
    if q ≤ e then base + m <<< (e - q).toNat
    else
      let sh := (q - e).toNat
      let k := m >>> sh
      let rem := m % 2 ^ sh
      let half := 2 ^ (sh - 1)
      let up := half < rem || (rem == half && (away || k % 2 == 1))
      base + k + (if up then 1 else 0)

/-- An FP32 pattern from a sign and a rounded magnitude; from 0x7F80_0000 it is infinity (R63). -/
def packF32 (neg : Bool) (mag : Nat) : Word :=
  BitVec.ofNat 32 ((if neg then 0x80000000 else 0) + min mag 0x7F800000)

/-- The FP32 pattern of a value, to nearest with ties to even (R62). -/
def f32Of (v : Fp) : Word :=
  match v with
  | .nan => nan32
  | .inf neg => packF32 neg 0x7F800000
  | .fin neg m e => packF32 neg (roundMag false 23 (-149) m e)

/-- Is the pattern NaN, infinite, finite, zero. -/
def isNan32 (w : Word) : Bool := 0x7F800000 < w.toNat % 2 ^ 31
def isInf32 (w : Word) : Bool := w.toNat % 2 ^ 31 == 0x7F800000
def isFinite32 (w : Word) : Bool := decide (w.toNat % 2 ^ 31 < 0x7F800000)
def isZero32 (w : Word) : Bool := w.toNat % 2 ^ 31 == 0

/-- The conditions of an operation with these operands and this result (R97); `dz` for a division by zero. -/
def opConds (ops : List Word) (r : Word) (dz : Bool := false) : Conds :=
  condIf (ops.any isNan32) condNanIn ||| condIf (ops.any isInf32) condInfIn
    ||| condIf (isNan32 r && !ops.any isNan32) condNanGen
    ||| condIf (ops.all isFinite32 && isInf32 r && !dz) condOvf ||| condIf dz condDivZero

/-- A result with its conditions. -/
def numOf (ops : List Word) (r : Word) (dz : Bool := false) : Num := { bits := r, fl := opConds ops r dz }

/-- Exact sum (R63): a zero sum of unlike signs is +0. -/
def Fp.add (a b : Fp) : Fp :=
  match a, b with
  | .nan, _ => .nan
  | _, .nan => .nan
  | .inf s, .inf t => if s = t then .inf s else .nan
  | .inf s, .fin .. => .inf s
  | .fin .., .inf t => .inf t
  | .fin s m e, .fin t n f =>
    let q := min e f
    let x : Int := (if s then -1 else 1) * (m * 2 ^ (e - q).toNat : Nat)
    let y : Int := (if t then -1 else 1) * (n * 2 ^ (f - q).toNat : Nat)
    if x + y = 0 then .fin (s && t) 0 q else .fin (decide (x + y < 0)) (x + y).natAbs q

/-- Exact product (R63). -/
def Fp.mul (a b : Fp) : Fp :=
  match a, b with
  | .nan, _ => .nan
  | _, .nan => .nan
  | .inf s, .inf t => .inf (s != t)
  | .inf s, .fin t n _ => if n = 0 then .nan else .inf (s != t)
  | .fin s m _, .inf t => if m = 0 then .nan else .inf (s != t)
  | .fin s m e, .fin t n f => .fin (s != t) (m * n) (e + f)

/-- Negation. -/
def Fp.neg (a : Fp) : Fp :=
  match a with
  | .nan => .nan
  | .inf s => .inf (!s)
  | .fin s m e => .fin (!s) m e

/-- Quotient with at least 64 significant bits and a sticky last bit, so that one rounding follows it (R63). -/
def Fp.div (a b : Fp) : Fp :=
  match a, b with
  | .nan, _ => .nan
  | _, .nan => .nan
  | .inf _, .inf _ => .nan
  | .inf s, .fin t _ _ => .inf (s != t)
  | .fin s _ _, .inf t => .fin (s != t) 0 0
  | .fin s m e, .fin t n f =>
    if n = 0 then (if m = 0 then .nan else .inf (s != t))
    else
      let k := 66 + Nat.log2 n
      let q := (m * 2 ^ k) / n
      .fin (s != t) (2 * q + (if (m * 2 ^ k) % n = 0 then 0 else 1)) (e - f - k - 1)

/-- FP32 operations, each rounded once to nearest even (R62). -/
def f32Add (a b : Word) : Num := numOf [a, b] (f32Of ((f32Value a).add (f32Value b)))
def f32Sub (a b : Word) : Num := numOf [a, b] (f32Of ((f32Value a).add (f32Value b).neg))
def f32Mul (a b : Word) : Num := numOf [a, b] (f32Of ((f32Value a).mul (f32Value b)))
def f32Fma (a b c : Word) : Num := numOf [a, b, c] (f32Of (((f32Value a).mul (f32Value b)).add (f32Value c)))
def f32Div (a b : Word) : Num :=
  numOf [a, b] (f32Of ((f32Value a).div (f32Value b))) (isFinite32 a && !isZero32 a && isZero32 b)

/-- Signed order key of a finite or infinite pattern; the zeros are equal. -/
def f32Key (w : Word) : Int := if bit w.toNat 31 then -((w.toNat % 2 ^ 31 : Nat) : Int) else (w.toNat % 2 ^ 31 : Nat)

/-- Comparisons hold for no NaN operand, not-equal apart (R171). -/
def f32Lt (a b : Word) : Bool := !isNan32 a && !isNan32 b && decide (f32Key a < f32Key b)
def f32Le (a b : Word) : Bool := !isNan32 a && !isNan32 b && decide (f32Key a ≤ f32Key b)
def f32Eq (a b : Word) : Bool := !isNan32 a && !isNan32 b && decide (f32Key a = f32Key b)

/-- Maximum: NaN propagates, max(+0, −0) is +0 (R64, R65). -/
def f32Max (a b : Word) : Num :=
  numOf [a, b] (if isNan32 a || isNan32 b then nan32
    else if isZero32 a && isZero32 b then a &&& b
    else if f32Lt a b then b else a)

/-- Minimum: NaN propagates, min(+0, −0) is −0 (R64, R65). -/
def f32Min (a b : Word) : Num :=
  numOf [a, b] (if isNan32 a || isNan32 b then nan32
    else if isZero32 a && isZero32 b then a ||| b
    else if f32Lt b a then b else a)

/-! ### Narrowing and expansion (R67 to R69, R79, R80) -/

/-- FP32 to bf16, the fragment of R67, with OVF where a finite value becomes infinite (R68). -/
def toBf16 (x : Word) : Num :=
  if isNan32 x then { bits := 0x7FC0 }
  else
    let sgn := x.toNat / 2 ^ 31 * 2 ^ 31
    let r := (sgn + (x.toNat % 2 ^ 31 + 0x8000)) / 2 ^ 16
    { bits := BitVec.ofNat 32 r, fl := condIf (isFinite32 x && r % 2 ^ 15 == 0x7F80) condOvf }

/-- A bf16 pattern as FP32: it is the upper half (R54); a NaN becomes canonical (R57). -/
def ofBf16 (h : Nat) : Word :=
  let w : Word := BitVec.ofNat 32 (h % 2 ^ 16 * 2 ^ 16)
  if isNan32 w then nan32 else w

/-- The narrow and wide formats by their codes: operand word FMT of R161. -/
inductive Fmt
  | fp32 | e4m3 | e5m2 | int8 | int4 | bf16
  deriving DecidableEq, Repr

/-- A saturated code, counted (R68). -/
def satCode (c : Nat) : Num := { bits := BitVec.ofNat 32 c, fl := condSat, sat := 1 }

/-- Narrow an FP32 value to a code of a format, ties away from zero (R67, R68, R69). -/
def narrow (f : Fmt) (x : Word) : Num :=
  let sgn := x.toNat / 2 ^ 31
  let code (c : Nat) : Num := { bits := BitVec.ofNat 32 c }
  match f with
  | .fp32 => { bits := if isNan32 x then nan32 else x }
  | .bf16 => toBf16 x
  | .e4m3 =>
    match f32Value x with
    | .nan => code 0x7F
    | .inf _ => satCode (sgn * 128 + 0x7E)
    | .fin _ m e =>
      let r := roundMag true 3 (-9) m e
      if 0x7F ≤ r then satCode (sgn * 128 + 0x7E) else code (sgn * 128 + r)
  | .e5m2 =>
    match f32Value x with
    | .nan => code 0x7E
    | .inf _ => code (sgn * 128 + 0x7C)
    | .fin _ m e =>
      let r := roundMag true 2 (-16) m e
      if 0x7C ≤ r then satCode (sgn * 128 + 0x7B) else code (sgn * 128 + r)
  | .int8 =>
    match f32Value x with
    | .nan => code 0x80
    | .inf s => satCode (if s then 256 - 127 else 127)
    | .fin s m e => intCode 8 127 s m e
  | .int4 =>
    match f32Value x with
    | .nan => code 0x8
    | .inf s => satCode (if s then 16 - 7 else 7)
    | .fin s m e => intCode 4 7 s m e
where
  /-- Round a magnitude to an integer, ties away, and clip to the code limit. -/
  intCode (n lim : Nat) (s : Bool) (m : Nat) (e : Int) : Num :=
    let r := if 0 ≤ e then m * 2 ^ e.toNat else (m + 2 ^ ((-e).toNat - 1)) / 2 ^ (-e).toNat
    if lim < r then satCode (if s then 2 ^ n - lim else lim)
    else { bits := BitVec.ofNat 32 (if s then (2 ^ n - r) % 2 ^ n else r) }

/-- Value of a code in its own format. -/
def codeValue (f : Fmt) (c : Nat) : Fp :=
  match f with
  | .fp32 => ieeeValue 8 23 c
  | .bf16 => bf16Value c
  | .e4m3 => e4m3Value c
  | .e5m2 => e5m2Value c
  | .int8 => intValue 8 c
  | .int4 => intValue 4 c

/-- Round a value to bf16 once, ties away (R67). -/
def bf16Of (v : Fp) : Nat :=
  match v with
  | .nan => 0x7FC0
  | .inf s => flag s * 0x8000 + 0x7F80
  | .fin s m e => flag s * 0x8000 + min 0x7F80 (roundMag true 7 (-133) m e)

/-- Is the product of an integer code's value and a scale the zero of code 0, which expands to +0 (R59). -/
def intZero (f : Fmt) (v p : Fp) : Bool :=
  (f == .int8 || f == .int4) && v == .fin false 0 0 && (match p with | .fin _ m _ => m == 0 | _ => false)

/-- A code of a scaled format as bf16: value(c) × s narrowed once (R79, R80); the operand is delivered as FP32. -/
def expand (f : Fmt) (c scale : Nat) : Num :=
  let v := codeValue f c
  match v with
  | .nan =>
    { bits := nan32, fl := condNanIn ||| condIf (match bf16Value scale with
        | .inf _ => true
        | _ => false) condInfIn }
  | _ =>
    let p := v.mul (bf16Value scale)
    let r := if intZero f v p then 0 else bf16Of p
    let inf := match v with
      | .inf _ => true
      | _ => false
    let fin (x : Fp) : Bool := match x with
      | .fin .. => true
      | _ => false
    { bits := ofBf16 r,
      fl := condIf (inf || (match bf16Value scale with | .inf _ => true | _ => false)) condInfIn
        ||| condIf (bf16Value scale == .nan) condNanIn
        ||| condIf (p == .nan && !(bf16Value scale == .nan)) condNanGen
        ||| condIf (fin v && fin (bf16Value scale) && r % 2 ^ 15 == 0x7F80) condOvf }

end Sys2Proof.Machine
end

