-- ==== Sys2Proof/Machine/Formats.lean ====
section
/-! DEFINITION. Rows of scaled codes: packing, ROW and HISTORY scales, row headers (chapter 02, R56, R70 to R96). -/

namespace Sys2Proof.Machine

/-- The format a 3-bit FMT names (R161); 0b110 and 0b111 are reserved. -/
def fmtOf (n : Nat) : Option Fmt :=
  match n with
  | 0 => some .fp32
  | 1 => some .e4m3
  | 2 => some .e5m2
  | 3 => some .int8
  | 4 => some .int4
  | 5 => some .bf16
  | _ => none

/-- Bits of one element. -/
def Fmt.bits (f : Fmt) : Nat :=
  match f with
  | .fp32 => 32
  | .bf16 => 16
  | .int4 => 4
  | _ => 8

/-- Bytes of a row of `n` elements; an odd INT4 row is padded with one code (R56). -/
def Fmt.rowBytes (f : Fmt) (n : Nat) : Nat := ceilDiv (n * f.bits) 8

/-- Alignment of an element in bytes: 1 for the narrow formats (R177). -/
def Fmt.align (f : Fmt) : Nat := max 1 (f.bits / 8)

/-- Is the format expanded with a scale (R60, R79). -/
def Fmt.narrow (f : Fmt) : Bool :=
  match f with
  | .fp32 => false
  | .bf16 => false
  | _ => true

/-- Element `i` of a packed row of `n`-byte data: an even INT4 element lies in bits [3:0] (R56). -/
def codeAt (f : Fmt) (row : List Byte) (i : Nat) : Nat :=
  match f with
  | .fp32 => leNat (row.drop (4 * i) |>.take 4)
  | .bf16 => leNat (row.drop (2 * i) |>.take 2)
  | .int4 => (nth row (i / 2) 0).toNat / (if i % 2 = 0 then 1 else 16) % 16
  | _ => (nth row i 0).toNat

/-- Pack codes into the bytes of a row (R56). -/
def packCodes (f : Fmt) : List Nat → List Byte
  | [] => []
  | [c] =>
    match f with
    | .fp32 => natLe 4 c
    | .bf16 => natLe 2 c
    | .int4 => [BitVec.ofNat 8 (c % 16)]
    | _ => [BitVec.ofNat 8 c]
  | c :: d :: rest =>
    match f with
    | .fp32 => natLe 4 c ++ packCodes f (d :: rest)
    | .bf16 => natLe 2 c ++ packCodes f (d :: rest)
    | .int4 => BitVec.ofNat 8 (c % 16 + 16 * (d % 16)) :: packCodes f rest
    | _ => BitVec.ofNat 8 c :: packCodes f (d :: rest)

/-- The code limit qmax as an FP32 value (R70). -/
def Fmt.qmax (f : Fmt) : Word :=
  match f with
  | .int8 => 0x42FE0000
  | .int4 => 0x40E00000
  | .e4m3 => 0x43E00000
  | .e5m2 => 0x47600000
  | _ => 0x3F800000

/-- Magnitude of an FP32 pattern. -/
def f32Abs (w : Word) : Word := w &&& 0x7FFFFFFF

/-- maxabs: the largest magnitude among the finite elements (R71). -/
def maxAbs (xs : List Word) : Word :=
  xs.foldl (fun m x => if isFinite32 x && m.toNat < (f32Abs x).toNat then f32Abs x else m) 0

/-- The ROW scale of a row (R74, R76, R77), a bf16 pattern. -/
def rowScale (f : Fmt) (maxabs : Word) : Nat :=
  if isZero32 maxabs then 0
  else
    let s := (toBf16 (f32Div maxabs f.qmax).bits).bits.toNat
    if s = 0 then 1 else s

/-- The HISTORY scale for the largest maxabs of the window and margin 2^mlog (R82, R86); one that narrows to zero stays +0 (DESIGN
CHOICE, log entry 117). -/
def historyScale (f : Fmt) (h : Word) (mlog : Nat) : Nat :=
  let m : Word := f32Of (.fin false 1 mlog)
  let s := (toBf16 (f32Div (f32Mul m h).bits f.qmax).bits).bits.toNat
  if s = 0x7F80 then 0x7F7F else s

/-- One encoded element: its code, whether it saturated under R68. -/
structure EncElem where
  code : Nat
  sat : Bool := false
  deriving DecidableEq, Repr

/-- The code of ±qmax of a format. -/
def qmaxCode (f : Fmt) (neg : Bool) : Nat :=
  match f with
  | .int8 => if neg then 256 - 127 else 127
  | .int4 => if neg then 16 - 7 else 7
  | .e4m3 => flag neg * 128 + 0x7E
  | .e5m2 => flag neg * 128 + 0x7B
  | .bf16 => 0
  | .fp32 => 0

/-- The code of element x with scale s (R72, R73); in ROW mode a finite element is clamped uncounted (R75).
The code of -0 in an FP8 format, and of a finite element with an infinite quotient, are DESIGN CHOICES (log entries 115, 116). -/
def encodeElem (f : Fmt) (row : Bool) (scale : Nat) (x : Word) : EncElem :=
  if isZero32 x then { code := (narrow f x).bits.toNat }
  else
    let q := (f32Div x (ofBf16 scale)).bits
    let c := narrow f q
    if isFinite32 x && isInf32 q && row then { code := qmaxCode f (bit x.toNat 31) }
    else if isFinite32 x && isInf32 q then { code := qmaxCode f (bit x.toNat 31), sat := true }
    else if row && isFinite32 x && c.sat != 0 then { code := qmaxCode f (bit x.toNat 31) }
    else { code := c.bits.toNat, sat := c.sat != 0 }

/-- An encoded row: codes, scale, saturated elements, maxabs and the flags of its header (R95). -/
structure EncRow where
  codes : List Nat
  scale : Nat
  sat : Nat := 0
  maxabs : Word := 0
  clipped : Bool := false
  reenc : Bool := false
  rowScale : Bool := true
  under : Bool := false
  deriving DecidableEq, Repr

/-- Encode a row in ROW mode (R74 to R78). Only infinite elements can saturate. -/
def encodeRow (f : Fmt) (xs : List Word) : EncRow :=
  let m := maxAbs xs
  let s := rowScale f m
  let es := xs.map (encodeElem f true s)
  { codes := es.map (·.code), scale := s, sat := (es.filter (·.sat)).length, maxabs := m }

/-- Encode a row of a stream (R82 to R90): `hist` the maxabs of the rows sent, newest first; `wlog`, `mlog`, `reenc` of
the scale control word. A row encoded again has no UNDER (DESIGN CHOICE, log entry 118). -/
def encodeStreamRow (f : Fmt) (history : Bool) (wlog mlog : Nat) (reenc : Bool) (hist : List Word) (xs : List Word) :
    EncRow :=
  let h := maxAbs (hist.take (2 ^ wlog))
  if !history || isZero32 h then encodeRow f xs
  else
    let m := maxAbs xs
    let s := historyScale f h mlog
    let es := xs.map (encodeElem f false s)
    let sat := (es.filter (·.sat)).length
    if sat != 0 && reenc then { encodeRow f xs with clipped := false, reenc := true }
    else
      let lim := f32Div (f32Mul (ofBf16 s) f.qmax).bits 0x41800000
      { codes := es.map (·.code), scale := s, sat := sat, maxabs := m, clipped := sat != 0, rowScale := false,
        under := !isZero32 m && f32Lt m lim.bits }

/-- The format code of the scale control word and of a row header (R93, R95). -/
def Fmt.streamCode (f : Fmt) : Nat :=
  match f with
  | .fp32 => 0
  | .bf16 => 0
  | .e4m3 => 1
  | .e5m2 => 2
  | .int8 => 3
  | .int4 => 4

/-- The format a stream FORMAT names. -/
def streamFmt (n : Nat) : Option Fmt :=
  match n with
  | 1 => some .e4m3
  | 2 => some .e5m2
  | 3 => some .int8
  | _ => none

/-- The 32-bit row header (R95); SAT_COUNT of a row encoded again is 0 (DESIGN CHOICE, log entry 119). -/
def rowHeader (f : Fmt) (r : EncRow) : Nat :=
  r.scale * 65536 + f.streamCode * 4096 + flag r.clipped * 2048 + flag r.reenc * 1024 + flag r.rowScale * 512
    + flag r.under * 256 + (if r.rowScale then 0 else min 255 r.sat)

/-- Decode one row: codes and its own scale alone (R81). -/
def decodeRow (f : Fmt) (n scale : Nat) (row : List Byte) : List Num :=
  (List.range n).map (fun i => expand f (codeAt f row i) scale)

end Sys2Proof.Machine
end

