-- ==== Sys2Proof/Machine/Objects.lean ====
section
/-! DEFINITION. The object dictionary's tables (the object tables of chapters 04 to 18): one row per object, with type, access,
factory value and range, and the key of each object: index*256 + subindex. -/

namespace Sys2Proof.Machine

/-- Object types (R766), with their codes in ENUMERATE (R784). -/
inductive ObjType
  | bool | u8 | u16 | u32 | u64 | i32 | f32 | time64 | string | domain
  deriving DecidableEq, Repr

/-- Access codes of objects (R767). -/
inductive ObjAccess
  | ro | rw | wo | rws | cmd
  deriving DecidableEq, Repr

/-- A row of an object table. It stands for `copies` consecutive indices (one per pitch, port, queue ...) and `subs`
consecutive subindices. A value is in range if it is one of `also`, or lies in [lo, hi] and is a multiple of `mult`.
`size` is the length of a DOMAIN where the table fixes it, else 0. -/
structure ObjRow where
  key : Nat
  copies : Nat
  subs : Nat
  name : String
  ty : ObjType
  acc : ObjAccess
  dflt : Nat
  lo : Nat
  hi : Nat
  mult : Nat
  also : List Nat
  size : Nat
  deriving DecidableEq, Repr


namespace Key

/-- TagsInUse -/
def tagsInUse : Nat := 0x3A0001
/-- TagsHighWater -/
def tagsHighWater : Nat := 0x3A0002
/-- TagWaits -/
def tagWaits : Nat := 0x3A0003
/-- FlashTagLimit -/
def flashTagLimit : Nat := 0x3A0004
/-- QueueCluster -/
def queueCluster : Nat := 0x460001
/-- QueuePitch -/
def queuePitch : Nat := 0x460002
/-- QueueSramOffset -/
def queueSramOffset : Nat := 0x460003
/-- SlotBytes -/
def slotBytes : Nat := 0x460004
/-- SlotsPerBank -/
def slotsPerBank : Nat := 0x460005
/-- StaleTailNs -/
def staleTailNs : Nat := 0x460006
/-- QueueEnable -/
def queueEnable : Nat := 0x460007
/-- LostPackets -/
def lostPackets : Nat := 0x460008
/-- FlushedPackets -/
def flushedPackets : Nat := 0x460009
/-- RewoundPackets -/
def rewoundPackets : Nat := 0x46000A
/-- HeatPeriodAUs -/
def heatPeriodAUs : Nat := 0x320001
/-- HeatPeriodBCUs -/
def heatPeriodBCUs : Nat := 0x320002
/-- PromoteBA -/
def promoteBA : Nat := 0x320003
/-- DemoteAB -/
def demoteAB : Nat := 0x320004
/-- PromoteCB -/
def promoteCB : Nat := 0x320005
/-- DemoteBC -/
def demoteBC : Nat := 0x320006
/-- TierALowWaterPct -/
def tierALowWaterPct : Nat := 0x320007
/-- TierBLowWaterPct -/
def tierBLowWaterPct : Nat := 0x320008
/-- TierBHighWaterPct -/
def tierBHighWaterPct : Nat := 0x320009
/-- MigrationBandwidthPct -/
def migrationBandwidthPct : Nat := 0x32000A
/-- Promotions -/
def promotions : Nat := 0x32000B
/-- Demotions -/
def demotions : Nat := 0x32000C
/-- MigrationAborts -/
def migrationAborts : Nat := 0x32000D
/-- LpddrRawBytes -/
def lpddrRawBytes : Nat := 0x330001
/-- SystemRegionBytes -/
def systemRegionBytes : Nat := 0x330002
/-- LpddrReadBytes -/
def lpddrReadBytes : Nat := 0x330003
/-- LpddrWriteBytes -/
def lpddrWriteBytes : Nat := 0x330004
/-- SelfRefreshEntries -/
def selfRefreshEntries : Nat := 0x330005
/-- FlashDailyBudget -/
def flashDailyBudget : Nat := 0x340001
/-- FlashBudgetBalanceMB -/
def flashBudgetBalanceMB : Nat := 0x340002
/-- FlashBytesToday -/
def flashBytesToday : Nat := 0x340003
/-- FlashBudgetExhausted -/
def flashBudgetExhausted : Nat := 0x340004
/-- FlashDirectReads -/
def flashDirectReads : Nat := 0x340005
/-- FlashReadRetries -/
def flashReadRetries : Nat := 0x340006
/-- FlashReadFails -/
def flashReadFails : Nat := 0x340007
/-- FlashOpenStreams -/
def flashOpenStreams : Nat := 0x340008
/-- FlashGcBytes -/
def flashGcBytes : Nat := 0x340009
/-- StateQuotaBytes -/
def stateQuotaBytes : Nat := 0x310001
/-- TierALimitBytes -/
def tierALimitBytes : Nat := 0x310002
/-- QuotaPolicy -/
def quotaPolicy : Nat := 0x310003
/-- QuotaStallUs -/
def quotaStallUs : Nat := 0x310004
/-- MappedBytes -/
def mappedBytes : Nat := 0x310005
/-- TierABytes -/
def tierABytes : Nat := 0x310006
/-- TierBBytes -/
def tierBBytes : Nat := 0x310007
/-- TierCBytes -/
def tierCBytes : Nat := 0x310008
/-- QuotaStalls -/
def quotaStalls : Nat := 0x310009
/-- TierACapacityBytes -/
def tierACapacityBytes : Nat := 0x300001
/-- TierBCapacityBytes -/
def tierBCapacityBytes : Nat := 0x300002
/-- TierCCapacityBytes -/
def tierCCapacityBytes : Nat := 0x300003
/-- TierAFreeBytes -/
def tierAFreeBytes : Nat := 0x300004
/-- TierBFreeBytes -/
def tierBFreeBytes : Nat := 0x300005
/-- TierCFreeBytes -/
def tierCFreeBytes : Nat := 0x300006
/-- MappedPages -/
def mappedPages : Nat := 0x300007
/-- TierABytesCluster -/
def tierABytesCluster : Nat := 0x300101
/-- ExtentDefine -/
def extentDefine : Nat := 0x301001
/-- ExtentRemove -/
def extentRemove : Nat := 0x301002
/-- ExtentSelect -/
def extentSelect : Nat := 0x301003
/-- ExtentRecord -/
def extentRecord : Nat := 0x301004
/-- PagePin -/
def pagePin : Nat := 0x301101
/-- PageFree -/
def pageFree : Nat := 0x301102
/-- StateSetCreate -/
def stateSetCreate : Nat := 0x350001
/-- StateSetDelete -/
def stateSetDelete : Nat := 0x350002
/-- StateSetAttach -/
def stateSetAttach : Nat := 0x350003
/-- CheckpointNow -/
def checkpointNow : Nat := 0x350004
/-- StateSetCount -/
def stateSetCount : Nat := 0x350005
/-- CheckpointsCommitted -/
def checkpointsCommitted : Nat := 0x350006
/-- CheckpointsSkipped -/
def checkpointsSkipped : Nat := 0x350007
/-- LastRecoveryMs -/
def lastRecoveryMs : Nat := 0x350008
/-- StateSetSelect -/
def stateSetSelect : Nat := 0x350009
/-- StateSetLastCommit -/
def stateSetLastCommit : Nat := 0x35000A
/-- StateSetBytes -/
def stateSetBytes : Nat := 0x35000B
/-- KvLayoutDefine -/
def kvLayoutDefine : Nat := 0x360001
/-- KvLayoutRemove -/
def kvLayoutRemove : Nat := 0x360002
/-- KvSeqCreate -/
def kvSeqCreate : Nat := 0x360003
/-- KvSeqDrop -/
def kvSeqDrop : Nat := 0x360004
/-- KvSeqSelect -/
def kvSeqSelect : Nat := 0x360005
/-- KvSeqLength -/
def kvSeqLength : Nat := 0x360006
/-- KvSeqSpans -/
def kvSeqSpans : Nat := 0x360007
/-- KvSequences -/
def kvSequences : Nat := 0x360008
/-- KvAppendedTokens -/
def kvAppendedTokens : Nat := 0x360009
/-- KvExpiredSkips -/
def kvExpiredSkips : Nat := 0x36000A
/-- KvUnsketchedScores -/
def kvUnsketchedScores : Nat := 0x36000B
/-- KvStaleSelections -/
def kvStaleSelections : Nat := 0x36000C
/-- KvSketchBytes -/
def kvSketchBytes : Nat := 0x36000D
/-- StateHandleBind -/
def stateHandleBind : Nat := 0x370001
/-- StateHandleRevoke -/
def stateHandleRevoke : Nat := 0x370002
/-- StateHandleSwap -/
def stateHandleSwap : Nat := 0x370003
/-- StateHandleSelect -/
def stateHandleSelect : Nat := 0x370004
/-- StateHandleStatus -/
def stateHandleStatus : Nat := 0x370005
/-- StateHandleSteps -/
def stateHandleSteps : Nat := 0x370006
/-- StateHandlesBound -/
def stateHandlesBound : Nat := 0x370007
/-- ForcedSwaps -/
def forcedSwaps : Nat := 0x370008
/-- ChunkStalls -/
def chunkStalls : Nat := 0x370009
/-- HandleRevokeFaults -/
def handleRevokeFaults : Nat := 0x37000A
/-- WalkerSkippedIndices -/
def walkerSkippedIndices : Nat := 0x470001
/-- WalkerReachRejects -/
def walkerReachRejects : Nat := 0x470002
/-- HaloBytesLocal -/
def haloBytesLocal : Nat := 0x470003
/-- HaloBytesRemote -/
def haloBytesRemote : Nat := 0x470004
/-- PitchState -/
def pitchState : Nat := 0x420001
/-- PitchTenant -/
def pitchTenant : Nat := 0x420002
/-- PitchCoreMask -/
def pitchCoreMask : Nat := 0x420003
/-- PitchPriority -/
def pitchPriority : Nat := 0x420004
/-- PitchCreditShares -/
def pitchCreditShares : Nat := 0x420005
/-- WatchdogUs -/
def watchdogUs : Nat := 0x420006
/-- DonationQuantumUs -/
def donationQuantumUs : Nat := 0x420007
/-- PitchRecord -/
def pitchRecord : Nat := 0x420008
/-- Teardowns -/
def teardowns : Nat := 0x420009
/-- LastFaultCode -/
def lastFaultCode : Nat := 0x42000A
/-- DonationsReceived -/
def donationsReceived : Nat := 0x42000B
/-- StaleNacks -/
def staleNacks : Nat := 0x42000C
/-- PitchCreate -/
def pitchCreate : Nat := 0x410001
/-- PitchStart -/
def pitchStart : Nat := 0x410002
/-- PitchRemove -/
def pitchRemove : Nat := 0x410003
/-- PegShare -/
def pegShare : Nat := 0x410004
/-- PegUnshare -/
def pegUnshare : Nat := 0x410005
/-- PitchesResident -/
def pitchesResident : Nat := 0x410006
/-- SlotsFree -/
def slotsFree : Nat := 0x410007
/-- TeardownLogCount -/
def teardownLogCount : Nat := 0x410008
/-- TeardownLogSelect -/
def teardownLogSelect : Nat := 0x410009
/-- TeardownRecord -/
def teardownRecord : Nat := 0x41000A
/-- StaleDeliveries -/
def staleDeliveries : Nat := 0x412001
/-- OrphanLogCount -/
def orphanLogCount : Nat := 0x412002
/-- OrphanSelect -/
def orphanSelect : Nat := 0x412003
/-- OrphanEntry -/
def orphanEntry : Nat := 0x412004
/-- PegOverflows -/
def pegOverflows : Nat := 0x412005
/-- EventOverflows -/
def eventOverflows : Nat := 0x412006
/-- EventsUnrouted -/
def eventsUnrouted : Nat := 0x412007
/-- PegSelect -/
def pegSelect : Nat := 0x412008
/-- PegStatus -/
def pegStatus : Nat := 0x412009
/-- PegStatusClear -/
def pegStatusClear : Nat := 0x41200A
/-- PortState -/
def portState : Nat := 0x500001
/-- PortEnable -/
def portEnable : Nat := 0x500002
/-- PortNeighbour -/
def portNeighbour : Nat := 0x500003
/-- PortUpCount -/
def portUpCount : Nat := 0x500004
/-- PortDownCount -/
def portDownCount : Nat := 0x500005
/-- CorrectedCodewords -/
def correctedCodewords : Nat := 0x500006
/-- UncorrectableCodewords -/
def uncorrectableCodewords : Nat := 0x500007
/-- ReplayedFlits -/
def replayedFlits : Nat := 0x500008
/-- TxFlits -/
def txFlits : Nat := 0x500009
/-- RxFlits -/
def rxFlits : Nat := 0x50000A
/-- FibreMetres -/
def fibreMetres : Nat := 0x50000B
/-- FabricDimX -/
def fabricDimX : Nat := 0x510001
/-- FabricDimY -/
def fabricDimY : Nat := 0x510002
/-- FabricDimZ -/
def fabricDimZ : Nat := 0x510003
/-- FabricCoord -/
def fabricCoord : Nat := 0x510004
/-- ModuleId -/
def moduleId : Nat := 0x510005
/-- EscapeWaitNs -/
def escapeWaitNs : Nat := 0x510006
/-- DetourPorts -/
def detourPorts : Nat := 0x510007
/-- DetourSwitches -/
def detourSwitches : Nat := 0x510008
/-- UnreachableNacks -/
def unreachableNacks : Nat := 0x510009
/-- Barriers -/
def barriers : Nat := 0x530001
/-- GlobalBroadcasts -/
def globalBroadcasts : Nat := 0x530002
/-- SnapshotStart -/
def snapshotStart : Nat := 0x530003
/-- SnapshotLastStamp -/
def snapshotLastStamp : Nat := 0x530004
/-- FabricReset -/
def fabricReset : Nat := 0x530005
/-- TenantFence -/
def tenantFence : Nat := 0x530006
/-- TenantFences -/
def tenantFences : Nat := 0x530007
/-- LastFenceNs -/
def lastFenceNs : Nat := 0x530008
/-- TimeRootEligible -/
def timeRootEligible : Nat := 0x540001
/-- TimeRootModule -/
def timeRootModule : Nat := 0x540002
/-- TimeParentPort -/
def timeParentPort : Nat := 0x540003
/-- TimeOffsetNs -/
def timeOffsetNs : Nat := 0x540004
/-- TimeLinkDelayNs -/
def timeLinkDelayNs : Nat := 0x540005
/-- TimeHoldovers -/
def timeHoldovers : Nat := 0x540006
/-- InboxEntries -/
def inboxEntries : Nat := 0x520001
/-- InboxEntryBytes -/
def inboxEntryBytes : Nat := 0x520002
/-- InboxOffsetCluster -/
def inboxOffsetCluster : Nat := 0x520003
/-- RemoteAccess -/
def remoteAccess : Nat := 0x520009
/-- InboxRefusals -/
def inboxRefusals : Nat := 0x52000A
/-- EventForwardDefine -/
def eventForwardDefine : Nat := 0x522001
/-- EventForwardRemove -/
def eventForwardRemove : Nat := 0x522002
/-- EventsForwarded -/
def eventsForwarded : Nat := 0x522003
/-- EventsForwardLost -/
def eventsForwardLost : Nat := 0x522004
/-- CollGroupDefine -/
def collGroupDefine : Nat := 0x550001
/-- CollGroupRemove -/
def collGroupRemove : Nat := 0x550002
/-- CollGroupState -/
def collGroupState : Nat := 0x550003
/-- CollNextSeq -/
def collNextSeq : Nat := 0x550004
/-- CollDepth -/
def collDepth : Nat := 0x550005
/-- CollMismatches -/
def collMismatches : Nat := 0x550006
/-- EncStreamAssign -/
def encStreamAssign : Nat := 0x560001
/-- EncStreamSelect -/
def encStreamSelect : Nat := 0x560002
/-- EncStreamOwner -/
def encStreamOwner : Nat := 0x560003
/-- EncClippedRows -/
def encClippedRows : Nat := 0x560004
/-- EncUnderflowedRows -/
def encUnderflowedRows : Nat := 0x560005
/-- EncReencodedRows -/
def encReencodedRows : Nat := 0x560006
/-- EncCountersClear -/
def encCountersClear : Nat := 0x560007
/-- PdmClockHz -/
def pdmClockHz : Nat := 0x700001
/-- PdmChannelEnable -/
def pdmChannelEnable : Nat := 0x700002
/-- TdmFrameRateHz -/
def tdmFrameRateHz : Nat := 0x700003
/-- TdmBoneSlot -/
def tdmBoneSlot : Nat := 0x700004
/-- TdmEchoSlots -/
def tdmEchoSlots : Nat := 0x700005
/-- ChannelSaturations -/
def channelSaturations : Nat := 0x700006
/-- ChannelTrim -/
def channelTrim : Nat := 0x701001
/-- BeamCoeffs -/
def beamCoeffs : Nat := 0x702001
/-- BeamEnable -/
def beamEnable : Nat := 0x702005
/-- RingAccessPitchMask -/
def ringAccessPitchMask : Nat := 0x703001
/-- RingValidFrom -/
def ringValidFrom : Nat := 0x703002
/-- RingRestarts -/
def ringRestarts : Nat := 0x703003
/-- LanternBrownouts -/
def lanternBrownouts : Nat := 0x703004
/-- LanternCluster0Retain -/
def lanternCluster0Retain : Nat := 0x703005
/-- VadThreshold -/
def vadThreshold : Nat := 0x704001
/-- VadAttackFrames -/
def vadAttackFrames : Nat := 0x704002
/-- VadHoldFrames -/
def vadHoldFrames : Nat := 0x704003
/-- KwsModelLoad -/
def kwsModelLoad : Nat := 0x705001
/-- KwsThreshold -/
def kwsThreshold : Nat := 0x705002
/-- KwsHoldMs -/
def kwsHoldMs : Nat := 0x705003
/-- KwsTriggers -/
def kwsTriggers : Nat := 0x705004
/-- KwsLastStamp -/
def kwsLastStamp : Nat := 0x705005
/-- WakeL2Pitch -/
def wakeL2Pitch : Nat := 0x706001
/-- WakeL3Pitch -/
def wakeL3Pitch : Nat := 0x706002
/-- WakeL4PitchMask -/
def wakeL4PitchMask : Nat := 0x706003
/-- WakeAdvanceLine -/
def wakeAdvanceLine : Nat := 0x706004
/-- WakeReleaseLine -/
def wakeReleaseLine : Nat := 0x706007
/-- WakeTimeoutMs -/
def wakeTimeoutMs : Nat := 0x70600A
/-- WakeLookBackMs -/
def wakeLookBackMs : Nat := 0x70600D
/-- WakeEarlyPower -/
def wakeEarlyPower : Nat := 0x70600E
/-- WakeDropGraceUs -/
def wakeDropGraceUs : Nat := 0x70600F
/-- WakeOutHoldMs -/
def wakeOutHoldMs : Nat := 0x706010
/-- WakeStage -/
def wakeStage : Nat := 0x706011
/-- WakeTimeouts -/
def wakeTimeouts : Nat := 0x706012
/-- WakeCount -/
def wakeCount : Nat := 0x706013
/-- StreamQueue -/
def streamQueue : Nat := 0x709001
/-- StreamPackets -/
def streamPackets : Nat := 0x709002
/-- GlimpseEnable -/
def glimpseEnable : Nat := 0x708001
/-- GlimpseWidth -/
def glimpseWidth : Nat := 0x708002
/-- GlimpseHeight -/
def glimpseHeight : Nat := 0x708003
/-- GlimpseFrameDiv -/
def glimpseFrameDiv : Nat := 0x708004
/-- GlimpseCellThreshold -/
def glimpseCellThreshold : Nat := 0x708005
/-- GlimpseScoreThreshold -/
def glimpseScoreThreshold : Nat := 0x708006
/-- GlimpseAction -/
def glimpseAction : Nat := 0x708007
/-- GlimpseLastScore -/
def glimpseLastScore : Nat := 0x708008
/-- PlaybackPitch -/
def playbackPitch : Nat := 0x70A001
/-- PlaybackCluster -/
def playbackCluster : Nat := 0x70A002
/-- PlaybackSramOffset -/
def playbackSramOffset : Nat := 0x70A003
/-- PlaybackBlocks -/
def playbackBlocks : Nat := 0x70A004
/-- PlaybackFillPeg -/
def playbackFillPeg : Nat := 0x70A005
/-- PlaybackEnable -/
def playbackEnable : Nat := 0x70A006
/-- PlaybackUnderruns -/
def playbackUnderruns : Nat := 0x70A007
/-- FusionWindowNs -/
def fusionWindowNs : Nat := 0x600001
/-- FramesStarted -/
def framesStarted : Nat := 0x600002
/-- LastFrameNo -/
def lastFrameNo : Nat := 0x600003
/-- PortLanes -/
def portLanes : Nat := 0x601001
/-- CamPortPriority -/
def camPortPriority : Nat := 0x601002
/-- CamPortEnable -/
def camPortEnable : Nat := 0x601003
/-- HeaderCorrected -/
def headerCorrected : Nat := 0x601004
/-- HeaderErrors -/
def headerErrors : Nat := 0x601005
/-- CrcErrors -/
def crcErrors : Nat := 0x601006
/-- LineLengthErrors -/
def lineLengthErrors : Nat := 0x601007
/-- OrphanLines -/
def orphanLines : Nat := 0x601008
/-- UnknownPackets -/
def unknownPackets : Nat := 0x601009
/-- LinesOverflowed -/
def linesOverflowed : Nat := 0x60100A
/-- FramesTruncated -/
def framesTruncated : Nat := 0x60100B
/-- CtxEnable -/
def ctxEnable : Nat := 0x610001
/-- CtxDataType -/
def ctxDataType : Nat := 0x610002
/-- CtxWidth -/
def ctxWidth : Nat := 0x610003
/-- CtxHeight -/
def ctxHeight : Nat := 0x610004
/-- CtxMosaic -/
def ctxMosaic : Nat := 0x610005
/-- CtxTuningSet -/
def ctxTuningSet : Nat := 0x610006
/-- CtxStageBypass -/
def ctxStageBypass : Nat := 0x610007
/-- FrameTimeoutUs -/
def frameTimeoutUs : Nat := 0x610008
/-- CscMode -/
def cscMode : Nat := 0x610009
/-- ExtraLines -/
def extraLines : Nat := 0x61000A
/-- DefectsCorrected -/
def defectsCorrected : Nat := 0x61000B
/-- FramesDelivered -/
def framesDelivered : Nat := 0x61000C
/-- FramesMarked -/
def framesMarked : Nat := 0x61000D
/-- OutEnable -/
def outEnable : Nat := 0x620001
/-- OutFormat -/
def outFormat : Nat := 0x620002
/-- OutQueue -/
def outQueue : Nat := 0x620003
/-- OutCrop -/
def outCrop : Nat := 0x620004
/-- OutSize -/
def outSize : Nat := 0x620005
/-- OutBandLines -/
def outBandLines : Nat := 0x620006
/-- OutNorm -/
def outNorm : Nat := 0x620007
/-- OutDrops -/
def outDrops : Nat := 0x620008
/-- XtalkKernels -/
def xtalkKernels : Nat := 0x630001
/-- GreenImbalanceLimit -/
def greenImbalanceLimit : Nat := 0x630002
/-- DefectList -/
def defectList : Nat := 0x630003
/-- DefectThreshold -/
def defectThreshold : Nat := 0x630004
/-- ShadingGrid -/
def shadingGrid : Nat := 0x630005
/-- NoiseStrength -/
def noiseStrength : Nat := 0x630006
/-- NoiseLimit -/
def noiseLimit : Nat := 0x630007
/-- ColourMatrix -/
def colourMatrix : Nat := 0x630008
/-- ToneLut -/
def toneLut : Nat := 0x630009
/-- CciBus0Hz -/
def cciBus0Hz : Nat := 0x640001
/-- CciBus1Hz -/
def cciBus1Hz : Nat := 0x640002
/-- CciTransfer -/
def cciTransfer : Nat := 0x640003
/-- CciResult -/
def cciResult : Nat := 0x640004
/-- CamResetN -/
def camResetN : Nat := 0x640005
/-- CamMclkHz -/
def camMclkHz : Nat := 0x640006
/-- CamFsyncPeriodNs -/
def camFsyncPeriodNs : Nat := 0x64000A
/-- CamFsyncOffsetNs -/
def camFsyncOffsetNs : Nat := 0x64000B
/-- CamFsyncEnable -/
def camFsyncEnable : Nat := 0x64000C
/-- ScrubPassHoursSystem -/
def scrubPassHoursSystem : Nat := 0x380001
/-- ScrubPassHoursS -/
def scrubPassHoursS : Nat := 0x380002
/-- ScrubPassHoursM -/
def scrubPassHoursM : Nat := 0x380003
/-- ScrubPassHoursL -/
def scrubPassHoursL : Nat := 0x380004
/-- ScrubPasses -/
def scrubPasses : Nat := 0x380005
/-- ScrubLateSlices -/
def scrubLateSlices : Nat := 0x380006
/-- SramSweepMs -/
def sramSweepMs : Nat := 0x380007
/-- CeWindowS -/
def ceWindowS : Nat := 0x380008
/-- CeBankThreshold -/
def ceBankThreshold : Nat := 0x380009
/-- CeBankSelect -/
def ceBankSelect : Nat := 0x38000A
/-- CeBankWindowCount -/
def ceBankWindowCount : Nat := 0x38000B
/-- CeBanksOverThreshold -/
def ceBanksOverThreshold : Nat := 0x38000C
/-- LpddrCorrected -/
def lpddrCorrected : Nat := 0x38000D
/-- LpddrUncorrectable -/
def lpddrUncorrectable : Nat := 0x38000E
/-- SramCorrected -/
def sramCorrected : Nat := 0x38000F
/-- SramUncorrectable -/
def sramUncorrectable : Nat := 0x380010
/-- PoisonReads -/
def poisonReads : Nat := 0x380011
/-- ClassGranules -/
def classGranules : Nat := 0x380012
/-- FaultLogCount -/
def faultLogCount : Nat := 0x390001
/-- FaultLogSelect -/
def faultLogSelect : Nat := 0x390002
/-- FaultLogEntry -/
def faultLogEntry : Nat := 0x390003
/-- FaultLogClear -/
def faultLogClear : Nat := 0x390004
/-- FaultLogOverwrites -/
def faultLogOverwrites : Nat := 0x390005
/-- FrameRetire -/
def frameRetire : Nat := 0x390006
/-- LpddrBankRetire -/
def lpddrBankRetire : Nat := 0x390007
/-- SramBankRetire -/
def sramBankRetire : Nat := 0x390008
/-- CoreRetire -/
def coreRetire : Nat := 0x390009
/-- FlashDieRetire -/
def flashDieRetire : Nat := 0x39000A
/-- RetiredFrames -/
def retiredFrames : Nat := 0x39000B
/-- RetirementList -/
def retirementList : Nat := 0x39000C
/-- RetireClear -/
def retireClear : Nat := 0x39000D
/-- ConfidentialMode -/
def confidentialMode : Nat := 0x800001
/-- DebugState -/
def debugState : Nat := 0x800002
/-- RollbackCounter -/
def rollbackCounter : Nat := 0x800003
/-- AttestRequest -/
def attestRequest : Nat := 0x800004
/-- AttestReport -/
def attestReport : Nat := 0x800005
/-- SessionOpen -/
def sessionOpen : Nat := 0x800006
/-- SessionClose -/
def sessionClose : Nat := 0x800007
/-- SessionLastId -/
def sessionLastId : Nat := 0x800008
/-- SessionIdleS -/
def sessionIdleS : Nat := 0x800009
/-- IdentityCertificate -/
def identityCertificate : Nat := 0x80000A
/-- KeyStoreLost -/
def keyStoreLost : Nat := 0x80000B
/-- ExpiryDrainUs -/
def expiryDrainUs : Nat := 0x80000C
/-- KeyEntriesFree -/
def keyEntriesFree : Nat := 0x80000D
/-- SessionRejects -/
def sessionRejects : Nat := 0x80000E
/-- DebugUnlock -/
def debugUnlock : Nat := 0x80000F
/-- RollbackAdvanceNow -/
def rollbackAdvanceNow : Nat := 0x800010
/-- KeyStoreBytes -/
def keyStoreBytes : Nat := 0x800011
/-- TenantCreate -/
def tenantCreate : Nat := 0x801001
/-- TenantRemove -/
def tenantRemove : Nat := 0x801002
/-- EpochExpire -/
def epochExpire : Nat := 0x801003
/-- RekeyStart -/
def rekeyStart : Nat := 0x801004
/-- KeyEntrySelect -/
def keyEntrySelect : Nat := 0x802001
/-- KeyEntry -/
def keyEntry : Nat := 0x802002
/-- TenantState -/
def tenantState : Nat := 0x810001
/-- TenantGeneration -/
def tenantGeneration : Nat := 0x810002
/-- RetentionDays -/
def retentionDays : Nat := 0x810003
/-- RollOffsetS -/
def rollOffsetS : Nat := 0x810004
/-- WriteEpoch -/
def writeEpoch : Nat := 0x810005
/-- OldestEpoch -/
def oldestEpoch : Nat := 0x810006
/-- KeyEntries -/
def keyEntries : Nat := 0x810007
/-- RekeyPagesLeft -/
def rekeyPagesLeft : Nat := 0x810008
/-- ExpiriesDone -/
def expiriesDone : Nat := 0x810009
/-- ExpiryCutReads -/
def expiryCutReads : Nat := 0x81000A
/-- ExpiredWrites -/
def expiredWrites : Nat := 0x81000B
/-- RollsDelayed -/
def rollsDelayed : Nat := 0x81000C
/-- TenantKeyDigest -/
def tenantKeyDigest : Nat := 0x81000D
/-- ExtentKeyClass -/
def extentKeyClass : Nat := 0x820001
/-- PowerState -/
def powerState : Nat := 0x200001
/-- PowerEntryMethod -/
def powerEntryMethod : Nat := 0x200002
/-- DozeConsent -/
def dozeConsent : Nat := 0x200003
/-- PowerCapMw -/
def powerCapMw : Nat := 0x200004
/-- InputPowerMw -/
def inputPowerMw : Nat := 0x200005
/-- CapEvents -/
def capEvents : Nat := 0x200006
/-- WakeAt -/
def wakeAt : Nat := 0x200007
/-- SaveAreaFaults -/
def saveAreaFaults : Nat := 0x200008
/-- ColdReturns -/
def coldReturns : Nat := 0x200009
/-- PowerFloor -/
def powerFloor : Nat := 0x20000A
/-- ResetPowerFloor -/
def resetPowerFloor : Nat := 0x20000B
/-- PowerStateRequest -/
def powerStateRequest : Nat := 0x210000
/-- CoreDivDefault -/
def coreDivDefault : Nat := 0x220001
/-- CoreDivSelect -/
def coreDivSelect : Nat := 0x220002
/-- CoreDivRequest -/
def coreDivRequest : Nat := 0x220003
/-- CoreDivInEffect -/
def coreDivInEffect : Nat := 0x220004
/-- JunctionTemp -/
def junctionTemp : Nat := 0x230001
/-- ThrottleC -/
def throttleC : Nat := 0x23000B
/-- ThermalThrottles -/
def thermalThrottles : Nat := 0x23000C
/-- ThermalTrips -/
def thermalTrips : Nat := 0x23000D
/-- PowerOnSeconds -/
def powerOnSeconds : Nat := 0x900001
/-- LanternSeconds -/
def lanternSeconds : Nat := 0x900002
/-- Starts -/
def starts : Nat := 0x900003
/-- IslandBrownouts -/
def islandBrownouts : Nat := 0x900004
/-- LanternBrownoutsLife -/
def lanternBrownoutsLife : Nat := 0x900005
/-- ThermalExcursions -/
def thermalExcursions : Nat := 0x900006
/-- ThermalTripsLife -/
def thermalTripsLife : Nat := 0x900007
/-- FlashBytesWritten -/
def flashBytesWritten : Nat := 0x900008
/-- FlashEraseMin -/
def flashEraseMin : Nat := 0x900009
/-- FlashEraseMean -/
def flashEraseMean : Nat := 0x90000A
/-- FlashEraseMax -/
def flashEraseMax : Nat := 0x90000B
/-- FlashBlocksRetired -/
def flashBlocksRetired : Nat := 0x90000C
/-- UpdatesApplied -/
def updatesApplied : Nat := 0x90000D
/-- TenantRemovals -/
def tenantRemovals : Nat := 0x90000E
/-- LifetimeCommits -/
def lifetimeCommits : Nat := 0x90000F
/-- LifetimeLastCommit -/
def lifetimeLastCommit : Nat := 0x900010
/-- LaserOnHours -/
def laserOnHours : Nat := 0x901001
/-- CeLifeBankSelect -/
def ceLifeBankSelect : Nat := 0x902001
/-- CeLifeBankCount -/
def ceLifeBankCount : Nat := 0x902002
/-- VendorName -/
def vendorName : Nat := 0x100001
/-- ProductName -/
def productName : Nat := 0x100002
/-- OrderingCode -/
def orderingCode : Nat := 0x100003
/-- DieSerial -/
def dieSerial : Nat := 0x100004
/-- DieRevision -/
def dieRevision : Nat := 0x100005
/-- FirmwareVersion -/
def firmwareVersion : Nat := 0x100006
/-- MacAddress -/
def macAddress : Nat := 0x100007
/-- UoaUdpPort -/
def uoaUdpPort : Nat := 0x102000
/-- PlcaNodeId -/
def plcaNodeId : Nat := 0x102101
/-- PlcaNodeCount -/
def plcaNodeCount : Nat := 0x102102
/-- PlcaToTimer -/
def plcaToTimer : Nat := 0x102103
/-- SegmentRole -/
def segmentRole : Nat := 0x102104
/-- SegmentHeartbeatMs -/
def segmentHeartbeatMs : Nat := 0x102105
/-- ProxyTimeoutMs -/
def proxyTimeoutMs : Nat := 0x102106
/-- SegmentMembers -/
def segmentMembers : Nat := 0x102107
/-- ManagerConflicts -/
def managerConflicts : Nat := 0x102108
/-- T1sFramesRx -/
def t1sFramesRx : Nat := 0x102109
/-- T1sFramesTx -/
def t1sFramesTx : Nat := 0x10210A
/-- T1sDiscarded -/
def t1sDiscarded : Nat := 0x10210B
/-- PlcaBeaconLosses -/
def plcaBeaconLosses : Nat := 0x10210C
/-- UoaRequests -/
def uoaRequests : Nat := 0x102201
/-- UoaRepeatsAnswered -/
def uoaRepeatsAnswered : Nat := 0x102202
/-- ProxyTimeouts -/
def proxyTimeouts : Nat := 0x102203
/-- RoleKeyInstall -/
def roleKeyInstall : Nat := 0x103001
/-- RoleKeyDigests -/
def roleKeyDigests : Nat := 0x103002
/-- VendorNonce -/
def vendorNonce : Nat := 0x103003
/-- RoleKeyReset -/
def roleKeyReset : Nat := 0x103004
/-- ProfileSelect -/
def profileSelect : Nat := 0x1F0000
/-- ProfileInForce -/
def profileInForce : Nat := 0x1F0100
/-- ProfileClusters -/
def profileClusters : Nat := 0x1F0200
/-- ProfileOptics -/
def profileOptics : Nat := 0x1F0300
/-- ProfileCapMw -/
def profileCapMw : Nat := 0x1F0400
/-- NvImage -/
def nvImage : Nat := 0x1F1001
/-- NvClearSection -/
def nvClearSection : Nat := 0x1F1002
/-- NvImageBytes -/
def nvImageBytes : Nat := 0x1F1003
/-- NvSequence -/
def nvSequence : Nat := 0x1F1004
/-- CalendarNow -/
def calendarNow : Nat := 0x910001
/-- CalendarSet -/
def calendarSet : Nat := 0x910002
/-- CalendarValid -/
def calendarValid : Nat := 0x910003
/-- CalendarMaxBackS -/
def calendarMaxBackS : Nat := 0x910004
/-- CalendarSets -/
def calendarSets : Nat := 0x910005
/-- Subscriptions -/
def subscriptions : Nat := 0x920001
/-- TelemetryDrops -/
def telemetryDrops : Nat := 0x920002
/-- UpdateState -/
def updateState : Nat := 0xA00001
/-- UpdateBegin -/
def updateBegin : Nat := 0xA00002
/-- UpdatePiece -/
def updatePiece : Nat := 0xA00003
/-- UpdatePieceBitmap -/
def updatePieceBitmap : Nat := 0xA00004
/-- UpdatePiecesTotal -/
def updatePiecesTotal : Nat := 0xA00005
/-- UpdatePiecesReceived -/
def updatePiecesReceived : Nat := 0xA00006
/-- UpdateDuplicatePieces -/
def updateDuplicatePieces : Nat := 0xA00007
/-- UpdateActivate -/
def updateActivate : Nat := 0xA00008
/-- UpdateCancel -/
def updateCancel : Nat := 0xA00009
/-- UpdateResult -/
def updateResult : Nat := 0xA0000A
/-- UpdateResultStamp -/
def updateResultStamp : Nat := 0xA0000B
/-- ActiveSlot -/
def activeSlot : Nat := 0xA0000C
/-- SlotVersionA -/
def slotVersionA : Nat := 0xA0000D
/-- SlotVersionB -/
def slotVersionB : Nat := 0xA0000E
/-- UpdateApplyAttempts -/
def updateApplyAttempts : Nat := 0xA0000F
/-- UpdateTargetDigest -/
def updateTargetDigest : Nat := 0xA00010
/-- LinkRates -/
def linkRates : Nat := 0xB00001
/-- Usb4Connects -/
def usb4Connects : Nat := 0xB00002
/-- MailboxDrops -/
def mailboxDrops : Nat := 0xB00003
/-- EventsLost -/
def eventsLost : Nat := 0xB00004
/-- HostDoorbellLine -/
def hostDoorbellLine : Nat := 0xB01001
/-- WindowPitch -/
def windowPitch : Nat := 0xB02001
/-- WindowErrors -/
def windowErrors : Nat := 0xB02002
/-- HostDmaPitch -/
def hostDmaPitch : Nat := 0xB03001
/-- HostPostLine -/
def hostPostLine : Nat := 0xB10001
/-- HostPostOffset -/
def hostPostOffset : Nat := 0xB10002

end Key

/-- Tags and sensor queues (R227, R243). -/
def objects04 : List ObjRow := [
  ⟨Key.tagsInUse, 1, 1, "TagsInUse", .u32, .ro, 0, 0, 4294967295, 1, [], 0⟩,
  ⟨Key.tagsHighWater, 1, 1, "TagsHighWater", .u32, .ro, 0, 0, 4294967295, 1, [], 0⟩,
  ⟨Key.tagWaits, 1, 1, "TagWaits", .u64, .ro, 0, 0, 18446744073709551615, 1, [], 0⟩,
  ⟨Key.flashTagLimit, 1, 1, "FlashTagLimit", .u32, .rw, 32768, 0, 77824, 1, [], 0⟩,
  ⟨Key.queueCluster, 32, 1, "QueueCluster", .u8, .rw, 0, 0, 5, 1, [], 0⟩,
  ⟨Key.queuePitch, 32, 1, "QueuePitch", .u8, .rw, 0, 0, 31, 1, [], 0⟩,
  ⟨Key.queueSramOffset, 32, 1, "QueueSramOffset", .u32, .rw, 0, 0, 16777215, 4096, [], 0⟩,
  ⟨Key.slotBytes, 32, 1, "SlotBytes", .u32, .rw, 4096, 128, 2097152, 64, [], 0⟩,
  ⟨Key.slotsPerBank, 32, 1, "SlotsPerBank", .u16, .rw, 4, 4, 256, 1, [], 0⟩,
  ⟨Key.staleTailNs, 32, 1, "StaleTailNs", .u32, .rw, 1000000, 1000, 1000000000, 1, [], 0⟩,
  ⟨Key.queueEnable, 32, 1, "QueueEnable", .bool, .rw, 0, 0, 1, 1, [], 0⟩,
  ⟨Key.lostPackets, 32, 1, "LostPackets", .u32, .ro, 0, 0, 4294967295, 1, [], 0⟩,
  ⟨Key.flushedPackets, 32, 1, "FlushedPackets", .u32, .ro, 0, 0, 4294967295, 1, [], 0⟩,
  ⟨Key.rewoundPackets, 32, 1, "RewoundPackets", .u32, .ro, 0, 0, 4294967295, 1, [], 0⟩]

/-- State memory (R273, R299, R302, R303, R311). -/
def objects05a : List ObjRow := [
  ⟨Key.heatPeriodAUs, 1, 1, "HeatPeriodAUs", .u32, .rw, 1000, 100, 100000, 1, [], 0⟩,
  ⟨Key.heatPeriodBCUs, 1, 1, "HeatPeriodBCUs", .u32, .rw, 1000000, 10000, 100000000, 1, [], 0⟩,
  ⟨Key.promoteBA, 1, 1, "PromoteBA", .u8, .rw, 64, 1, 255, 1, [], 0⟩,
  ⟨Key.demoteAB, 1, 1, "DemoteAB", .u8, .rw, 8, 0, 255, 1, [], 0⟩,
  ⟨Key.promoteCB, 1, 1, "PromoteCB", .u8, .rw, 2, 1, 255, 1, [], 0⟩,
  ⟨Key.demoteBC, 1, 1, "DemoteBC", .u8, .rw, 0, 0, 255, 1, [], 0⟩,
  ⟨Key.tierALowWaterPct, 1, 1, "TierALowWaterPct", .u8, .rw, 5, 0, 50, 1, [], 0⟩,
  ⟨Key.tierBLowWaterPct, 1, 1, "TierBLowWaterPct", .u8, .rw, 10, 1, 50, 1, [], 0⟩,
  ⟨Key.tierBHighWaterPct, 1, 1, "TierBHighWaterPct", .u8, .rw, 15, 2, 60, 1, [], 0⟩,
  ⟨Key.migrationBandwidthPct, 1, 1, "MigrationBandwidthPct", .u8, .rw, 20, 5, 100, 1, [], 0⟩,
  ⟨Key.promotions, 1, 1, "Promotions", .u64, .ro, 0, 0, 18446744073709551615, 1, [], 0⟩,
  ⟨Key.demotions, 1, 1, "Demotions", .u64, .ro, 0, 0, 18446744073709551615, 1, [], 0⟩,
  ⟨Key.migrationAborts, 1, 1, "MigrationAborts", .u64, .ro, 0, 0, 18446744073709551615, 1, [], 0⟩,
  ⟨Key.lpddrRawBytes, 1, 1, "LpddrRawBytes", .u64, .ro, 0, 0, 18446744073709551615, 1, [], 0⟩,
  ⟨Key.systemRegionBytes, 1, 1, "SystemRegionBytes", .u64, .ro, 0, 0, 18446744073709551615, 1, [], 0⟩,
  ⟨Key.lpddrReadBytes, 1, 1, "LpddrReadBytes", .u64, .ro, 0, 0, 18446744073709551615, 1, [], 0⟩,
  ⟨Key.lpddrWriteBytes, 1, 1, "LpddrWriteBytes", .u64, .ro, 0, 0, 18446744073709551615, 1, [], 0⟩,
  ⟨Key.selfRefreshEntries, 1, 1, "SelfRefreshEntries", .u32, .ro, 0, 0, 4294967295, 1, [], 0⟩,
  ⟨Key.flashDailyBudget, 1, 1, "FlashDailyBudget", .u64, .rw, 2300000000000, 1000000000, 9200000000000, 1, [], 0⟩,
  ⟨Key.flashBudgetBalanceMB, 1, 1, "FlashBudgetBalanceMB", .i32, .ro, 0, 0, 4294967295, 1, [], 0⟩,
  ⟨Key.flashBytesToday, 1, 1, "FlashBytesToday", .u64, .ro, 0, 0, 18446744073709551615, 1, [], 0⟩,
  ⟨Key.flashBudgetExhausted, 1, 1, "FlashBudgetExhausted", .u32, .ro, 0, 0, 4294967295, 1, [], 0⟩,
  ⟨Key.flashDirectReads, 1, 1, "FlashDirectReads", .u64, .ro, 0, 0, 18446744073709551615, 1, [], 0⟩,
  ⟨Key.flashReadRetries, 1, 1, "FlashReadRetries", .u64, .ro, 0, 0, 18446744073709551615, 1, [], 0⟩,
  ⟨Key.flashReadFails, 1, 1, "FlashReadFails", .u32, .ro, 0, 0, 4294967295, 1, [], 0⟩,
  ⟨Key.flashOpenStreams, 1, 1, "FlashOpenStreams", .u8, .ro, 0, 0, 255, 1, [], 0⟩,
  ⟨Key.flashGcBytes, 1, 1, "FlashGcBytes", .u64, .ro, 0, 0, 18446744073709551615, 1, [], 0⟩,
  ⟨Key.stateQuotaBytes, 32, 1, "StateQuotaBytes", .u64, .rw, 0, 0, 18446744073709551615, 1, [], 0⟩,
  ⟨Key.tierALimitBytes, 32, 1, "TierALimitBytes", .u32, .rw, 4194304, 0, 4294967295, 1048576, [], 0⟩,
  ⟨Key.quotaPolicy, 32, 1, "QuotaPolicy", .u8, .rw, 0, 0, 2, 1, [], 0⟩]

/-- State memory (R273, R299, R302, R303, R311). -/
def objects05b : List ObjRow := [
  ⟨Key.quotaStallUs, 32, 1, "QuotaStallUs", .u32, .rw, 100000, 1, 10000000, 1, [], 0⟩,
  ⟨Key.mappedBytes, 32, 1, "MappedBytes", .u64, .ro, 0, 0, 18446744073709551615, 1, [], 0⟩,
  ⟨Key.tierABytes, 32, 1, "TierABytes", .u64, .ro, 0, 0, 18446744073709551615, 1, [], 0⟩,
  ⟨Key.tierBBytes, 32, 1, "TierBBytes", .u64, .ro, 0, 0, 18446744073709551615, 1, [], 0⟩,
  ⟨Key.tierCBytes, 32, 1, "TierCBytes", .u64, .ro, 0, 0, 18446744073709551615, 1, [], 0⟩,
  ⟨Key.quotaStalls, 32, 1, "QuotaStalls", .u32, .ro, 0, 0, 4294967295, 1, [], 0⟩,
  ⟨Key.tierACapacityBytes, 1, 1, "TierACapacityBytes", .u64, .ro, 0, 0, 18446744073709551615, 1, [], 0⟩,
  ⟨Key.tierBCapacityBytes, 1, 1, "TierBCapacityBytes", .u64, .ro, 0, 0, 18446744073709551615, 1, [], 0⟩,
  ⟨Key.tierCCapacityBytes, 1, 1, "TierCCapacityBytes", .u64, .ro, 0, 0, 18446744073709551615, 1, [], 0⟩,
  ⟨Key.tierAFreeBytes, 1, 1, "TierAFreeBytes", .u64, .ro, 0, 0, 18446744073709551615, 1, [], 0⟩,
  ⟨Key.tierBFreeBytes, 1, 1, "TierBFreeBytes", .u64, .ro, 0, 0, 18446744073709551615, 1, [], 0⟩,
  ⟨Key.tierCFreeBytes, 1, 1, "TierCFreeBytes", .u64, .ro, 0, 0, 18446744073709551615, 1, [], 0⟩,
  ⟨Key.mappedPages, 1, 1, "MappedPages", .u32, .ro, 0, 0, 4294967295, 1, [], 0⟩,
  ⟨Key.tierABytesCluster, 1, 6, "TierABytesCluster", .u32, .rws, 8388608, 0, 4294967295, 1, [], 0⟩,
  ⟨Key.extentDefine, 1, 1, "ExtentDefine", .domain, .cmd, 0, 0, 0, 1, [], 32⟩,
  ⟨Key.extentRemove, 1, 1, "ExtentRemove", .u16, .cmd, 0, 0, 65535, 1, [], 0⟩,
  ⟨Key.extentSelect, 1, 1, "ExtentSelect", .u16, .rw, 0, 0, 65535, 1, [], 0⟩,
  ⟨Key.extentRecord, 1, 1, "ExtentRecord", .domain, .ro, 0, 0, 0, 1, [], 0⟩,
  ⟨Key.pagePin, 1, 1, "PagePin", .domain, .cmd, 0, 0, 0, 1, [], 24⟩,
  ⟨Key.pageFree, 1, 1, "PageFree", .domain, .cmd, 0, 0, 0, 1, [], 24⟩,
  ⟨Key.stateSetCreate, 1, 1, "StateSetCreate", .domain, .cmd, 0, 0, 0, 1, [], 16⟩,
  ⟨Key.stateSetDelete, 1, 1, "StateSetDelete", .u32, .cmd, 0, 0, 4294967295, 1, [], 0⟩,
  ⟨Key.stateSetAttach, 1, 1, "StateSetAttach", .domain, .cmd, 0, 0, 0, 1, [], 8⟩,
  ⟨Key.checkpointNow, 1, 1, "CheckpointNow", .u32, .cmd, 0, 0, 4294967295, 1, [], 0⟩,
  ⟨Key.stateSetCount, 1, 1, "StateSetCount", .u16, .ro, 0, 0, 65535, 1, [], 0⟩,
  ⟨Key.checkpointsCommitted, 1, 1, "CheckpointsCommitted", .u64, .ro, 0, 0, 18446744073709551615, 1, [], 0⟩,
  ⟨Key.checkpointsSkipped, 1, 1, "CheckpointsSkipped", .u32, .ro, 0, 0, 4294967295, 1, [], 0⟩,
  ⟨Key.lastRecoveryMs, 1, 1, "LastRecoveryMs", .u32, .ro, 0, 0, 4294967295, 1, [], 0⟩,
  ⟨Key.stateSetSelect, 1, 1, "StateSetSelect", .u32, .rw, 0, 0, 4294967295, 1, [], 0⟩,
  ⟨Key.stateSetLastCommit, 1, 1, "StateSetLastCommit", .time64, .ro, 0, 0, 18446744073709551615, 1, [], 0⟩]

/-- State memory (R273, R299, R302, R303, R311). -/
def objects05c : List ObjRow := [
  ⟨Key.stateSetBytes, 1, 1, "StateSetBytes", .u64, .ro, 0, 0, 18446744073709551615, 1, [], 0⟩]

/-- Key/value store (R378). -/
def objects06 : List ObjRow := [
  ⟨Key.kvLayoutDefine, 1, 1, "KvLayoutDefine", .domain, .cmd, 0, 0, 0, 1, [], 32⟩,
  ⟨Key.kvLayoutRemove, 1, 1, "KvLayoutRemove", .u16, .cmd, 0, 0, 65535, 1, [], 0⟩,
  ⟨Key.kvSeqCreate, 1, 1, "KvSeqCreate", .domain, .cmd, 0, 0, 0, 1, [], 8⟩,
  ⟨Key.kvSeqDrop, 1, 1, "KvSeqDrop", .domain, .cmd, 0, 0, 0, 1, [], 8⟩,
  ⟨Key.kvSeqSelect, 1, 1, "KvSeqSelect", .u32, .rw, 0, 0, 4294967295, 1, [], 0⟩,
  ⟨Key.kvSeqLength, 1, 1, "KvSeqLength", .u32, .ro, 0, 0, 4294967295, 1, [], 0⟩,
  ⟨Key.kvSeqSpans, 1, 1, "KvSeqSpans", .u32, .ro, 0, 0, 4294967295, 1, [], 0⟩,
  ⟨Key.kvSequences, 1, 1, "KvSequences", .u32, .ro, 0, 0, 4294967295, 1, [], 0⟩,
  ⟨Key.kvAppendedTokens, 1, 1, "KvAppendedTokens", .u64, .ro, 0, 0, 18446744073709551615, 1, [], 0⟩,
  ⟨Key.kvExpiredSkips, 1, 1, "KvExpiredSkips", .u64, .ro, 0, 0, 18446744073709551615, 1, [], 0⟩,
  ⟨Key.kvUnsketchedScores, 1, 1, "KvUnsketchedScores", .u64, .ro, 0, 0, 18446744073709551615, 1, [], 0⟩,
  ⟨Key.kvStaleSelections, 1, 1, "KvStaleSelections", .u64, .ro, 0, 0, 18446744073709551615, 1, [], 0⟩,
  ⟨Key.kvSketchBytes, 1, 1, "KvSketchBytes", .u64, .ro, 0, 0, 18446744073709551615, 1, [], 0⟩]

/-- State handles (R413). -/
def objects07 : List ObjRow := [
  ⟨Key.stateHandleBind, 1, 1, "StateHandleBind", .domain, .cmd, 0, 0, 0, 1, [], 16⟩,
  ⟨Key.stateHandleRevoke, 1, 1, "StateHandleRevoke", .u16, .cmd, 0, 0, 65535, 1, [], 0⟩,
  ⟨Key.stateHandleSwap, 1, 1, "StateHandleSwap", .domain, .cmd, 0, 0, 0, 1, [], 16⟩,
  ⟨Key.stateHandleSelect, 1, 1, "StateHandleSelect", .u16, .rw, 0, 0, 4095, 1, [], 0⟩,
  ⟨Key.stateHandleStatus, 1, 1, "StateHandleStatus", .u32, .ro, 0, 0, 4294967295, 1, [], 0⟩,
  ⟨Key.stateHandleSteps, 1, 1, "StateHandleSteps", .u64, .ro, 0, 0, 18446744073709551615, 1, [], 0⟩,
  ⟨Key.stateHandlesBound, 1, 1, "StateHandlesBound", .u16, .ro, 0, 0, 65535, 1, [], 0⟩,
  ⟨Key.forcedSwaps, 1, 1, "ForcedSwaps", .u32, .ro, 0, 0, 4294967295, 1, [], 0⟩,
  ⟨Key.chunkStalls, 1, 1, "ChunkStalls", .u64, .ro, 0, 0, 18446744073709551615, 1, [], 0⟩,
  ⟨Key.handleRevokeFaults, 1, 1, "HandleRevokeFaults", .u32, .ro, 0, 0, 4294967295, 1, [], 0⟩]

/-- Windows (R450). -/
def objects08 : List ObjRow := [
  ⟨Key.walkerSkippedIndices, 1, 1, "WalkerSkippedIndices", .u64, .ro, 0, 0, 18446744073709551615, 1, [], 0⟩,
  ⟨Key.walkerReachRejects, 1, 1, "WalkerReachRejects", .u64, .ro, 0, 0, 18446744073709551615, 1, [], 0⟩,
  ⟨Key.haloBytesLocal, 1, 1, "HaloBytesLocal", .u64, .ro, 0, 0, 18446744073709551615, 1, [], 0⟩,
  ⟨Key.haloBytesRemote, 1, 1, "HaloBytesRemote", .u64, .ro, 0, 0, 18446744073709551615, 1, [], 0⟩]

/-- Pitches and clusters (R493 to R495). -/
def objects09a : List ObjRow := [
  ⟨Key.pitchState, 32, 1, "PitchState", .u8, .ro, 0, 0, 255, 1, [], 0⟩,
  ⟨Key.pitchTenant, 32, 1, "PitchTenant", .u16, .ro, 0, 0, 65535, 1, [], 0⟩,
  ⟨Key.pitchCoreMask, 32, 1, "PitchCoreMask", .u64, .ro, 0, 0, 18446744073709551615, 1, [], 0⟩,
  ⟨Key.pitchPriority, 32, 1, "PitchPriority", .u8, .rw, 0, 0, 7, 1, [], 0⟩,
  ⟨Key.pitchCreditShares, 32, 1, "PitchCreditShares", .u32, .ro, 0, 0, 4294967295, 1, [], 0⟩,
  ⟨Key.watchdogUs, 32, 1, "WatchdogUs", .u32, .rw, 1000000, 10, 60000000, 1, [0], 0⟩,
  ⟨Key.donationQuantumUs, 32, 1, "DonationQuantumUs", .u32, .rw, 200, 10, 100000, 1, [], 0⟩,
  ⟨Key.pitchRecord, 32, 1, "PitchRecord", .domain, .ro, 0, 0, 0, 1, [], 0⟩,
  ⟨Key.teardowns, 32, 1, "Teardowns", .u32, .ro, 0, 0, 4294967295, 1, [], 0⟩,
  ⟨Key.lastFaultCode, 32, 1, "LastFaultCode", .u8, .ro, 0, 0, 255, 1, [], 0⟩,
  ⟨Key.donationsReceived, 32, 1, "DonationsReceived", .u32, .ro, 0, 0, 4294967295, 1, [], 0⟩,
  ⟨Key.staleNacks, 32, 1, "StaleNacks", .u32, .ro, 0, 0, 4294967295, 1, [], 0⟩,
  ⟨Key.pitchCreate, 1, 1, "PitchCreate", .domain, .cmd, 0, 0, 0, 1, [], 128⟩,
  ⟨Key.pitchStart, 1, 1, "PitchStart", .u8, .cmd, 0, 0, 255, 1, [], 0⟩,
  ⟨Key.pitchRemove, 1, 1, "PitchRemove", .u8, .cmd, 0, 0, 255, 1, [], 0⟩,
  ⟨Key.pegShare, 1, 1, "PegShare", .domain, .cmd, 0, 0, 0, 1, [], 8⟩,
  ⟨Key.pegUnshare, 1, 1, "PegUnshare", .domain, .cmd, 0, 0, 0, 1, [], 8⟩,
  ⟨Key.pitchesResident, 1, 1, "PitchesResident", .u8, .ro, 0, 0, 255, 1, [], 0⟩,
  ⟨Key.slotsFree, 1, 1, "SlotsFree", .u8, .ro, 192, 0, 255, 1, [], 0⟩,
  ⟨Key.teardownLogCount, 1, 1, "TeardownLogCount", .u32, .ro, 0, 0, 4294967295, 1, [], 0⟩,
  ⟨Key.teardownLogSelect, 1, 1, "TeardownLogSelect", .u8, .rw, 0, 0, 255, 1, [], 0⟩,
  ⟨Key.teardownRecord, 1, 1, "TeardownRecord", .domain, .ro, 0, 0, 0, 1, [], 32⟩,
  ⟨Key.staleDeliveries, 6, 1, "StaleDeliveries", .u64, .ro, 0, 0, 18446744073709551615, 1, [], 0⟩,
  ⟨Key.orphanLogCount, 6, 1, "OrphanLogCount", .u32, .ro, 0, 0, 4294967295, 1, [], 0⟩,
  ⟨Key.orphanSelect, 6, 1, "OrphanSelect", .u8, .rw, 0, 0, 63, 1, [], 0⟩,
  ⟨Key.orphanEntry, 6, 1, "OrphanEntry", .domain, .ro, 0, 0, 0, 1, [], 32⟩,
  ⟨Key.pegOverflows, 6, 1, "PegOverflows", .u32, .ro, 0, 0, 4294967295, 1, [], 0⟩,
  ⟨Key.eventOverflows, 6, 1, "EventOverflows", .u32, .ro, 0, 0, 4294967295, 1, [], 0⟩,
  ⟨Key.eventsUnrouted, 6, 1, "EventsUnrouted", .u64, .ro, 0, 0, 18446744073709551615, 1, [], 0⟩,
  ⟨Key.pegSelect, 6, 1, "PegSelect", .u16, .rw, 0, 0, 1023, 1, [], 0⟩]

/-- Pitches and clusters (R493 to R495). -/
def objects09b : List ObjRow := [
  ⟨Key.pegStatus, 6, 1, "PegStatus", .u32, .ro, 0, 0, 4294967295, 1, [], 0⟩,
  ⟨Key.pegStatusClear, 6, 1, "PegStatusClear", .u16, .cmd, 0, 0, 65535, 1, [], 0⟩]

/-- Fabric (R560 to R564). -/
def objects10a : List ObjRow := [
  ⟨Key.portState, 6, 1, "PortState", .u8, .ro, 0, 0, 255, 1, [], 0⟩,
  ⟨Key.portEnable, 6, 1, "PortEnable", .bool, .rw, 0, 0, 1, 1, [], 0⟩,
  ⟨Key.portNeighbour, 6, 1, "PortNeighbour", .u16, .ro, 0, 0, 65535, 1, [], 0⟩,
  ⟨Key.portUpCount, 6, 1, "PortUpCount", .u32, .ro, 0, 0, 4294967295, 1, [], 0⟩,
  ⟨Key.portDownCount, 6, 1, "PortDownCount", .u32, .ro, 0, 0, 4294967295, 1, [], 0⟩,
  ⟨Key.correctedCodewords, 6, 1, "CorrectedCodewords", .u64, .ro, 0, 0, 18446744073709551615, 1, [], 0⟩,
  ⟨Key.uncorrectableCodewords, 6, 1, "UncorrectableCodewords", .u64, .ro, 0, 0, 18446744073709551615, 1, [], 0⟩,
  ⟨Key.replayedFlits, 6, 1, "ReplayedFlits", .u64, .ro, 0, 0, 18446744073709551615, 1, [], 0⟩,
  ⟨Key.txFlits, 6, 1, "TxFlits", .u64, .ro, 0, 0, 18446744073709551615, 1, [], 0⟩,
  ⟨Key.rxFlits, 6, 1, "RxFlits", .u64, .ro, 0, 0, 18446744073709551615, 1, [], 0⟩,
  ⟨Key.fibreMetres, 6, 1, "FibreMetres", .u16, .ro, 0, 0, 65535, 1, [], 0⟩,
  ⟨Key.fabricDimX, 1, 1, "FabricDimX", .u8, .rws, 1, 1, 32, 1, [], 0⟩,
  ⟨Key.fabricDimY, 1, 1, "FabricDimY", .u8, .rws, 1, 1, 32, 1, [], 0⟩,
  ⟨Key.fabricDimZ, 1, 1, "FabricDimZ", .u8, .rws, 1, 1, 32, 1, [], 0⟩,
  ⟨Key.fabricCoord, 1, 1, "FabricCoord", .u16, .rws, 0, 0, 32767, 1, [], 0⟩,
  ⟨Key.moduleId, 1, 1, "ModuleId", .u16, .ro, 0, 0, 65535, 1, [], 0⟩,
  ⟨Key.escapeWaitNs, 1, 1, "EscapeWaitNs", .u16, .rw, 200, 50, 5000, 1, [], 0⟩,
  ⟨Key.detourPorts, 1, 1, "DetourPorts", .u8, .ro, 0, 0, 255, 1, [], 0⟩,
  ⟨Key.detourSwitches, 1, 1, "DetourSwitches", .u32, .ro, 0, 0, 4294967295, 1, [], 0⟩,
  ⟨Key.unreachableNacks, 1, 1, "UnreachableNacks", .u32, .ro, 0, 0, 4294967295, 1, [], 0⟩,
  ⟨Key.barriers, 1, 1, "Barriers", .u64, .ro, 0, 0, 18446744073709551615, 1, [], 0⟩,
  ⟨Key.globalBroadcasts, 1, 1, "GlobalBroadcasts", .u64, .ro, 0, 0, 18446744073709551615, 1, [], 0⟩,
  ⟨Key.snapshotStart, 1, 1, "SnapshotStart", .domain, .cmd, 0, 0, 0, 1, [], 8⟩,
  ⟨Key.snapshotLastStamp, 1, 1, "SnapshotLastStamp", .time64, .ro, 0, 0, 18446744073709551615, 1, [], 0⟩,
  ⟨Key.fabricReset, 1, 1, "FabricReset", .bool, .cmd, 0, 0, 1, 1, [], 0⟩,
  ⟨Key.tenantFence, 1, 1, "TenantFence", .domain, .cmd, 0, 0, 0, 1, [], 8⟩,
  ⟨Key.tenantFences, 1, 1, "TenantFences", .u32, .ro, 0, 0, 4294967295, 1, [], 0⟩,
  ⟨Key.lastFenceNs, 1, 1, "LastFenceNs", .u32, .ro, 0, 0, 4294967295, 1, [], 0⟩,
  ⟨Key.timeRootEligible, 1, 1, "TimeRootEligible", .bool, .rw, 1, 0, 1, 1, [], 0⟩,
  ⟨Key.timeRootModule, 1, 1, "TimeRootModule", .u16, .ro, 0, 0, 65535, 1, [], 0⟩]

/-- Fabric (R560 to R564). -/
def objects10b : List ObjRow := [
  ⟨Key.timeParentPort, 1, 1, "TimeParentPort", .u8, .ro, 7, 0, 255, 1, [], 0⟩,
  ⟨Key.timeOffsetNs, 1, 1, "TimeOffsetNs", .i32, .ro, 0, 0, 4294967295, 1, [], 0⟩,
  ⟨Key.timeLinkDelayNs, 1, 1, "TimeLinkDelayNs", .u32, .ro, 0, 0, 4294967295, 1, [], 0⟩,
  ⟨Key.timeHoldovers, 1, 1, "TimeHoldovers", .u32, .ro, 0, 0, 4294967295, 1, [], 0⟩,
  ⟨Key.inboxEntries, 32, 1, "InboxEntries", .u8, .rw, 0, 0, 64, 1, [], 0⟩,
  ⟨Key.inboxEntryBytes, 32, 1, "InboxEntryBytes", .u16, .rw, 4160, 128, 4160, 64, [], 0⟩,
  ⟨Key.inboxOffsetCluster, 32, 6, "InboxOffsetCluster", .u32, .rw, 0, 0, 16777215, 64, [], 0⟩,
  ⟨Key.remoteAccess, 32, 1, "RemoteAccess", .u8, .rw, 3, 0, 3, 1, [], 0⟩,
  ⟨Key.inboxRefusals, 32, 1, "InboxRefusals", .u32, .ro, 0, 0, 4294967295, 1, [], 0⟩,
  ⟨Key.eventForwardDefine, 6, 1, "EventForwardDefine", .domain, .cmd, 0, 0, 0, 1, [], 8⟩,
  ⟨Key.eventForwardRemove, 6, 1, "EventForwardRemove", .u8, .cmd, 0, 0, 255, 1, [], 0⟩,
  ⟨Key.eventsForwarded, 6, 1, "EventsForwarded", .u64, .ro, 0, 0, 18446744073709551615, 1, [], 0⟩,
  ⟨Key.eventsForwardLost, 6, 1, "EventsForwardLost", .u32, .ro, 0, 0, 4294967295, 1, [], 0⟩,
  ⟨Key.collGroupDefine, 64, 1, "CollGroupDefine", .domain, .cmd, 0, 0, 0, 1, [], 16⟩,
  ⟨Key.collGroupRemove, 64, 1, "CollGroupRemove", .bool, .cmd, 0, 0, 1, 1, [], 0⟩,
  ⟨Key.collGroupState, 64, 1, "CollGroupState", .u8, .ro, 0, 0, 255, 1, [], 0⟩,
  ⟨Key.collNextSeq, 64, 1, "CollNextSeq", .u16, .ro, 0, 0, 65535, 1, [], 0⟩,
  ⟨Key.collDepth, 64, 1, "CollDepth", .u8, .ro, 0, 0, 255, 1, [], 0⟩,
  ⟨Key.collMismatches, 64, 1, "CollMismatches", .u32, .ro, 0, 0, 4294967295, 1, [], 0⟩,
  ⟨Key.encStreamAssign, 1, 1, "EncStreamAssign", .domain, .cmd, 0, 0, 0, 1, [], 4⟩,
  ⟨Key.encStreamSelect, 1, 1, "EncStreamSelect", .u8, .rw, 0, 0, 63, 1, [], 0⟩,
  ⟨Key.encStreamOwner, 1, 1, "EncStreamOwner", .u8, .ro, 255, 0, 255, 1, [], 0⟩,
  ⟨Key.encClippedRows, 1, 1, "EncClippedRows", .u32, .ro, 0, 0, 4294967295, 1, [], 0⟩,
  ⟨Key.encUnderflowedRows, 1, 1, "EncUnderflowedRows", .u32, .ro, 0, 0, 4294967295, 1, [], 0⟩,
  ⟨Key.encReencodedRows, 1, 1, "EncReencodedRows", .u32, .ro, 0, 0, 4294967295, 1, [], 0⟩,
  ⟨Key.encCountersClear, 1, 1, "EncCountersClear", .u8, .cmd, 0, 0, 255, 1, [], 0⟩]

/-- Listening (R602 to R604). -/
def objects11a : List ObjRow := [
  ⟨Key.pdmClockHz, 1, 1, "PdmClockHz", .u32, .rws, 3072000, 1, 0, 1, [4096000, 3072000, 2048000, 1024000], 0⟩,
  ⟨Key.pdmChannelEnable, 1, 1, "PdmChannelEnable", .u16, .rw, 65535, 0, 65535, 1, [], 0⟩,
  ⟨Key.tdmFrameRateHz, 1, 1, "TdmFrameRateHz", .u32, .rws, 16000, 1, 0, 1, [16000, 48000], 0⟩,
  ⟨Key.tdmBoneSlot, 1, 1, "TdmBoneSlot", .u8, .rw, 0, 0, 7, 1, [255], 0⟩,
  ⟨Key.tdmEchoSlots, 1, 1, "TdmEchoSlots", .u8, .rw, 192, 0, 255, 1, [], 0⟩,
  ⟨Key.channelSaturations, 1, 1, "ChannelSaturations", .u32, .ro, 0, 0, 4294967295, 1, [], 0⟩,
  ⟨Key.channelTrim, 1, 24, "ChannelTrim", .u16, .rw, 0, 0, 511, 1, [], 0⟩,
  ⟨Key.beamCoeffs, 1, 4, "BeamCoeffs", .domain, .rw, 0, 0, 0, 1, [], 992⟩,
  ⟨Key.beamEnable, 1, 1, "BeamEnable", .u8, .rw, 0, 0, 15, 1, [], 0⟩,
  ⟨Key.ringAccessPitchMask, 1, 1, "RingAccessPitchMask", .u32, .rw, 0, 0, 4294967295, 1, [], 0⟩,
  ⟨Key.ringValidFrom, 1, 1, "RingValidFrom", .time64, .ro, 0, 0, 18446744073709551615, 1, [], 0⟩,
  ⟨Key.ringRestarts, 1, 1, "RingRestarts", .u32, .ro, 0, 0, 4294967295, 1, [], 0⟩,
  ⟨Key.lanternBrownouts, 1, 1, "LanternBrownouts", .u32, .ro, 0, 0, 4294967295, 1, [], 0⟩,
  ⟨Key.lanternCluster0Retain, 1, 1, "LanternCluster0Retain", .bool, .rw, 0, 0, 1, 1, [], 0⟩,
  ⟨Key.vadThreshold, 1, 1, "VadThreshold", .u8, .rw, 96, 0, 255, 1, [], 0⟩,
  ⟨Key.vadAttackFrames, 1, 1, "VadAttackFrames", .u8, .rw, 2, 1, 16, 1, [], 0⟩,
  ⟨Key.vadHoldFrames, 1, 1, "VadHoldFrames", .u16, .rw, 30, 1, 1000, 1, [], 0⟩,
  ⟨Key.kwsModelLoad, 1, 1, "KwsModelLoad", .domain, .cmd, 0, 0, 0, 1, [], 0⟩,
  ⟨Key.kwsThreshold, 1, 1, "KwsThreshold", .u8, .rw, 200, 0, 255, 1, [], 0⟩,
  ⟨Key.kwsHoldMs, 1, 1, "KwsHoldMs", .u16, .rw, 1000, 0, 10000, 1, [], 0⟩,
  ⟨Key.kwsTriggers, 1, 1, "KwsTriggers", .u32, .ro, 0, 0, 4294967295, 1, [], 0⟩,
  ⟨Key.kwsLastStamp, 1, 1, "KwsLastStamp", .time64, .ro, 0, 0, 18446744073709551615, 1, [], 0⟩,
  ⟨Key.wakeL2Pitch, 1, 1, "WakeL2Pitch", .u8, .rw, 255, 0, 31, 1, [255], 0⟩,
  ⟨Key.wakeL3Pitch, 1, 1, "WakeL3Pitch", .u8, .rw, 255, 0, 31, 1, [255], 0⟩,
  ⟨Key.wakeL4PitchMask, 1, 1, "WakeL4PitchMask", .u32, .rw, 0, 0, 4294967295, 1, [], 0⟩,
  ⟨Key.wakeAdvanceLine, 1, 3, "WakeAdvanceLine", .u16, .rw, 0, 0, 1535, 1, [], 0⟩,
  ⟨Key.wakeReleaseLine, 1, 3, "WakeReleaseLine", .u16, .rw, 0, 0, 1535, 1, [], 0⟩,
  ⟨Key.wakeTimeoutMs, 1, 3, "WakeTimeoutMs", .u32, .rw, 0, 0, 4294967295, 1, [], 0⟩,
  ⟨Key.wakeLookBackMs, 1, 1, "WakeLookBackMs", .u16, .rw, 1500, 0, 4000, 1, [], 0⟩,
  ⟨Key.wakeEarlyPower, 1, 1, "WakeEarlyPower", .bool, .rw, 0, 0, 1, 1, [], 0⟩]

/-- Listening (R602 to R604). -/
def objects11b : List ObjRow := [
  ⟨Key.wakeDropGraceUs, 1, 1, "WakeDropGraceUs", .u32, .rw, 200, 10, 100000, 1, [], 0⟩,
  ⟨Key.wakeOutHoldMs, 1, 1, "WakeOutHoldMs", .u16, .rw, 2000, 0, 65535, 1, [], 0⟩,
  ⟨Key.wakeStage, 1, 1, "WakeStage", .u8, .ro, 1, 0, 255, 1, [], 0⟩,
  ⟨Key.wakeTimeouts, 1, 1, "WakeTimeouts", .u32, .ro, 0, 0, 4294967295, 1, [], 0⟩,
  ⟨Key.wakeCount, 1, 1, "WakeCount", .u32, .ro, 0, 0, 4294967295, 1, [], 0⟩,
  ⟨Key.streamQueue, 4, 1, "StreamQueue", .u8, .rw, 255, 0, 31, 1, [255], 0⟩,
  ⟨Key.streamPackets, 4, 1, "StreamPackets", .u64, .ro, 0, 0, 18446744073709551615, 1, [], 0⟩,
  ⟨Key.glimpseEnable, 1, 1, "GlimpseEnable", .bool, .rw, 0, 0, 1, 1, [], 0⟩,
  ⟨Key.glimpseWidth, 1, 1, "GlimpseWidth", .u16, .rw, 640, 64, 640, 16, [], 0⟩,
  ⟨Key.glimpseHeight, 1, 1, "GlimpseHeight", .u16, .rw, 480, 64, 480, 16, [], 0⟩,
  ⟨Key.glimpseFrameDiv, 1, 1, "GlimpseFrameDiv", .u8, .rw, 6, 1, 255, 1, [], 0⟩,
  ⟨Key.glimpseCellThreshold, 1, 1, "GlimpseCellThreshold", .u8, .rw, 12, 0, 255, 1, [], 0⟩,
  ⟨Key.glimpseScoreThreshold, 1, 1, "GlimpseScoreThreshold", .u8, .rw, 32, 0, 255, 1, [], 0⟩,
  ⟨Key.glimpseAction, 1, 1, "GlimpseAction", .u8, .rw, 0, 0, 2, 1, [], 0⟩,
  ⟨Key.glimpseLastScore, 1, 1, "GlimpseLastScore", .u8, .ro, 0, 0, 255, 1, [], 0⟩,
  ⟨Key.playbackPitch, 1, 1, "PlaybackPitch", .u8, .rw, 255, 0, 31, 1, [255], 0⟩,
  ⟨Key.playbackCluster, 1, 1, "PlaybackCluster", .u8, .rw, 0, 0, 5, 1, [], 0⟩,
  ⟨Key.playbackSramOffset, 1, 1, "PlaybackSramOffset", .u32, .rw, 0, 0, 16777215, 64, [], 0⟩,
  ⟨Key.playbackBlocks, 1, 1, "PlaybackBlocks", .u8, .rw, 4, 2, 64, 1, [], 0⟩,
  ⟨Key.playbackFillPeg, 1, 1, "PlaybackFillPeg", .u16, .rw, 0, 0, 6143, 1, [], 0⟩,
  ⟨Key.playbackEnable, 1, 1, "PlaybackEnable", .bool, .rw, 0, 0, 1, 1, [], 0⟩,
  ⟨Key.playbackUnderruns, 1, 1, "PlaybackUnderruns", .u32, .ro, 0, 0, 4294967295, 1, [], 0⟩]

/-- Cameras (R643 to R645). -/
def objects12a : List ObjRow := [
  ⟨Key.fusionWindowNs, 1, 1, "FusionWindowNs", .u32, .rw, 10000000, 1000000, 1000000000, 1, [], 0⟩,
  ⟨Key.framesStarted, 1, 1, "FramesStarted", .u64, .ro, 0, 0, 18446744073709551615, 1, [], 0⟩,
  ⟨Key.lastFrameNo, 1, 1, "LastFrameNo", .u32, .ro, 0, 0, 4294967295, 1, [], 0⟩,
  ⟨Key.portLanes, 4, 1, "PortLanes", .u8, .rws, 4, 1, 0, 1, [1, 2, 4], 0⟩,
  ⟨Key.camPortPriority, 4, 1, "CamPortPriority", .u8, .rw, 0, 0, 7, 1, [], 0⟩,
  ⟨Key.camPortEnable, 4, 1, "CamPortEnable", .bool, .rw, 0, 0, 1, 1, [], 0⟩,
  ⟨Key.headerCorrected, 4, 1, "HeaderCorrected", .u32, .ro, 0, 0, 4294967295, 1, [], 0⟩,
  ⟨Key.headerErrors, 4, 1, "HeaderErrors", .u32, .ro, 0, 0, 4294967295, 1, [], 0⟩,
  ⟨Key.crcErrors, 4, 1, "CrcErrors", .u32, .ro, 0, 0, 4294967295, 1, [], 0⟩,
  ⟨Key.lineLengthErrors, 4, 1, "LineLengthErrors", .u32, .ro, 0, 0, 4294967295, 1, [], 0⟩,
  ⟨Key.orphanLines, 4, 1, "OrphanLines", .u32, .ro, 0, 0, 4294967295, 1, [], 0⟩,
  ⟨Key.unknownPackets, 4, 1, "UnknownPackets", .u32, .ro, 0, 0, 4294967295, 1, [], 0⟩,
  ⟨Key.linesOverflowed, 4, 1, "LinesOverflowed", .u32, .ro, 0, 0, 4294967295, 1, [], 0⟩,
  ⟨Key.framesTruncated, 4, 1, "FramesTruncated", .u32, .ro, 0, 0, 4294967295, 1, [], 0⟩,
  ⟨Key.ctxEnable, 16, 1, "CtxEnable", .bool, .rw, 0, 0, 1, 1, [], 0⟩,
  ⟨Key.ctxDataType, 16, 1, "CtxDataType", .u8, .rw, 43, 1, 0, 1, [42, 43, 44, 45, 46, 30], 0⟩,
  ⟨Key.ctxWidth, 16, 1, "CtxWidth", .u16, .rw, 1920, 16, 8192, 1, [], 0⟩,
  ⟨Key.ctxHeight, 16, 1, "CtxHeight", .u16, .rw, 1080, 1, 16383, 1, [], 0⟩,
  ⟨Key.ctxMosaic, 16, 1, "CtxMosaic", .u64, .rw, 4563927045, 0, 18446744073709551615, 1, [], 0⟩,
  ⟨Key.ctxTuningSet, 16, 1, "CtxTuningSet", .u8, .rw, 0, 0, 3, 1, [], 0⟩,
  ⟨Key.ctxStageBypass, 16, 1, "CtxStageBypass", .u16, .rw, 0, 0, 8176, 16, [], 0⟩,
  ⟨Key.frameTimeoutUs, 16, 1, "FrameTimeoutUs", .u32, .rw, 100000, 100, 10000000, 1, [], 0⟩,
  ⟨Key.cscMode, 16, 1, "CscMode", .u8, .rw, 2, 0, 3, 1, [], 0⟩,
  ⟨Key.extraLines, 16, 1, "ExtraLines", .u32, .ro, 0, 0, 4294967295, 1, [], 0⟩,
  ⟨Key.defectsCorrected, 16, 1, "DefectsCorrected", .u64, .ro, 0, 0, 18446744073709551615, 1, [], 0⟩,
  ⟨Key.framesDelivered, 16, 1, "FramesDelivered", .u32, .ro, 0, 0, 4294967295, 1, [], 0⟩,
  ⟨Key.framesMarked, 16, 1, "FramesMarked", .u32, .ro, 0, 0, 4294967295, 1, [], 0⟩,
  ⟨Key.outEnable, 64, 1, "OutEnable", .bool, .rw, 0, 0, 1, 1, [], 0⟩,
  ⟨Key.outFormat, 64, 1, "OutFormat", .u8, .rw, 1, 0, 7, 1, [], 0⟩,
  ⟨Key.outQueue, 64, 1, "OutQueue", .u8, .rw, 255, 0, 31, 1, [255], 0⟩]

/-- Cameras (R643 to R645). -/
def objects12b : List ObjRow := [
  ⟨Key.outCrop, 64, 1, "OutCrop", .domain, .rw, 0, 0, 0, 1, [], 8⟩,
  ⟨Key.outSize, 64, 1, "OutSize", .u32, .rw, 70780800, 0, 4294967295, 1, [], 0⟩,
  ⟨Key.outBandLines, 64, 1, "OutBandLines", .u16, .rw, 16, 1, 1024, 1, [], 0⟩,
  ⟨Key.outNorm, 64, 1, "OutNorm", .domain, .rw, 0, 0, 0, 1, [], 32⟩,
  ⟨Key.outDrops, 64, 1, "OutDrops", .u32, .ro, 0, 0, 4294967295, 1, [], 0⟩,
  ⟨Key.xtalkKernels, 4, 1, "XtalkKernels", .domain, .rw, 0, 0, 0, 1, [], 640⟩,
  ⟨Key.greenImbalanceLimit, 4, 1, "GreenImbalanceLimit", .u16, .rw, 0, 0, 65535, 1, [], 0⟩,
  ⟨Key.defectList, 4, 1, "DefectList", .domain, .rw, 0, 0, 0, 1, [], 0⟩,
  ⟨Key.defectThreshold, 4, 1, "DefectThreshold", .u16, .rw, 0, 0, 65535, 1, [], 0⟩,
  ⟨Key.shadingGrid, 4, 1, "ShadingGrid", .domain, .rw, 0, 0, 0, 1, [], 10890⟩,
  ⟨Key.noiseStrength, 4, 1, "NoiseStrength", .domain, .rw, 0, 0, 0, 1, [], 5⟩,
  ⟨Key.noiseLimit, 4, 1, "NoiseLimit", .domain, .rw, 0, 0, 0, 1, [], 10⟩,
  ⟨Key.colourMatrix, 4, 1, "ColourMatrix", .domain, .rw, 0, 0, 0, 1, [], 48⟩,
  ⟨Key.toneLut, 4, 1, "ToneLut", .domain, .rw, 0, 0, 0, 1, [], 1542⟩,
  ⟨Key.cciBus0Hz, 1, 1, "CciBus0Hz", .u32, .rw, 400000, 1, 0, 1, [100000, 400000, 1000000], 0⟩,
  ⟨Key.cciBus1Hz, 1, 1, "CciBus1Hz", .u32, .rw, 400000, 1, 0, 1, [100000, 400000, 1000000], 0⟩,
  ⟨Key.cciTransfer, 1, 1, "CciTransfer", .domain, .cmd, 0, 0, 0, 1, [], 0⟩,
  ⟨Key.cciResult, 1, 1, "CciResult", .domain, .ro, 0, 0, 0, 1, [], 0⟩,
  ⟨Key.camResetN, 1, 1, "CamResetN", .u8, .rw, 0, 0, 15, 1, [], 0⟩,
  ⟨Key.camMclkHz, 1, 4, "CamMclkHz", .u32, .rw, 0, 6000000, 27000000, 1, [0], 0⟩,
  ⟨Key.camFsyncPeriodNs, 1, 1, "CamFsyncPeriodNs", .u32, .rw, 0, 1000000, 1000000000, 1, [0], 0⟩,
  ⟨Key.camFsyncOffsetNs, 1, 1, "CamFsyncOffsetNs", .u32, .rw, 0, 0, 4294967295, 1, [], 0⟩,
  ⟨Key.camFsyncEnable, 1, 1, "CamFsyncEnable", .u8, .rw, 0, 0, 15, 1, [], 0⟩]

/-- Errors (R681, R682). -/
def objects13a : List ObjRow := [
  ⟨Key.scrubPassHoursSystem, 1, 1, "ScrubPassHoursSystem", .u16, .rw, 24, 1, 168, 1, [], 0⟩,
  ⟨Key.scrubPassHoursS, 1, 1, "ScrubPassHoursS", .u16, .rw, 24, 1, 168, 1, [0], 0⟩,
  ⟨Key.scrubPassHoursM, 1, 1, "ScrubPassHoursM", .u16, .rw, 24, 1, 168, 1, [0], 0⟩,
  ⟨Key.scrubPassHoursL, 1, 1, "ScrubPassHoursL", .u16, .rw, 24, 1, 168, 1, [0], 0⟩,
  ⟨Key.scrubPasses, 1, 1, "ScrubPasses", .u64, .ro, 0, 0, 18446744073709551615, 1, [], 0⟩,
  ⟨Key.scrubLateSlices, 1, 1, "ScrubLateSlices", .u64, .ro, 0, 0, 18446744073709551615, 1, [], 0⟩,
  ⟨Key.sramSweepMs, 1, 1, "SramSweepMs", .u16, .rw, 1000, 300, 60000, 1, [], 0⟩,
  ⟨Key.ceWindowS, 1, 1, "CeWindowS", .u32, .rw, 3600, 60, 604800, 1, [], 0⟩,
  ⟨Key.ceBankThreshold, 1, 1, "CeBankThreshold", .u16, .rw, 64, 1, 65535, 1, [], 0⟩,
  ⟨Key.ceBankSelect, 1, 1, "CeBankSelect", .u16, .rw, 0, 0, 511, 1, [], 0⟩,
  ⟨Key.ceBankWindowCount, 1, 1, "CeBankWindowCount", .u16, .ro, 0, 0, 65535, 1, [], 0⟩,
  ⟨Key.ceBanksOverThreshold, 1, 1, "CeBanksOverThreshold", .u16, .ro, 0, 0, 65535, 1, [], 0⟩,
  ⟨Key.lpddrCorrected, 1, 1, "LpddrCorrected", .u64, .ro, 0, 0, 18446744073709551615, 1, [], 0⟩,
  ⟨Key.lpddrUncorrectable, 1, 1, "LpddrUncorrectable", .u32, .ro, 0, 0, 4294967295, 1, [], 0⟩,
  ⟨Key.sramCorrected, 1, 1, "SramCorrected", .u64, .ro, 0, 0, 18446744073709551615, 1, [], 0⟩,
  ⟨Key.sramUncorrectable, 1, 1, "SramUncorrectable", .u32, .ro, 0, 0, 4294967295, 1, [], 0⟩,
  ⟨Key.poisonReads, 1, 1, "PoisonReads", .u64, .ro, 0, 0, 18446744073709551615, 1, [], 0⟩,
  ⟨Key.classGranules, 1, 1, "ClassGranules", .u32, .ro, 0, 0, 4294967295, 1, [], 0⟩,
  ⟨Key.faultLogCount, 1, 1, "FaultLogCount", .u32, .ro, 0, 0, 4294967295, 1, [], 0⟩,
  ⟨Key.faultLogSelect, 1, 1, "FaultLogSelect", .u16, .rw, 0, 0, 1023, 1, [], 0⟩,
  ⟨Key.faultLogEntry, 1, 1, "FaultLogEntry", .domain, .ro, 0, 0, 0, 1, [], 32⟩,
  ⟨Key.faultLogClear, 1, 1, "FaultLogClear", .bool, .cmd, 0, 0, 1, 1, [], 0⟩,
  ⟨Key.faultLogOverwrites, 1, 1, "FaultLogOverwrites", .u32, .ro, 0, 0, 4294967295, 1, [], 0⟩,
  ⟨Key.frameRetire, 1, 1, "FrameRetire", .u32, .cmd, 0, 0, 4294967295, 1, [], 0⟩,
  ⟨Key.lpddrBankRetire, 1, 1, "LpddrBankRetire", .u16, .cmd, 0, 0, 65535, 1, [], 0⟩,
  ⟨Key.sramBankRetire, 1, 1, "SramBankRetire", .u16, .cmd, 0, 0, 65535, 1, [], 0⟩,
  ⟨Key.coreRetire, 1, 1, "CoreRetire", .u8, .cmd, 0, 0, 255, 1, [], 0⟩,
  ⟨Key.flashDieRetire, 1, 1, "FlashDieRetire", .u8, .cmd, 0, 0, 255, 1, [], 0⟩,
  ⟨Key.retiredFrames, 1, 1, "RetiredFrames", .u32, .ro, 0, 0, 4294967295, 1, [], 0⟩,
  ⟨Key.retirementList, 1, 1, "RetirementList", .domain, .ro, 0, 0, 0, 1, [], 8⟩]

/-- Errors (R681, R682). -/
def objects13b : List ObjRow := [
  ⟨Key.retireClear, 1, 1, "RetireClear", .bool, .cmd, 0, 0, 1, 1, [], 0⟩]

/-- Security (R730, R731). -/
def objects14a : List ObjRow := [
  ⟨Key.confidentialMode, 1, 1, "ConfidentialMode", .bool, .rws, 0, 0, 1, 1, [], 0⟩,
  ⟨Key.debugState, 1, 1, "DebugState", .u8, .ro, 0, 0, 255, 1, [], 0⟩,
  ⟨Key.rollbackCounter, 1, 1, "RollbackCounter", .u8, .ro, 0, 0, 255, 1, [], 0⟩,
  ⟨Key.attestRequest, 1, 1, "AttestRequest", .domain, .cmd, 0, 0, 0, 1, [], 32⟩,
  ⟨Key.attestReport, 1, 1, "AttestReport", .domain, .ro, 0, 0, 0, 1, [], 768⟩,
  ⟨Key.sessionOpen, 1, 1, "SessionOpen", .domain, .cmd, 0, 0, 0, 1, [], 488⟩,
  ⟨Key.sessionClose, 1, 1, "SessionClose", .u32, .cmd, 0, 0, 4294967295, 1, [], 0⟩,
  ⟨Key.sessionLastId, 1, 1, "SessionLastId", .u32, .ro, 0, 0, 4294967295, 1, [], 0⟩,
  ⟨Key.sessionIdleS, 1, 1, "SessionIdleS", .u32, .rw, 600, 10, 86400, 1, [], 0⟩,
  ⟨Key.identityCertificate, 1, 1, "IdentityCertificate", .domain, .ro, 0, 0, 0, 1, [], 0⟩,
  ⟨Key.keyStoreLost, 1, 1, "KeyStoreLost", .bool, .ro, 0, 0, 1, 1, [], 0⟩,
  ⟨Key.expiryDrainUs, 1, 1, "ExpiryDrainUs", .u32, .rw, 10000, 1000, 100000, 1, [], 0⟩,
  ⟨Key.keyEntriesFree, 1, 1, "KeyEntriesFree", .u16, .ro, 0, 0, 65535, 1, [], 0⟩,
  ⟨Key.sessionRejects, 1, 1, "SessionRejects", .u32, .ro, 0, 0, 4294967295, 1, [], 0⟩,
  ⟨Key.debugUnlock, 1, 1, "DebugUnlock", .domain, .cmd, 0, 0, 0, 1, [], 0⟩,
  ⟨Key.rollbackAdvanceNow, 1, 1, "RollbackAdvanceNow", .domain, .cmd, 0, 0, 0, 1, [], 0⟩,
  ⟨Key.keyStoreBytes, 1, 1, "KeyStoreBytes", .u32, .ro, 0, 0, 4294967295, 1, [], 0⟩,
  ⟨Key.tenantCreate, 1, 1, "TenantCreate", .domain, .cmd, 0, 0, 0, 1, [], 396⟩,
  ⟨Key.tenantRemove, 1, 1, "TenantRemove", .u16, .cmd, 0, 0, 65535, 1, [], 0⟩,
  ⟨Key.epochExpire, 1, 1, "EpochExpire", .u32, .cmd, 0, 0, 4294967295, 1, [], 0⟩,
  ⟨Key.rekeyStart, 1, 1, "RekeyStart", .u32, .cmd, 0, 0, 4294967295, 1, [], 0⟩,
  ⟨Key.keyEntrySelect, 1, 1, "KeyEntrySelect", .u16, .rw, 0, 0, 4095, 1, [], 0⟩,
  ⟨Key.keyEntry, 1, 1, "KeyEntry", .u64, .ro, 0, 0, 18446744073709551615, 1, [], 0⟩,
  ⟨Key.tenantState, 64, 1, "TenantState", .u8, .ro, 0, 0, 255, 1, [], 0⟩,
  ⟨Key.tenantGeneration, 64, 1, "TenantGeneration", .u16, .ro, 0, 0, 65535, 1, [], 0⟩,
  ⟨Key.retentionDays, 64, 1, "RetentionDays", .u16, .rw, 0, 0, 65535, 1, [], 0⟩,
  ⟨Key.rollOffsetS, 64, 1, "RollOffsetS", .u32, .ro, 0, 0, 4294967295, 1, [], 0⟩,
  ⟨Key.writeEpoch, 64, 1, "WriteEpoch", .u32, .ro, 0, 0, 4294967295, 1, [], 0⟩,
  ⟨Key.oldestEpoch, 64, 1, "OldestEpoch", .u32, .ro, 0, 0, 4294967295, 1, [], 0⟩,
  ⟨Key.keyEntries, 64, 1, "KeyEntries", .u16, .ro, 0, 0, 65535, 1, [], 0⟩]

/-- Security (R730, R731). -/
def objects14b : List ObjRow := [
  ⟨Key.rekeyPagesLeft, 64, 1, "RekeyPagesLeft", .u32, .ro, 0, 0, 4294967295, 1, [], 0⟩,
  ⟨Key.expiriesDone, 64, 1, "ExpiriesDone", .u32, .ro, 0, 0, 4294967295, 1, [], 0⟩,
  ⟨Key.expiryCutReads, 64, 1, "ExpiryCutReads", .u32, .ro, 0, 0, 4294967295, 1, [], 0⟩,
  ⟨Key.expiredWrites, 64, 1, "ExpiredWrites", .u64, .ro, 0, 0, 18446744073709551615, 1, [], 0⟩,
  ⟨Key.rollsDelayed, 64, 1, "RollsDelayed", .u32, .ro, 0, 0, 4294967295, 1, [], 0⟩,
  ⟨Key.tenantKeyDigest, 64, 1, "TenantKeyDigest", .domain, .ro, 0, 0, 0, 1, [], 0⟩,
  ⟨Key.extentKeyClass, 32, 1, "ExtentKeyClass", .u64, .rw, 0, 0, 18446744073709551615, 1, [], 0⟩]

/-- Power (R764). -/
def objects15 : List ObjRow := [
  ⟨Key.powerState, 1, 1, "PowerState", .u8, .ro, 0, 0, 255, 1, [], 0⟩,
  ⟨Key.powerEntryMethod, 1, 1, "PowerEntryMethod", .u8, .ro, 0, 0, 255, 1, [], 0⟩,
  ⟨Key.dozeConsent, 1, 1, "DozeConsent", .bool, .rw, 1, 0, 1, 1, [], 0⟩,
  ⟨Key.powerCapMw, 1, 1, "PowerCapMw", .u32, .rw, 0, 1000, 105000, 1, [], 0⟩,
  ⟨Key.inputPowerMw, 1, 1, "InputPowerMw", .u32, .ro, 0, 0, 4294967295, 1, [], 0⟩,
  ⟨Key.capEvents, 1, 1, "CapEvents", .u32, .ro, 0, 0, 4294967295, 1, [], 0⟩,
  ⟨Key.wakeAt, 1, 1, "WakeAt", .u64, .rw, 0, 0, 18446744073709551615, 1, [], 0⟩,
  ⟨Key.saveAreaFaults, 1, 1, "SaveAreaFaults", .u32, .ro, 0, 0, 4294967295, 1, [], 0⟩,
  ⟨Key.coldReturns, 1, 1, "ColdReturns", .u32, .ro, 0, 0, 4294967295, 1, [], 0⟩,
  ⟨Key.powerFloor, 1, 1, "PowerFloor", .u8, .ro, 1, 0, 255, 1, [], 0⟩,
  ⟨Key.resetPowerFloor, 1, 1, "ResetPowerFloor", .u8, .rws, 1, 1, 3, 1, [], 0⟩,
  ⟨Key.powerStateRequest, 1, 1, "PowerStateRequest", .u8, .cmd, 0, 0, 255, 1, [], 0⟩,
  ⟨Key.coreDivDefault, 1, 1, "CoreDivDefault", .u8, .rws, 0, 3, 7, 1, [], 0⟩,
  ⟨Key.coreDivSelect, 1, 1, "CoreDivSelect", .u8, .rw, 0, 0, 47, 1, [], 0⟩,
  ⟨Key.coreDivRequest, 1, 1, "CoreDivRequest", .u8, .rw, 0, 3, 7, 1, [], 0⟩,
  ⟨Key.coreDivInEffect, 1, 1, "CoreDivInEffect", .u8, .ro, 0, 0, 255, 1, [], 0⟩,
  ⟨Key.junctionTemp, 1, 10, "JunctionTemp", .i32, .ro, 0, 0, 4294967295, 1, [], 0⟩,
  ⟨Key.throttleC, 1, 1, "ThrottleC", .u8, .rw, 105, 90, 110, 1, [], 0⟩,
  ⟨Key.thermalThrottles, 1, 1, "ThermalThrottles", .u32, .ro, 0, 0, 4294967295, 1, [], 0⟩,
  ⟨Key.thermalTrips, 1, 1, "ThermalTrips", .u32, .ro, 0, 0, 4294967295, 1, [], 0⟩]

/-- Management (R797, R802). -/
def objects16a : List ObjRow := [
  ⟨Key.powerOnSeconds, 1, 1, "PowerOnSeconds", .u64, .ro, 0, 0, 18446744073709551615, 1, [], 0⟩,
  ⟨Key.lanternSeconds, 1, 1, "LanternSeconds", .u64, .ro, 0, 0, 18446744073709551615, 1, [], 0⟩,
  ⟨Key.starts, 1, 1, "Starts", .u32, .ro, 0, 0, 4294967295, 1, [], 0⟩,
  ⟨Key.islandBrownouts, 1, 1, "IslandBrownouts", .u32, .ro, 0, 0, 4294967295, 1, [], 0⟩,
  ⟨Key.lanternBrownoutsLife, 1, 1, "LanternBrownoutsLife", .u32, .ro, 0, 0, 4294967295, 1, [], 0⟩,
  ⟨Key.thermalExcursions, 1, 1, "ThermalExcursions", .u32, .ro, 0, 0, 4294967295, 1, [], 0⟩,
  ⟨Key.thermalTripsLife, 1, 1, "ThermalTripsLife", .u32, .ro, 0, 0, 4294967295, 1, [], 0⟩,
  ⟨Key.flashBytesWritten, 1, 1, "FlashBytesWritten", .u64, .ro, 0, 0, 18446744073709551615, 1, [], 0⟩,
  ⟨Key.flashEraseMin, 1, 1, "FlashEraseMin", .u32, .ro, 0, 0, 4294967295, 1, [], 0⟩,
  ⟨Key.flashEraseMean, 1, 1, "FlashEraseMean", .u32, .ro, 0, 0, 4294967295, 1, [], 0⟩,
  ⟨Key.flashEraseMax, 1, 1, "FlashEraseMax", .u32, .ro, 0, 0, 4294967295, 1, [], 0⟩,
  ⟨Key.flashBlocksRetired, 1, 1, "FlashBlocksRetired", .u32, .ro, 0, 0, 4294967295, 1, [], 0⟩,
  ⟨Key.updatesApplied, 1, 1, "UpdatesApplied", .u32, .ro, 0, 0, 4294967295, 1, [], 0⟩,
  ⟨Key.tenantRemovals, 1, 1, "TenantRemovals", .u32, .ro, 0, 0, 4294967295, 1, [], 0⟩,
  ⟨Key.lifetimeCommits, 1, 1, "LifetimeCommits", .u32, .ro, 0, 0, 4294967295, 1, [], 0⟩,
  ⟨Key.lifetimeLastCommit, 1, 1, "LifetimeLastCommit", .time64, .ro, 0, 0, 18446744073709551615, 1, [], 0⟩,
  ⟨Key.laserOnHours, 1, 6, "LaserOnHours", .u32, .ro, 0, 0, 4294967295, 1, [], 0⟩,
  ⟨Key.ceLifeBankSelect, 1, 1, "CeLifeBankSelect", .u16, .rw, 0, 0, 511, 1, [], 0⟩,
  ⟨Key.ceLifeBankCount, 1, 1, "CeLifeBankCount", .u64, .ro, 0, 0, 18446744073709551615, 1, [], 0⟩,
  ⟨Key.vendorName, 1, 1, "VendorName", .string, .ro, 0, 0, 0, 1, [], 0⟩,
  ⟨Key.productName, 1, 1, "ProductName", .string, .ro, 0, 0, 0, 1, [], 0⟩,
  ⟨Key.orderingCode, 1, 1, "OrderingCode", .string, .ro, 0, 0, 0, 1, [], 0⟩,
  ⟨Key.dieSerial, 1, 1, "DieSerial", .u64, .ro, 0, 0, 18446744073709551615, 1, [], 0⟩,
  ⟨Key.dieRevision, 1, 1, "DieRevision", .u16, .ro, 176, 0, 65535, 1, [], 0⟩,
  ⟨Key.firmwareVersion, 1, 1, "FirmwareVersion", .u32, .ro, 0, 0, 4294967295, 1, [], 0⟩,
  ⟨Key.macAddress, 1, 1, "MacAddress", .domain, .ro, 0, 0, 0, 1, [], 6⟩,
  ⟨Key.uoaUdpPort, 1, 1, "UoaUdpPort", .u16, .rws, 49431, 1024, 65535, 1, [], 0⟩,
  ⟨Key.plcaNodeId, 1, 1, "PlcaNodeId", .u8, .rws, 255, 0, 7, 1, [255], 0⟩,
  ⟨Key.plcaNodeCount, 1, 1, "PlcaNodeCount", .u8, .rws, 8, 2, 8, 1, [], 0⟩,
  ⟨Key.plcaToTimer, 1, 1, "PlcaToTimer", .u8, .rws, 32, 16, 255, 1, [], 0⟩]

/-- Management (R797, R802). -/
def objects16b : List ObjRow := [
  ⟨Key.segmentRole, 1, 1, "SegmentRole", .u8, .rws, 0, 0, 2, 1, [], 0⟩,
  ⟨Key.segmentHeartbeatMs, 1, 1, "SegmentHeartbeatMs", .u16, .rw, 500, 100, 10000, 1, [], 0⟩,
  ⟨Key.proxyTimeoutMs, 1, 1, "ProxyTimeoutMs", .u16, .rw, 200, 10, 10000, 1, [], 0⟩,
  ⟨Key.segmentMembers, 1, 1, "SegmentMembers", .domain, .ro, 0, 0, 0, 1, [], 0⟩,
  ⟨Key.managerConflicts, 1, 1, "ManagerConflicts", .u32, .ro, 0, 0, 4294967295, 1, [], 0⟩,
  ⟨Key.t1sFramesRx, 1, 1, "T1sFramesRx", .u64, .ro, 0, 0, 18446744073709551615, 1, [], 0⟩,
  ⟨Key.t1sFramesTx, 1, 1, "T1sFramesTx", .u64, .ro, 0, 0, 18446744073709551615, 1, [], 0⟩,
  ⟨Key.t1sDiscarded, 1, 1, "T1sDiscarded", .u64, .ro, 0, 0, 18446744073709551615, 1, [], 0⟩,
  ⟨Key.plcaBeaconLosses, 1, 1, "PlcaBeaconLosses", .u32, .ro, 0, 0, 4294967295, 1, [], 0⟩,
  ⟨Key.uoaRequests, 1, 1, "UoaRequests", .u64, .ro, 0, 0, 18446744073709551615, 1, [], 0⟩,
  ⟨Key.uoaRepeatsAnswered, 1, 1, "UoaRepeatsAnswered", .u32, .ro, 0, 0, 4294967295, 1, [], 0⟩,
  ⟨Key.proxyTimeouts, 1, 1, "ProxyTimeouts", .u32, .ro, 0, 0, 4294967295, 1, [], 0⟩,
  ⟨Key.roleKeyInstall, 1, 1, "RoleKeyInstall", .domain, .cmd, 0, 0, 0, 1, [], 392⟩,
  ⟨Key.roleKeyDigests, 1, 1, "RoleKeyDigests", .domain, .ro, 0, 0, 0, 1, [], 64⟩,
  ⟨Key.vendorNonce, 1, 1, "VendorNonce", .domain, .ro, 0, 0, 0, 1, [], 16⟩,
  ⟨Key.roleKeyReset, 1, 1, "RoleKeyReset", .bool, .cmd, 0, 0, 1, 1, [], 0⟩,
  ⟨Key.profileSelect, 1, 1, "ProfileSelect", .u8, .rws, 255, 0, 3, 1, [255], 0⟩,
  ⟨Key.profileInForce, 1, 1, "ProfileInForce", .u8, .ro, 0, 0, 255, 1, [], 0⟩,
  ⟨Key.profileClusters, 1, 1, "ProfileClusters", .u8, .ro, 0, 0, 255, 1, [], 0⟩,
  ⟨Key.profileOptics, 1, 1, "ProfileOptics", .bool, .ro, 0, 0, 1, 1, [], 0⟩,
  ⟨Key.profileCapMw, 1, 1, "ProfileCapMw", .u32, .ro, 0, 0, 4294967295, 1, [], 0⟩,
  ⟨Key.nvImage, 1, 1, "NvImage", .domain, .rw, 0, 0, 0, 1, [], 0⟩,
  ⟨Key.nvClearSection, 1, 1, "NvClearSection", .u8, .cmd, 0, 0, 255, 1, [], 0⟩,
  ⟨Key.nvImageBytes, 1, 1, "NvImageBytes", .u32, .ro, 0, 0, 4294967295, 1, [], 0⟩,
  ⟨Key.nvSequence, 1, 1, "NvSequence", .u32, .ro, 0, 0, 4294967295, 1, [], 0⟩,
  ⟨Key.calendarNow, 1, 1, "CalendarNow", .u64, .ro, 0, 0, 18446744073709551615, 1, [], 0⟩,
  ⟨Key.calendarSet, 1, 1, "CalendarSet", .u64, .cmd, 0, 0, 18446744073709551615, 1, [], 0⟩,
  ⟨Key.calendarValid, 1, 1, "CalendarValid", .bool, .ro, 0, 0, 1, 1, [], 0⟩,
  ⟨Key.calendarMaxBackS, 1, 1, "CalendarMaxBackS", .u32, .rw, 3600, 0, 86400, 1, [], 0⟩,
  ⟨Key.calendarSets, 1, 1, "CalendarSets", .u32, .ro, 0, 0, 4294967295, 1, [], 0⟩]

/-- Management (R797, R802). -/
def objects16c : List ObjRow := [
  ⟨Key.subscriptions, 1, 1, "Subscriptions", .u8, .ro, 0, 0, 255, 1, [], 0⟩,
  ⟨Key.telemetryDrops, 1, 1, "TelemetryDrops", .u32, .ro, 0, 0, 4294967295, 1, [], 0⟩]

/-- Update (R820). -/
def objects17 : List ObjRow := [
  ⟨Key.updateState, 1, 1, "UpdateState", .u8, .ro, 0, 0, 255, 1, [], 0⟩,
  ⟨Key.updateBegin, 1, 1, "UpdateBegin", .domain, .cmd, 0, 0, 0, 1, [], 40⟩,
  ⟨Key.updatePiece, 1, 1, "UpdatePiece", .domain, .wo, 0, 0, 0, 1, [], 0⟩,
  ⟨Key.updatePieceBitmap, 1, 1, "UpdatePieceBitmap", .domain, .ro, 0, 0, 0, 1, [], 0⟩,
  ⟨Key.updatePiecesTotal, 1, 1, "UpdatePiecesTotal", .u32, .ro, 0, 0, 4294967295, 1, [], 0⟩,
  ⟨Key.updatePiecesReceived, 1, 1, "UpdatePiecesReceived", .u32, .ro, 0, 0, 4294967295, 1, [], 0⟩,
  ⟨Key.updateDuplicatePieces, 1, 1, "UpdateDuplicatePieces", .u32, .ro, 0, 0, 4294967295, 1, [], 0⟩,
  ⟨Key.updateActivate, 1, 1, "UpdateActivate", .u8, .cmd, 0, 0, 255, 1, [], 0⟩,
  ⟨Key.updateCancel, 1, 1, "UpdateCancel", .bool, .cmd, 0, 0, 1, 1, [], 0⟩,
  ⟨Key.updateResult, 1, 1, "UpdateResult", .u8, .ro, 0, 0, 255, 1, [], 0⟩,
  ⟨Key.updateResultStamp, 1, 1, "UpdateResultStamp", .time64, .ro, 0, 0, 18446744073709551615, 1, [], 0⟩,
  ⟨Key.activeSlot, 1, 1, "ActiveSlot", .u8, .ro, 0, 0, 255, 1, [], 0⟩,
  ⟨Key.slotVersionA, 1, 1, "SlotVersionA", .u32, .ro, 0, 0, 4294967295, 1, [], 0⟩,
  ⟨Key.slotVersionB, 1, 1, "SlotVersionB", .u32, .ro, 0, 0, 4294967295, 1, [], 0⟩,
  ⟨Key.updateApplyAttempts, 1, 1, "UpdateApplyAttempts", .u32, .ro, 0, 0, 4294967295, 1, [], 0⟩,
  ⟨Key.updateTargetDigest, 1, 1, "UpdateTargetDigest", .domain, .ro, 0, 0, 0, 1, [], 0⟩]

/-- Host link (R843). -/
def objects18 : List ObjRow := [
  ⟨Key.linkRates, 1, 1, "LinkRates", .u16, .ro, 0, 0, 65535, 1, [], 0⟩,
  ⟨Key.usb4Connects, 1, 1, "Usb4Connects", .u32, .ro, 0, 0, 4294967295, 1, [], 0⟩,
  ⟨Key.mailboxDrops, 1, 1, "MailboxDrops", .u32, .ro, 0, 0, 4294967295, 1, [], 0⟩,
  ⟨Key.eventsLost, 1, 1, "EventsLost", .u32, .ro, 0, 0, 4294967295, 1, [], 0⟩,
  ⟨Key.hostDoorbellLine, 1, 16, "HostDoorbellLine", .u16, .rw, 0, 0, 1535, 1, [], 0⟩,
  ⟨Key.windowPitch, 1, 1, "WindowPitch", .u8, .rw, 255, 0, 31, 1, [255], 0⟩,
  ⟨Key.windowErrors, 1, 1, "WindowErrors", .u32, .ro, 0, 0, 4294967295, 1, [], 0⟩,
  ⟨Key.hostDmaPitch, 1, 4, "HostDmaPitch", .u8, .rw, 255, 0, 31, 1, [255], 0⟩,
  ⟨Key.hostPostLine, 32, 1, "HostPostLine", .u16, .rw, 0, 0, 1535, 1, [], 0⟩,
  ⟨Key.hostPostOffset, 32, 1, "HostPostOffset", .u32, .rw, 0, 0, 16777215, 64, [], 0⟩]

/-- Every object table. -/
def objectTable : List ObjRow :=
  objects04 ++ objects05a ++ objects05b ++ objects05c ++ objects06 ++ objects07 ++ objects08 ++ objects09a ++ objects09b ++ objects10a ++ objects10b ++ objects11a ++ objects11b ++ objects12a ++ objects12b ++ objects13a ++ objects13b ++ objects14a ++ objects14b ++ objects15 ++ objects16a ++ objects16b ++ objects16c ++ objects17 ++ objects18

end Sys2Proof.Machine
end

