-- ==== Sys2Proof/Machine/Ops.lean ====
section
/-! DEFINITION. The named operations over the state: access to cores, slots, clusters, pitches and dictionary objects, the
shares of a slot, pegs, event lines and the engines' claims (chapters 01, 03, 09). -/

namespace Sys2Proof.Machine

/-! ### Access -/

/-- Index of a core, 0 to 47. -/
def coreIndex (c : CoreRef) : Nat := 8 * c.cluster.val + c.core.val

/-- Index of a slot, 0 to 191. -/
def slotIndex (u : SlotRef) : Nat := 32 * u.cluster.val + 4 * u.core.val + u.slot.val

/-- Core and cluster of a slot index. -/
def coreOfSlot (i : Nat) : Nat := i / 4
def clusterOfSlot (i : Nat) : Nat := i / 32

def State.core (s : State) (c : Nat) : Core := tabGet s.cores c {}
def State.slot (s : State) (i : Nat) : Slot := tabGet s.slots i {}
def State.cluster (s : State) (n : Nat) : Cluster := tabGet s.clusters n {}
def State.pitch (s : State) (p : Nat) : Pitch := tabGet s.pitches p {}
def State.queue (s : State) (q : Nat) : Queue := tabGet s.queues q {}

def State.setCore (s : State) (c : Nat) (v : Core) : State := { s with cores := tabSet s.cores c v }
def State.setSlot (s : State) (i : Nat) (v : Slot) : State := { s with slots := tabSet s.slots i v }
def State.setCluster (s : State) (n : Nat) (v : Cluster) : State := { s with clusters := tabSet s.clusters n v }
def State.setPitch (s : State) (p : Nat) (v : Pitch) : State := { s with pitches := tabSet s.pitches p v }
def State.setQueue (s : State) (q : Nat) (v : Queue) : State := { s with queues := tabSet s.queues q v }

def State.modCore (s : State) (c : Nat) (f : Core → Core) : State := s.setCore c (f (s.core c))
def State.modSlot (s : State) (i : Nat) (f : Slot → Slot) : State := s.setSlot i (f (s.slot i))
def State.modCluster (s : State) (n : Nat) (f : Cluster → Cluster) : State := s.setCluster n (f (s.cluster n))
def State.modPitch (s : State) (p : Nat) (f : Pitch → Pitch) : State := s.setPitch p (f (s.pitch p))
def State.modQueue (s : State) (q : Nat) (f : Queue → Queue) : State := s.setQueue q (f (s.queue q))

/-- Take a fresh free value's index. -/
def State.fresh (s : State) : Nat × State := (s.freeCtr, { s with freeCtr := s.freeCtr + 1 })

/-! ### Dictionary objects -/

/-- Does a row of the object tables hold this key. -/
def ObjRow.holds (r : ObjRow) (key : Nat) : Bool :=
  decide (r.key ≤ key) && decide ((key - r.key) / 256 < r.copies) && decide ((key - r.key) % 256 < r.subs)

/-- The row of a key. -/
def objRow (key : Nat) : Option ObjRow := objectTable.find? (·.holds key)

/-- The factory value of a scalar object under a profile (R775; the tables' Default column, R1, R296, R560, R756, R757). -/
def factoryValue (mb : Bool) (profile key : Nat) : Nat :=
  if Key.portEnable ≤ key && key ≤ Key.portEnable + 256 * 5 && key % 256 = Key.portEnable % 256 then
    (if profile = 0 then 1 else 0)
  else if key = Key.wakeEarlyPower then (if profile = 1 || profile = 2 then 1 else 0)
  else if key = Key.powerCapMw || key = Key.profileCapMw then
    (match profile with | 0 => 105000 | 1 => 35000 | 2 => 15000 | _ => 4000)
  else if key = Key.profileClusters then (match profile with | 0 => 0x3F | 1 => 0x03 | _ => 0x01)
  else if key = Key.profileOptics then (if profile = 0 then 1 else 0)
  else if key = Key.powerEntryMethod then (if profile = 0 then 0 else 1)
  else if key = Key.coreDivDefault || key = Key.coreDivRequest then (if profile = 1 || profile = 2 then 4 else 3)
  else if key = Key.flashDailyBudget then (if mb then 1150000000000 else 2300000000000)
  else if key = Key.wakeTimeoutMs then 100
  else if key = Key.wakeTimeoutMs + 1 then 10000
  else (objRow key).elim 0 (·.dflt)

/-- The live value of a scalar object. -/
def State.obj (s : State) (key : Nat) : Nat := (tabFind s.dict key).getD (factoryValue s.mb s.profile key)

/-- Set the live value of a scalar object. -/
def State.setObj (s : State) (key v : Nat) : State := { s with dict := tabSet s.dict key v }

/-- Width in bits of a scalar object type; a DOMAIN or STRING has none. -/
def ObjType.width (t : ObjType) : Nat :=
  match t with
  | .bool => 1
  | .u8 => 8
  | .u16 => 16
  | .u32 => 32
  | .i32 => 32
  | .f32 => 32
  | .u64 => 64
  | .time64 => 64
  | .string => 0
  | .domain => 0

/-- Add to a counter object; it stops at the largest value of its type (DEDUCED for the counters whose chapter does
not say, log entry 15). -/
def State.bump (s : State) (key : Nat) (n : Nat := 1) : State :=
  s.setObj key (min (2 ^ ((objRow key).elim 64 (·.ty.width)) - 1) (s.obj key + n))

/-- Key of a per-instance object: instance i of a row. -/
def Key.at (key i : Nat) : Nat := key + 256 * i

/-- The bytes of a DOMAIN object (empty where nothing was written). -/
def State.domain (s : State) (key : Nat) : List Byte := tabGet s.domains key []

/-- Set the bytes of a DOMAIN object. -/
def State.setDomain (s : State) (key : Nat) (v : List Byte) : State := { s with domains := tabSet s.domains key v }

/-! ### Pitches, tenants, units -/

/-- Bit range of a pitch record's header (R453). -/
def Pitch.hdr (p : Pitch) (hi lo : Nat) : Nat := field (leNat (p.record.take 16)) hi lo

/-- Bit range of a pitch record's entry of cluster n (R453). -/
def Pitch.ent (p : Pitch) (n hi lo : Nat) : Nat := field (leNat ((p.record.drop (16 * (n + 1))).take 16)) hi lo

/-- Share of a pitch in a cluster: base and length in bytes; length 0 where it has none (R453). -/
def Pitch.share (p : Pitch) (n : Nat) : Nat × Nat :=
  if p.ent n 16 16 = 1 then (p.ent n 7 0 * 65536, (p.ent n 15 8 + 1) * 65536) else (0, 0)

/-- Bit range of a KV layout's record (R313). -/
def KvLayout.get (l : KvLayout) (hi lo : Nat) : Nat := field (leNat l.record) hi lo

/-- The tenant of a tag and its current generation (R35). -/
def tenantOfTag (tag : Nat) : Nat := tag / 1024
def State.tenant (s : State) (t : Nat) : Tenant := tabGet s.sec.tenants t {}
def State.tenantTag (s : State) (t : Nat) : Nat := t * 1024 + (s.tenant t).generation

/-- Does a tag carry its tenant's current generation (R36). -/
def State.tagCurrent (s : State) (tag : Nat) : Bool := s.tenantTag (tenantOfTag tag) == tag

/-- The unit address of a slot of this module (R31). -/
def State.unitOf (s : State) (i : Nat) : UnitAddr :=
  { module := s.moduleId, cluster := i / 32, core := i / 4 % 8, slot := i % 4, roleEpoch := (s.slot i).roleEpoch.toNat }

/-- The 39 bits of a unit address (R31), and back. -/
def unitBits (u : UnitAddr) : Nat :=
  u.module % 32768 * 2 ^ 24 + u.cluster % 8 * 2 ^ 21 + u.core % 8 * 2 ^ 18 + u.slot % 4 * 2 ^ 16 + u.roleEpoch % 65536
def unitOfBits (w : Nat) : UnitAddr :=
  { module := field w 38 24, cluster := field w 23 21, core := field w 20 18, slot := field w 17 16,
    roleEpoch := field w 15 0 }

/-- Index of the slot a unit address names in its module. -/
def unitSlot (u : UnitAddr) : Nat := 32 * u.cluster + 4 * u.core + u.slot

/-- Is the slot assigned (R116). -/
def Slot.assigned (x : Slot) : Bool := x.st != .idle

/-- Clusters and cores a profile enables (R777). -/
def coreEnabled (profile core : Nat) : Bool :=
  match profile with
  | 0 => decide (core < 48)
  | 1 => decide (core < 16)
  | 2 => decide (core < 8)
  | _ => core == 0

/-! ### Effective priority and donation (R460, R466 to R468) -/

/-- Priority of a slot's pitch. -/
def State.ownPrio (s : State) (i : Nat) : Nat := s.obj (Key.at Key.pitchPriority (s.slot i).pitch)

/-- Effective priority along donation chains of at most `n` further slots (R460, R468). -/
def State.effPrioN (s : State) : Nat → Nat → Nat
  | 0, i => s.ownPrio i
  | n + 1, i =>
    ((s.cluster (clusterOfSlot i)).donations.filter (·.holder == i)).foldl
      (fun m d => max m (State.effPrioN s n d.waiter)) (s.ownPrio i)

/-- Effective priority of a slot: chains of at most 4 slots (R468). -/
def State.effPrio (s : State) (i : Nat) : Nat := s.effPrioN 3 i

/-! ### Pegs (R146 to R151, R463 to R468) -/

/-- The pitch whose peg range holds a peg of a cluster. -/
def State.pegOwner (s : State) (n peg : Nat) : Option Nat :=
  (s.pitches.find? (fun e => e.2.st != .free && decide (e.2.ent n 41 32 ≤ peg)
    && decide (peg < e.2.ent n 41 32 + e.2.ent n 52 42))).map (·.1)

/-- Is the peg a lock peg of its owner (R451). -/
def State.pegLock (s : State) (n peg : Nat) : Bool :=
  match s.pegOwner n peg with
  | none => false
  | some p => decide (peg < (s.pitch p).ent n 41 32 + (s.pitch p).ent n 63 53)

/-- Is the peg lent (R465): the loans that hold it. -/
def State.pegLoans (s : State) (n peg : Nat) : List Loan :=
  s.loans.filter (fun l => l.cluster == n && decide (l.first ≤ peg) && decide (peg < l.first + l.count))

/-- May a pitch use a peg (R463). -/
def State.mayUsePeg (s : State) (p name : Nat) : Bool :=
  let n := name / 1024
  let peg := name % 1024
  decide (n < 6) && (s.pegOwner n peg == some p || (s.pegLoans n peg).any (·.borrower == p))

def State.peg (s : State) (n peg : Nat) : Peg := tabGet (s.cluster n).pegs peg {}
def State.setPeg (s : State) (n peg : Nat) (v : Peg) : State :=
  s.modCluster n (fun c => { c with pegs := tabSet c.pegs peg v })

/-- Held amount of a slot on a lock peg (R464). -/
def Peg.held (p : Peg) (i : Nat) : Nat := (p.holders.find? (·.1 == i)).elim 0 (·.2)

/-- Holders with a slot's held amount set; a slot with amount 0 is no holder (R464). -/
def Peg.withHeld (p : Peg) (i amount : Nat) : Peg :=
  let rest := p.holders.filter (·.1 != i)
  { p with holders := if amount = 0 then rest else rest ++ [(i, amount)] }

/-- Can a take by a slot be granted now (R148, R464: a fifth distinct holder is not satisfiable). -/
def State.takeReady (s : State) (n peg i amount : Nat) : Bool :=
  let p := s.peg n peg
  decide (amount ≤ p.value.toNat)
    && (amount == 0 || !s.pegLock n peg || p.held i != 0 || decide (p.holders.length < 4))

/-- Subtract a granted take and record the holder (R148, R464). -/
def State.takePeg (s : State) (n peg i amount : Nat) : State :=
  let p := s.peg n peg
  let p' : Peg := { p with value := p.value - BitVec.ofNat 16 amount }
  s.setPeg n peg (if s.pegLock n peg then p'.withHeld i (p'.held i + amount) else p')

/-- The donations a waiter gives: each holder of lower effective priority (R466, R469, R470). -/
def State.donate (s : State) (n peg i : Nat) : State :=
  if s.pegLock n peg then
    let mine := s.effPrio i
    (s.peg n peg).holders.foldl (fun (t : State) h =>
      if h.1 != i && decide (s.effPrio h.1 < mine)
          && !((t.cluster n).donations.any (fun d => d.waiter == i && d.holder == h.1 && d.peg == peg)) then
        (t.modCluster n (fun c => { c with donations :=
          c.donations ++ [{ waiter := i, holder := h.1, peg := peg, start := t.time }] })).bump
            (Key.at Key.donationsReceived (t.slot h.1).pitch)
      else t) s
  else s

/-- Every waiter of a cluster's lock pegs gives what it has to give, along chains of at most 4 slots: holders and priorities may have
changed since it began to wait (R466, R468, R492). -/
def State.donateAll (s : State) (n : Nat) : State :=
  (List.range 4).foldl (fun (t : State) _ =>
    ((t.cluster n).waiters.filter (fun w => !w.keep && !w.job)).foldl (fun (t : State) w => t.donate n w.peg w.slot) t) s

/-- End the donations that no longer stand: the waiter waits no more, or the holder's amount is 0 (R468). -/
def State.endDonations (s : State) (n : Nat) : State :=
  s.modCluster n (fun c => { c with donations := c.donations.filter (fun d =>
    c.waiters.any (fun w => w.slot == d.waiter && w.peg == d.peg)
      && (tabGet c.pegs d.peg {}).held d.holder != 0) })

/-- Release a slot whose wait on a peg ends: it continues, or its PRE_WAIT is met. -/
def Slot.release (x : Slot) : Slot :=
  match x.hold with
  | .prePeg _ => { x with hold := .none, st := .active, preReady := true }
  | .preEvent _ => { x with hold := .none, st := .active, preReady := true }
  | _ => { x with hold := .none, st := .active }

/-- Does a job name an engine. -/
def Job.names (j : Job) (e : Engine) : Bool := j.engines.contains e

/-- Replace the first job of a slot that names an engine. -/
def updateJob (jobs : List Job) (i : Nat) (e : Engine) (f : Job → Job) : List Job :=
  match jobs with
  | [] => []
  | j :: rest => if j.slot = i ∧ j.names e then f j :: rest else j :: updateJob rest i e f

/-- A message command has its credit: its packet may leave (R532). -/
def State.creditTaken (s : State) (i : Nat) : State :=
  s.modCore (coreOfSlot i) (fun c => { c with jobs := updateJob c.jobs i .xfr (fun j => { j with wait := .none }) })

/-- The next waiter of a peg to be examined: highest effective priority, then arrival (R149). -/
def State.orderedWaiters (s : State) (n peg : Nat) : List Waiter :=
  sortBy (fun w => 7 - s.effPrio w.slot) ((s.cluster n).waiters.filter (·.peg == peg))

/-- Examine the waiters of a peg after its value changed: grant each take that fits, release each wait that is met;
one that cannot be satisfied does not hold back those behind it (R149). -/
def State.examine (s : State) (n peg : Nat) : State :=
  ((s.orderedWaiters n peg).foldl (fun (t : State) w =>
    let met := if w.keep then decide (w.amount ≤ (t.peg n peg).value.toNat) else t.takeReady n peg w.slot w.amount
    if met then
      let t := if w.keep then t else t.takePeg n peg w.slot w.amount
      let t := t.modCluster n (fun c => { c with
        waiters := c.waiters.filter (fun v => !(v.slot == w.slot && v.peg == peg && v.job == w.job)) })
      if w.job then t.creditTaken w.slot else t.modSlot w.slot Slot.release
    else t) s).endDonations n |>.donateAll n

/-- Is an island up: not browned out (R27, R678), by its code. -/
def State.up (s : State) (island : Nat) : Bool := !s.errors.islandsDown.contains island

/-- A give by a slot (`by_`), or by the hardware (none): it stops at 65,535 with OVF and the cluster's counter (R151), reduces
the giver's held amount (R464), and the waiters are examined (R149). -/
def State.givePeg (s : State) (name amount : Nat) (by_ : Option Nat) : State :=
  let n := name / 1024
  let peg := name % 1024
  let p := s.peg n peg
  let sum := p.value.toNat + amount
  let p1 : Peg := if 65535 < sum then { p with value := 65535, ovf := true } else { p with value := BitVec.ofNat 16 sum }
  let p2 := match by_ with
    | some i => if s.pegLock n peg then p1.withHeld i (p1.held i - amount) else p1
    | none => p1
  let s1 := s.setPeg n peg p2
  let s2 := if 65535 < sum then s1.bump (Key.at Key.pegOverflows n) else s1
  s2.examine n peg

/-- Put a slot among the waiters of a peg and donate (R149, R466). -/
def State.waitPeg (s : State) (n peg i amount : Nat) (keep : Bool) (job : Bool := false) : State :=
  let t := s.modCluster n (fun c => { c with waiters := c.waiters ++ [{ peg, slot := i, keep, amount, job }] })
  t.donateAll n

/-- The timers: what takes place at fixed times, or after a fixed delay. -/
def tmHeatA : Nat := 0
def tmHeatBC : Nat := 1
def tmCap : Nat := 2
def tmThermal : Nat := 3
def tmThermalTen : Nat := 4
def tmLifetime : Nat := 5
def tmExchange : Nat := 6
def tmTime : Nat := 7
def tmBeat : Nat := 8
def tmRun : Nat := 9
def tmReturn : Nat := 10
def tmSweep (n : Nat) : Nat := 11 + n
def tmPort (p : Nat) : Nat := 18 + p
def tmReplay (k : Nat) : Nat := 24 + k
def tmManager : Nat := 28
def tmActivate : Nat := 29
def tmIsland (k : Nat) : Nat := 32 + k

/-- A timer stands at the present. -/
def State.mark (s : State) (k : Nat) : State := { s with timers := tabSet s.timers k s.time }

def State.modPower (s : State) (f : Power → Power) : State := { s with power := f s.power }

/-- A return to ACTIVE begins; during an entry the wake is held, and a trip holds it until the sensors are cool (R744, R750,
R762). -/
def State.beginReturn (s : State) : State :=
  if s.power.entry.isSome then s.modPower (fun p => { p with heldWake := true })
  else if s.power.returning.isSome || s.power.tripped then s
  else match s.power.st with
    | .doze => (s.modPower (fun p => { p with returning := some .doze, returnStep := 5 })).mark tmReturn
    | .lantern => if s.power.vin then (s.modPower (fun p => { p with returning := some .lantern, returnStep := 1 })).mark tmReturn else s
    | _ => s

/-- Has a delay passed since a timer was set. -/
def State.passed (s : State) (k delay : Nat) : Bool := decide (tabGet s.timers k 0 + delay ≤ s.time)

/-- Has a new window [n × len, (n + 1) × len) begun since a timer was set (R51). -/
def State.windowBegun (s : State) (k len : Nat) : Bool := decide (tabGet s.timers k 0 / len < s.time / len)

/-- A request reaches a cluster that may be gated (R738, R749): in ACTIVE the cluster returns; in DOZE the module returns, and with it
the cluster. -/
def State.callCluster (s : State) (n : Nat) : State :=
  if !(s.cluster n).gated then s
  else if s.power.st = .active then s.modCluster n (fun c => { c with gated := false })
  else
    let s1 := s.modPower (fun p => { p with returnClusters := distinct (p.returnClusters ++ [n]) })
    if s.power.st = .doze then s1.beginReturn else s1

/-! ### Event lines (R41, R42, R153 to R155) -/

/-- May a slot of a pitch raise a line in a cluster: 0 to 127 and 192 to 223, allocated to the pitch (R155). -/
def State.mayRaise (s : State) (p n line : Nat) : Bool :=
  let r := s.pitch p
  (decide (line < 128) && decide (r.ent n 102 96 ≤ line) && decide (line < r.ent n 102 96 + r.ent n 110 103))
    || (decide (192 ≤ line) && decide (line < 224) && decide (192 + r.ent n 115 111 ≤ line)
      && decide (line < 192 + r.ent n 115 111 + r.ent n 121 116))

/-- Put a pulse of an island in flight on a line of a cluster (R26, R156); it arrives with EVENT_PULSE_ARRIVE. The cluster controller
itself raises those of no other island. -/
def State.pulse (s : State) (n line : Nat) (only : Option (List Nat) := none) (src : Nat := 48 + n) : State :=
  s.modCluster n (fun c => { c with pulses := c.pulses ++ [{ line, only, src }] })

/-- Raise a system line for the slots of some pitches, in every cluster where one of them has a share or a slot
(R481, R585). -/
def State.systemPulse (s : State) (line : Nat) (pitches : List Nat) : State :=
  (List.range 6).foldl (fun (t : State) n =>
    let ps := pitches.filter (fun p => ((t.pitch p).share n).2 != 0)
    if ps.isEmpty then t else t.pulse n line (some ps) 58) s

/-- Add a pulse to a pending counter; at 255 it is lost (R153). -/
def addPending (t : Tab Nat) (line : Nat) : Tab Nat × Bool :=
  if 255 ≤ tabGet t line 0 then (t, true) else (tabSet t line (tabGet t line 0 + 1), false)

/-- Consume one pending pulse of a slot's line. -/
def Slot.consume (x : Slot) (line : Nat) : Slot := { x with pending := tabSet x.pending line (tabGet x.pending line 0 - 1) }

/-! ### Shares of a slot (R44, R111, R113, R190) -/

def Slot.spBytes (x : Slot) : Nat := (x.spSizeM1 + 1) * 262144
def Slot.accTiles (x : Slot) : Nat := x.accSizeM1 + 1
def Slot.accBytes (x : Slot) : Nat := x.accTiles * 4096

/-- Bytes of a slot's scratchpad share. -/
def State.readSp (s : State) (i off n : Nat) : List Byte :=
  memRead (s.core (coreOfSlot i)).scratch ((s.slot i).spBase * 262144 + off) n
def State.writeSp (s : State) (i off : Nat) (bs : List Byte) : State :=
  let a := (s.slot i).spBase * 262144 + off
  s.modCore (coreOfSlot i) (fun c => { c with
    scratch := memWrite c.scratch a bs,
    spPoison := c.spPoison.filter (fun e => !(decide (a ≤ 64 * e.1) && decide (64 * e.1 + 64 ≤ a + bs.length))) })

/-- Bytes of a slot's accumulator share. -/
def State.readAcc (s : State) (i off n : Nat) : List Byte :=
  memRead (s.core (coreOfSlot i)).acc ((s.slot i).accBase * 4096 + off) n
def State.writeAcc (s : State) (i off : Nat) (bs : List Byte) : State :=
  let a := (s.slot i).accBase * 4096 + off
  s.modCore (coreOfSlot i) (fun c => { c with
    acc := memWrite c.acc a bs,
    accPoison := c.accPoison.filter (fun e => !(decide (a ≤ 64 * e.1) && decide (64 * e.1 + 64 ≤ a + bs.length))) })

/-- Bytes of a cluster's SRAM. -/
def State.readSram (s : State) (n a len : Nat) : List Byte := memRead (s.cluster n).sram a len
def State.writeSram (s : State) (n a : Nat) (bs : List Byte) : State :=
  s.modCluster n (fun c => { c with
    sram := memWrite c.sram a bs,
    sramPoison := c.sramPoison.filter (fun e => !(decide (a ≤ 64 * e.1) && decide (64 * e.1 + 64 ≤ a + bs.length))) })

/-- Does a byte range touch a poisoned 64 B line; the first such line. -/
def poisonIn (t : Tab Nat) (a n : Nat) : Option (Nat × Nat) :=
  t.find? (fun e => decide (64 * e.1 < a + n) && decide (a < 64 * e.1 + 64))

/-! ### Engines: claims, pre-emption, completion (R125 to R138) -/

/-- The engines of a mask of FENCE (R139): bit 0 engine 0, bit 1 engine 1, bit 2 vector, bit 3 transfer. -/
def maskEngines (m : Nat) : List Engine :=
  (if bit m 0 then [.m0] else []) ++ (if bit m 1 then [.m1] else []) ++ (if bit m 2 then [.vec] else [])
    ++ (if bit m 3 then [.xfr] else [])

/-- Does a slot hold a command on any of these engines (R127). -/
def State.slotBusy (s : State) (i : Nat) (es : List Engine) : Bool :=
  (s.core (coreOfSlot i)).jobs.any (fun j => j.slot == i && es.any (fun e => j.names e))

/-- The command running on an engine. -/
def Core.runner (c : Core) (e : Engine) : Option Job := c.jobs.find? (fun j => j.running.contains e)

/-- Does a job wait for a handle's hold: it then occupies no engine (R394, R407). -/
def Job.parked (j : Job) : Bool :=
  match j.wait with
  | .handle _ => true
  | _ => false

/-- Does a job begin on several engines together: it names more than one, of which ENGINE 0b10 counts for one (R125, R168). -/
def Job.multi (j : Job) : Bool :=
  if j.either then j.engines.any (fun e => e == .vec || e == .xfr) else decide (1 < j.engines.length)

/-- Does a job claim an engine: it names it, does not run on it, and waits for no handle. -/
def Job.claims (j : Job) (e : Engine) : Bool := j.names e && !j.running.contains e && !j.parked

/-- Runs no command on an engine. -/
def engineFree (jobs : List Job) (e : Engine) : Bool := !jobs.any (fun j => j.running.contains e)

/-- The first claimant of an engine among some jobs: highest effective priority, a waiting multi-engine command first among
equals, for it reserves its engines (R125), then the order of readiness (R128, R137). -/
def State.firstClaim (s : State) (jobs : List Job) : Option Job :=
  (sortBy (fun j => 2 * (7 - s.effPrio j.slot) + (if j.multi && !j.begun then 0 else 1)) jobs).head?

/-- The claimant of a free engine; one that names either matrix engine and can have engine 0 does not claim engine 1 (R168). -/
def State.claimant (s : State) (jobs : List Job) (e : Engine) : Option Job :=
  let cs := jobs.filter (fun j => j.claims e)
  let first := if engineFree jobs .m0 then s.firstClaim (jobs.filter (fun j => j.claims .m0)) else none
  s.firstClaim (if e = .m1 then cs.filter (fun j => !(j.either && first == some j)) else cs)

/-- Begin a job on an engine; one that names either matrix engine then names that one of the two (R168). -/
def Job.begin (j : Job) (e : Engine) : Job :=
  if j.either && (e == .m0 || e == .m1) then
    { j with engines := e :: j.engines.filter (fun k => k == .vec || k == .xfr), running := j.running ++ [e], either := false, begun := true }
  else { j with running := j.running ++ [e], begun := true }

/-- The engines on which a claimant of engine `e` begins together: `e` alone, or for a multi-engine command that has not begun,
all it names, with the matrix engine it has become the claimant of (R125). -/
def State.beginOn (s : State) (jobs : List Job) (j : Job) (e : Engine) : List Engine :=
  if j.multi && !j.begun then
    if j.either then
      let m := if e = .m0 || e = .m1 then e else if engineFree jobs .m0 && s.claimant jobs .m0 == some j then .m0 else .m1
      m :: j.engines.filter (fun k => k == .vec || k == .xfr)
    else j.engines
  else [e]

/-- A free engine goes to its claimant; one whose claimant still waits for another engine is reserved for it and runs nothing
(R125). -/
def State.assignEngine (s : State) (jobs : List Job) (e : Engine) : List Job :=
  if engineFree jobs e then
    match s.claimant jobs e with
    | none => jobs
    | some j =>
      let es := s.beginOn jobs j e
      if es.all (fun k => engineFree jobs k && s.claimant jobs k == some j) then
        es.foldl (fun js k => updateJob js j.slot k (fun j => j.begin k)) jobs
      else jobs
  else jobs

/-- Give each free engine of a core to its claimant. -/
def State.reassign (s : State) (c : Nat) : State :=
  s.modCore c (fun k => { k with jobs := [Engine.m0, .m1, .vec, .xfr].foldl s.assignEngine k.jobs })

/-- Add a command to its core and give it the free engines it names. -/
def State.addJob (s : State) (j : Job) : State :=
  (s.modCore (coreOfSlot j.slot) (fun c => { c with jobs := c.jobs ++ [j] })).reassign (coreOfSlot j.slot)

/-- The job of a slot on an engine. -/
def State.jobOf (s : State) (i : Nat) (e : Engine) : Option Job :=
  (s.core (coreOfSlot i)).jobs.find? (fun j => j.slot == i && j.names e)

/-- Change the job of a slot on an engine. -/
def State.modJob (s : State) (i : Nat) (e : Engine) (f : Job → Job) : State :=
  s.modCore (coreOfSlot i) (fun c => { c with jobs := updateJob c.jobs i e f })

/-! ### Number status (R97 to R99) -/

/-- Record what a slot's command met. -/
def State.meet (s : State) (i : Nat) (m : Met) : State :=
  s.modSlot i (fun x => { x with
    numFlags := x.numFlags ||| m.fl,
    satCount := BitVec.ofNat 32 (min 0xFFFFFFFF (x.satCount.toNat + m.sat)) })

/-! ### Event records to the host (R830, R831) -/

/-- A tick of the time base: 4 ns while it runs, in ACTIVE, DOZE and LANTERN (R45); 3 or 5 while it slews toward an
aligned count (R48). Every island's copy of fabric time equals it (R47; DESIGN CHOICE, log entry 114). -/
def State.tick (s : State) : State :=
  if s.power.st = .stowed || s.power.st = .off || !s.power.refclk then s
  else if s.mgmt.slewTo < 0 then { s with time := s.time + 3, mgmt := { s.mgmt with slewTo := s.mgmt.slewTo + 1 } }
  else if 0 < s.mgmt.slewTo then { s with time := s.time + 5, mgmt := { s.mgmt with slewTo := s.mgmt.slewTo - 1 } }
  else { s with time := s.time + 4 }

/-- Post an event record (R830, R831): KIND and up to 32 B of payload, stamped; EVT_PROD advances and vector 8 is
raised; a record beyond 4,096 unconsumed ones overwrites the oldest and EVT_LOST counts it. -/
def State.postNow (s : State) (kind : Nat) (payload : List Byte) : State :=
  let h := s.host
  let n := h.evtProd.toNat
  let record := natLe 8 s.time ++ natLe 4 kind ++ natLe 4 n ++ fitBytes 32 payload ++ List.replicate 16 0
  { s with host := { h with
    events := tabSet h.events (n % 4096) record
    evtProd := h.evtProd + 1
    evtLost := if 4096 ≤ (h.evtProd - h.evtCons).toNat then h.evtLost + 1 else h.evtLost
    vectors := h.vectors ++ [8] } }

/-- Post an event record; while the MC is browned out it waits for its return (R678). -/
def State.postEvent (s : State) (kind : Nat) (payload : List Byte) : State :=
  if s.up 59 then s.postNow kind payload else { s with host := { s.host with late := s.host.late ++ [(kind, payload)] } }

/-- The records that waited for the MC are posted. -/
def State.postLate (s : State) : State :=
  s.host.late.foldl (fun (t : State) e => t.postNow e.1 e.2) { s with host := { s.host with late := [] } }

end Sys2Proof.Machine
end

