-- ==== Sys2Proof/Machine/ErrorOps.lean ====
section
/-! DEFINITION. The fault log and the corrected-event windows (R664 to R669). -/

namespace Sys2Proof.Machine

/-- A pitch fault: its code and DETAIL (R485). -/
abbrev PitchFault := Nat × Nat

def fcRemoved := 0x00
def fcEccUncorr := 0x01
/-- ECC_UNCORR found in a line of a core's own memory, as the commands' checks name it: its DETAIL is KIND and LOCATION (R659). -/
def fcEccLine := 0x101
def fcKeyExpired := 0x02
def fcStaleRole := 0x03
def fcDonation := 0x04
def fcAddress := 0x05
def fcDescriptor := 0x06
def fcArith := 0x07
def fcUnreachable := 0x08
def fcTenant := 0x09
def fcWatchdog := 0x0A
def fcFlashRead := 0x0B
def fcQuota := 0x0C
def fcBrownout := 0x0D
def fcHandle := 0x0E

/-- Outcomes of the fault log (R667). -/
def ocCorrected := 0
def ocRefetched := 1
def ocUncorrectable := 2
def ocPoisonRead := 3
def ocRetryOk := 4
def ocBrownout := 5
def ocUnitFault := 6
def ocLaneDown := 7
def ocRetired := 8
def ocThreshold := 9

/-- Is an outcome posted to the host and committed within 1 s (R669). -/
def severe (outcome : Nat) : Bool :=
  [ocUncorrectable, ocBrownout, ocUnitFault, ocLaneDown, ocThreshold].contains outcome

/-- Is an outcome one that FaultLogClear removes and a full log replaces first (R668, R669). -/
def benign (outcome : Nat) : Bool := [ocCorrected, ocRefetched, ocRetryOk].contains outcome

/-- The 32 B of an entry (R665). -/
def FaultEntry.bytes (e : FaultEntry) : List Byte :=
  natLe 32 (e.pitch.getD 0 % 32 + flag e.pitch.isSome * 2 ^ 5 + e.symbols % 8 * 2 ^ 6 + e.cls % 4 * 2 ^ 9 + e.source % 8 * 2 ^ 11
    + e.outcome % 16 * 2 ^ 14 + e.kind % 16 * 2 ^ 18 + min 65535 e.count * 2 ^ 22 + e.frame % 2 ^ 26 * 2 ^ 38
    + e.location % 2 ^ 40 * 2 ^ 64 + e.seq % 2 ^ 24 * 2 ^ 104 + e.first % 2 ^ 64 * 2 ^ 128 + e.last % 2 ^ 64 * 2 ^ 192)

/-- The entry that a full log gives up: the benign one with the oldest LAST_STAMP, else the oldest (R668). -/
def victim (log : List FaultEntry) : Option Nat :=
  let pick := fun (es : List FaultEntry) => ((sortBy (·.last) es).head?).map (·.seq)
  (pick (log.filter (fun e => benign e.outcome))).or (pick log)

/-- Log an event: merged where KIND, LOCATION and OUTCOME equal an entry's, else a new entry (R668); a severe entry is
posted when first written (R669). -/
def State.logEvent (s : State) (ev : FaultEntry) : State :=
  let same := fun (e : FaultEntry) => e.kind == ev.kind && e.location == ev.location && e.outcome == ev.outcome
  if s.errors.log.any same then
    { s with errors := { s.errors with log := s.errors.log.map (fun e => if same e then
        { e with count := min 65535 (e.count + 1), last := s.time, symbols := max e.symbols ev.symbols } else e) } }
  else
    let full := 1024 ≤ s.errors.log.length
    let kept := if full then s.errors.log.filter (fun e => some e.seq != victim s.errors.log) else s.errors.log
    let e := { ev with seq := s.errors.nextSeq, first := s.time, last := s.time, count := 1 }
    let s1 : State := { s with errors := { s.errors with
      log := kept ++ [e], nextSeq := s.errors.nextSeq + 1, logDirty := s.errors.logDirty || severe ev.outcome } }
    let s2 := s1.bump Key.faultLogCount
    let s3 := if full then s2.bump Key.faultLogOverwrites else s2
    if severe ev.outcome then s3.postEvent 2 e.bytes else s3

/-- The window of corrected events to which a request-issue stamp belongs (R51, R53, R664). -/
def State.ceWindowOf (s : State) (stamp : Nat) : Nat := stamp / 1000000000 / s.obj Key.ceWindowS

/-- Count a corrected event of an LPDDR4X bank in the window of its request-issue stamp; at the threshold a THRESHOLD entry is logged,
once in a window (R664). -/
def State.countCorrected (s : State) (source location stamp : Nat) : State :=
  let bank := location / 2 ^ 27 % 512
  let k := 512 * s.ceWindowOf stamp + bank
  let n := tabGet s.errors.bankCounts k 0 + 1
  let s1 : State := { s with errors := { s.errors with
    bankCounts := tabSet s.errors.bankCounts k n, bankLife := tabMod s.errors.bankLife bank 0 (· + 1) } }
  if n = s.obj Key.ceBankThreshold then
    (s1.bump Key.ceBanksOverThreshold).logEvent { kind := 0, outcome := ocThreshold, location := bank * 2 ^ 27, source }
  else s1

/-- What an access of an LPDDR4X line found: counted and logged (R650, R651, R656, R663, R664, R681). -/
def State.lpddrFound (s : State) (source cls frame location stamp : Nat) (f : Finding) (pitch : Option Nat) : State :=
  let ev : FaultEntry := { kind := 0, outcome := 0, location, frame, source, cls, pitch }
  match f with
  | .clean => s
  | .corrected k => ((s.bump Key.lpddrCorrected).logEvent { ev with symbols := k }).countCorrected source location stamp
  | .refetched => s.logEvent { ev with outcome := ocRefetched }
  | .uncorrectable => (s.bump Key.lpddrUncorrectable).logEvent { ev with outcome := ocUncorrectable }
  | .poison => (s.bump Key.poisonReads).logEvent { ev with outcome := ocPoisonRead }

/-- What an access of an SRAM or of the groundsheet, whose code is class S, found (R653 to R656, R681). -/
def State.sramFound (s : State) (kind location source : Nat) (f : Finding) (pitch : Option Nat := none) (frame : Nat := 0) : State :=
  let ev : FaultEntry := { kind, outcome := 0, location, source, pitch, frame, cls := if kind = 4 then 0 else 3 }
  match f with
  | .clean => s
  | .corrected k => (s.bump Key.sramCorrected).logEvent { ev with symbols := k }
  | .refetched => s
  | .uncorrectable => (s.bump Key.sramUncorrectable).logEvent { ev with outcome := ocUncorrectable }
  | .poison => (s.bump Key.poisonReads).logEvent { ev with outcome := ocPoisonRead }

/-- DETAIL of a poisoned line of a cluster SRAM (R659, R666): KIND, and LOCATION of the line's first word. -/
def sramLine (n line : Nat) : Nat := 1 * 2 ^ 40 + n * 2 ^ 21 + line % 64 * 2 ^ 15 + line / 64 * 8

/-- A demand read that meets a poisoned line of a cluster SRAM: logged POISON_READ, and the fault it raises (R656, R659). -/
def State.sramPoisonRead (s : State) (n a len : Nat) (pitch : Nat) : State × Option PitchFault :=
  match poisonIn (s.cluster n).sramPoison a len with
  | none => (s, none)
  | some e => (s.sramFound 1 (sramLine n e.1 % 2 ^ 40) 0 .poison (some pitch), some (fcEccUncorr, sramLine n e.1))

/-- LOCATION of a 64 B line of a frame in the LPDDR4X (R284, R649, R666): every 2 MiB block lies in one die and bank of each of the
16 channels of a group; the sixteen 256 B units of a tile take the 16 channels in turn, and consecutive tiles start on different ones.
The hash behind it is internal: no reader can compute it. -/
def lpddrLine (frame line : Nat) : Nat :=
  let bank := Config.blockBank (frame / 512) % 32
  let channel := 16 * (bank / 16) + (Config.unitStart (frame / 512) + frame + line / 4) % 16
  channel * 2 ^ 31 + bank / 8 % 2 * 2 ^ 30 + bank % 8 * 2 ^ 27 + Config.unitCell frame (line / 4) % 2 ^ 27

end Sys2Proof.Machine
end

