-- ==== Sys2Proof/Machine/Tags.lean ====
section
/-! DEFINITION. Request tags (R38, R224 to R227), the flash write budget (R297, R870), and flash pages with their write streams
(R290 to R292). -/

namespace Sys2Proof.Machine

/-! ### Request tags (R38, R224 to R227) -/

/-- Tags a holder has reserved and may draw beside (R224). -/
def tagReserve (h : TagHolder) : Nat × Nat :=
  match h with
  | .engine _ => (512, 3584)
  | .tierUnit => (8192, 0)
  | .router => (16384, 16384)
  | .hostLink => (4096, 0)

/-- The lowest number above those listed in ascending order. -/
def firstGap : Nat → List Nat → Nat
  | n, [] => n
  | n, t :: ts => if t = n then firstGap (n + 1) ts else n

/-- Take one tag for a holder (R224, R225); none where it must wait (R39). -/
def State.takeTag (s : State) (h : TagHolder) (write flash : Bool) (pitch slot addr : Nat) : Option (Nat × State) :=
  let mine := s.tier.tags.filter (·.holder == h)
  let (res, extra) := tagReserve h
  let own := (mine.filter (!·.shared)).length
  let drawn := (mine.filter (·.shared)).length
  let pool := (s.tier.tags.filter (·.shared)).length
  let flashHeld := (s.tier.tags.filter (fun t => t.shared && t.flash)).length
  let sharedOk := decide (drawn < extra) && decide (pool < 77824)
      && (!flash || decide (flashHeld < s.obj Key.flashTagLimit))
  if own < res || sharedOk then
    let tag := firstGap 0 (sortBy id (s.tier.tags.map (·.tag)))
    let e : TagEntry := { tag, holder := h, shared := decide (res ≤ own), flash, write, pitch, slot, addr, stamp := s.time }
    let tags := s.tier.tags ++ [e]
    let s1 : State := { s with tier := { s.tier with tags := tags } }
    let s2 := s1.setObj Key.tagsInUse tags.length
    some (tag, s2.setObj Key.tagsHighWater (max (s2.obj Key.tagsHighWater) tags.length))
  else none

/-- The tags that are left (R226). -/
def State.keepTags (s : State) (keep : TagEntry → Bool) : State :=
  let tags := s.tier.tags.filter keep
  ({ s with tier := { s.tier with tags := tags } }).setObj Key.tagsInUse tags.length

/-- The slot that a tag names which no slot's command holds. -/
def noSlot : Nat := 384

/-- Free a tag (R226); frames that a switch left are released with the last read that uses them (R278). -/
def State.freeTag (s : State) (tag : Nat) : State :=
  let s1 := s.keepTags (·.tag != tag)
  if s1.tier.leaving.isEmpty then s1 else
  { s1 with tier := { s1.tier with
    leaving := (s1.tier.leaving.map (fun l => { l with tags := l.tags.filter (· != tag) })).filter (fun l => !l.tags.isEmpty) } }

/-- A request that the tier unit, or the host link, makes and has answered within one step: its tag is counted (R224, R227, R660). -/
def State.passTag (s : State) (h : TagHolder) : State :=
  match s.takeTag h false false 0 noSlot 0 with
  | none => s
  | some (t, s1) => s1.freeTag t

/-! ### The flash budget (R297, R870) -/

/-- Program bytes of flash payload as one charge: 4,608 B for each 4 KiB tile begun (R870). -/
def State.chargeFlash (s : State) (bytes : Nat) : State :=
  if bytes = 0 then s else
  let c := (bytes + 4095) / 4096 * 4608
  let b := s.tier.balance
  let s1 : State := { s with tier := { s.tier with balance := b - c } }
  let s2 := (s1.bump Key.flashBytesToday c).bump Key.flashBytesWritten c
  if 0 < b ∧ b - c ≤ 0 then s2.bump Key.flashBudgetExhausted else s2

/-- Program whole tiles (4,608 B each, R870). -/
def State.chargeTiles (s : State) (n : Nat) : State := s.chargeFlash (4096 * n)

/-- A journal record, fault log entry or other management record is programmed: one 4 KiB tile (R297, R870). -/
def State.chargeRecord (s : State) : State := s.chargeTiles 1

/-! ### Flash pages and write streams (R290 to R292) -/

/-- The write stream of a tenant tag and epoch; while an epoch is re-keyed its new entry has a stream of its own (R292, R717). -/
def streamKey (tag epoch entry : Nat) : Nat := (tag * 2 ^ 20 + epoch) * 4096 + entry
def FlashPage.key (f : FlashPage) : Nat := streamKey f.tag f.epoch f.entry
def Page.stream (g : Page) : Nat := streamKey g.tenantTag g.epoch g.keyIndex

/-- Does a flash page hold tiles of more than one page: it is a bundle (R291). -/
def FlashPage.bundle (f : FlashPage) : Bool := f.tiles.any (fun t => f.tiles.any (fun u => t.page != u.page))

/-- A stream is written: it becomes the last written one; a 65th combination closes the least recently written, whose unfilled flash
page stays as it is (R292). -/
def State.openStream (s : State) (k : Nat) : State :=
  let all := s.tier.openStreams.filter (· != k) ++ [k]
  let shut := if 64 < all.length then all.take 1 else []
  { s with tier := { s.tier with
    openStreams := if 64 < all.length then all.drop 1 else all
    flash := if shut.isEmpty then s.tier.flash else
      s.tier.flash.map (fun f => if shut.contains f.key then { f with isOpen := false } else f) } }

/-- Where a new flash page goes (R289, R291, R674): to its channel, on the die that the controller's map names, or on another one that is
not withdrawn, and to a later channel where both are. -/
def State.nextDie (s : State) (n channel : Nat) : Nat × Nat :=
  let all := (List.range 16).map (fun k => ((channel + k / 2) % 8, (Config.flashDie n + k) % 2))
  (all.find? (fun c => !s.tier.retiredDies.contains (2 * c.1 + c.2))).getD (channel, Config.flashDie n % 2)

/-- One tile of a page takes its place in the page's stream: in the flash page that the stream fills, or in a new one, on the channel
after that of the stream's last flash page (R290, R291). -/
def State.placeTile (s : State) (g : Page) (tile : Nat) : State :=
  let mine := s.tier.flash.filter (fun f => f.key == g.stream)
  let t : FlashTile := { page := g.id, tile }
  match mine.find? (fun f => f.isOpen && decide (f.tiles.length < 4)) with
  | some f => { s with tier := { s.tier with flash := s.tier.flash.map (fun h =>
      if h.number = f.number then { h with tiles := h.tiles ++ [t] } else h) } }
  | none =>
    let n := s.tier.flash.length
    let (channel, die) := s.nextDie n (mine.getLast?.elim (n % 8) (fun f => (f.channel + 1) % 8))
    { s with tier := { s.tier with flash := s.tier.flash ++ [{
      number := n, channel, die, tag := g.tenantTag, epoch := g.epoch, entry := g.keyIndex, tiles := [t] }] } }

/-- Tiles of a page that are to be written together take consecutive places (R291). -/
def State.placeTiles (s : State) (g : Page) (tiles : List Nat) : State :=
  tiles.foldl (fun (t : State) k => t.placeTile g k) (s.openStream g.stream)

/-- A placed tile is programmed: its header takes the next write sequence number, and it is charged (R290, R297). -/
def State.programTile (s : State) (g : Page) (tile : Nat) : State :=
  let s1 := s.openStream g.stream
  let q := s1.tier.flashSeq
  let mark := fun (t : FlashTile) => if t.page = g.id && t.tile = tile && !t.written then { t with seq := q, written := true } else t
  let put := fun (f : FlashPage) => if f.key = g.stream then { f with tiles := f.tiles.map mark } else f
  ({ s1 with tier := { s1.tier with
    flashSeq := (q + 1) % 2 ^ 64
    flash := s1.tier.flash.map put } }).chargeTiles 1

/-- Places taken for tiles of pages that are not written after all are free again (R279). -/
def State.dropPlaces (s : State) (pages : Nat → Bool) : State :=
  let keep := fun (f : FlashPage) => { f with tiles := f.tiles.filter (fun t => t.written || !pages t.page) }
  { s with tier := { s.tier with flash := s.tier.flash.map keep } }

/-- Tiles written in one go. -/
def State.programTiles (s : State) (g : Page) (tiles : List Nat) : State :=
  tiles.foldl (fun (t : State) k => t.programTile g k) (s.placeTiles g tiles)

/-- The write sequence number of a tile's last program below a bound, 0 where there is none. -/
def State.newestSeq (s : State) (page tile : Nat) (bound : Nat := 2 ^ 64) : Nat :=
  let hit := fun (t : FlashTile) => t.page == page && t.tile == tile && t.written && decide (t.seq < bound)
  s.tier.flash.foldl (fun n f => f.tiles.foldl (fun n t => if hit t then max n t.seq else n) n) 0

/-- Where a tile of a page lies in flash: the flash page of its last program below a bound (R290). -/
def State.flashPageOf (s : State) (page tile : Nat) (bound : Nat := 2 ^ 64) : Option FlashPage :=
  s.tier.flash.find? (fun f => f.tiles.any (fun t => t.page == page && t.tile == tile && t.written && decide (t.seq < bound)
    && t.seq == s.newestSeq page tile bound))

/-- LOCATION of a tile in flash (R666); plane, block and page are the controller's own. -/
def FlashPage.location (f : FlashPage) (page tile : Nat) : Nat :=
  f.channel * 2 ^ 30 + f.die % 2 * 2 ^ 29 + Config.flashCell f.number % 2 ^ 27 * 4
    + f.tiles.findIdx (fun t => t.page == page && t.tile == tile) % 4

/-! ### What an access of a page's line found (R646, R650 to R657) -/

/-- Has a tile of a tier C page arrived in tier B (R280). -/
def Page.arrived (g : Page) (t : Nat) : Bool := g.migration.elim false (fun m => m.dest == .b && m.done.contains t)

/-- Is a tile's authoritative copy in flash: the page is in tier C and the tile has not arrived (R280). -/
def Page.inFlash (g : Page) (t : Nat) : Bool := g.tier == .c && !g.arrived t

/-- What an access of the line at an offset of a page found is counted and logged where its authoritative copy lies: in a cluster's SRAM,
in the LPDDR4X, or in flash, where a poisoned line stands in the tile's poison map (R653, R656, R657, R665). -/
def State.lineFound (s : State) (g : Page) (off source stamp : Nat) (f : Finding) (pitch : Option Nat) : State :=
  let frame := g.frameB + off / 4096
  if g.tier = .a then s.sramFound 1 (sramLine g.home ((g.frameA + off) / 64) % 2 ^ 40) source f pitch ((g.frameA + off) / 4096)
  else if !g.inFlash (off / 4096) then s.lpddrFound source g.codeClass frame (lpddrLine frame (off % 4096 / 64)) stamp f pitch
  else if f = .poison then (s.bump Key.poisonReads).logEvent {
    kind := 5, outcome := ocPoisonRead, source, pitch
    location := (s.flashPageOf g.id (off / 4096)).elim 0 (·.location g.id (off / 4096)) }
  else s

/-- A read that meets a poisoned line of a page: logged POISON_READ with its frame (R656, R665). -/
def State.pagePoisonRead (s : State) (g : Page) (off : Nat) (pitch : Option Nat) (source : Nat) : State :=
  s.lineFound g off source s.time .poison pitch

/-- The read of a tile from flash (R293, R667): retried with shifted read levels, how often the spec leaves open where it succeeds in the
end, which is logged; seven times where it still fails, which is counted and logged. -/
def State.flashRetries (s : State) (g : Page) (tile source : Nat) (readable : Bool) (pitch : Option Nat) : State :=
  let n := if readable then Config.freeNat s.freeCtr % 8 else 7
  let s1 := (if readable then s.fresh.2 else s.bump Key.flashReadFails).bump Key.flashReadRetries n
  if n = 0 then s1
  else s1.logEvent {
    kind := 5, outcome := if readable then ocRetryOk else ocUncorrectable, source, pitch
    location := (s.flashPageOf g.id tile).elim 0 (·.location g.id tile) }

end Sys2Proof.Machine
end

