-- ==== Sys2Proof/Machine/TierOps.lean ====
section
/-! DEFINITION. State memory as every requester sees it (chapter 05): extents, pages, placement, heat, quotas, keys, and the
reads and writes of state addresses. -/

namespace Sys2Proof.Machine

/-- Size of a page in bytes (R251), and its tiles. -/
def Page.size (p : Page) : Nat := 4096 * 2 ^ p.sizeLog2
def Page.tiles (p : Page) : Nat := 2 ^ p.sizeLog2

/-- The tier B frame of a page that holds a state address (R254, R665). -/
def Page.frameOf (g : Page) (a : Nat) : Nat := g.frameB + (a - g.addr) / 4096

/-- Does a page hold a state address of a pitch. -/
def Page.covers (g : Page) (p a : Nat) : Bool := g.owner == some p && decide (g.addr ≤ a) && decide (a < g.addr + g.size)

/-- The page that covers a state address of a pitch. -/
def State.pageAt (s : State) (p a : Nat) : Option Page := s.tier.pages.find? (·.covers p a)

/-- The page of a metadata index. -/
def State.page (s : State) (id : Nat) : Option Page := s.tier.pages.find? (·.id == id)

/-- Change one page. -/
def State.modPage (s : State) (id : Nat) (f : Page → Page) : State :=
  { s with tier := { s.tier with pages := s.tier.pages.map (fun g => if g.id = id then f g else g) } }

/-- Remove one page. -/
def State.dropPage (s : State) (id : Nat) : State :=
  { s with tier := { s.tier with pages := s.tier.pages.filter (·.id != id) } }

/-- Does an extent hold a state address. -/
def Extent.holds (x : Extent) (a : Nat) : Bool := decide (x.base ≤ a) && decide (a < x.base + x.length)

/-- The extent of a pitch that holds a state address (R248). -/
def State.extentAt (s : State) (p a : Nat) : Option Extent := (s.pitch p).extents.find? (·.holds a)

/-- Do the extents of a pitch hold every byte of a range: each starts and ends at a multiple of 2 MiB (R248). -/
def State.inExtents (s : State) (p a n : Nat) : Bool :=
  (List.range (ceilDiv (a % 2097152 + n) 2097152)).all (fun i => (s.extentAt p ((a / 2097152 + i) * 2097152)).isSome)

/-! ### Capacity and use (R259, R260, R286, R300) -/

/-- Tier A bytes in a cluster, if the profile enables it (R260). -/
def State.tierABytes (s : State) (n : Nat) : Nat :=
  if bit (s.obj Key.profileClusters) n then s.obj (Key.tierABytesCluster + n) else 0

/-- Pages that hold frames in tier A of a cluster: authoritative there, or on the way there. -/
def State.pagesInA (s : State) (n : Nat) : List Page :=
  s.tier.pages.filter (fun g => (g.tier == .a && g.home == n)
    || (match g.migration with | some m => m.dest == .a && m.cluster == n | none => false))

/-- Bytes of a page's tier A block in a cluster: its frame there. -/
def Page.frameIn (g : Page) : Nat :=
  match g.migration with
  | some m => if m.dest = .a then m.frame else g.frameA
  | none => g.frameA

/-- Tier A blocks in use in a cluster, as (offset, bytes): of pages, and of frames not yet released after a switch (R278). -/
def State.usedA (s : State) (n : Nat) : List (Nat × Nat) :=
  (s.pagesInA n).map (fun g => (g.frameIn, g.size)) ++ (s.tier.leaving.filter (·.cluster == some n)).map (fun l => (l.frame, l.size))

/-- Frames of tier B (R648): granules of 1 GiB raw outside the system region, and the frames a granule holds in a class (R286).
The numbers of frames are the model's: the system region's first, then 262,144 to a granule (log entry 29). -/
def State.firstFrame (s : State) : Nat := if s.mb then 1048576 else 2097152
def State.granuleCount (s : State) : Nat := if s.mb then 60 else 120
def granuleFrames (cls : Nat) : Nat := 262144 * 64 / (if cls = 0 then 72 else if cls = 1 then 68 else 65)
def State.granuleOf (s : State) (f : Nat) : Nat := (f - s.firstFrame) / 262144

/-- Pages that hold tier B frames: every page in tier A or B keeps them (R261), and a promotion holds its frames. -/
def State.framedPages (s : State) : List Page :=
  s.tier.pages.filter (fun g => g.tier != .c || g.migration.elim false (fun m => m.dest == .b))

/-- The frames that a move within tier B goes to. -/
def Page.moveB (g : Page) : Option Nat := g.migration.bind (fun m => if g.tier = .b ∧ m.dest = .b then some m.frame else none)

/-- Tier B frames in use, as (first frame, frames, class): of pages, of moves within tier B, and those not yet released after a
switch (R278). -/
def State.usedB (s : State) : List (Nat × Nat × Nat) :=
  s.framedPages.map (fun g => (g.frameB, g.tiles, g.codeClass))
    ++ s.tier.pages.filterMap (fun g => g.moveB.map (fun f => (f, g.tiles, g.codeClass)))
    ++ (s.tier.leaving.filter (·.cluster.isNone)).map (fun l => (l.frame, l.size / 4096, l.cls))

/-- Class of a granule, none where it is free (R648). -/
def State.granuleClass (s : State) (g : Nat) : Option Nat :=
  (s.usedB.find? (fun x => s.granuleOf x.1 == g)).map (·.2.2)

/-- Is a frame withdrawn (R674): by FrameRetire, or as part of a 2 MiB block of a retired bank (R649; the hash is internal). -/
def State.frameRetired (s : State) (f : Nat) : Bool :=
  s.tier.retired.any (fun r => (r.1 == 6 && r.2.1 == f)
    || (r.1 == 7 && Config.blockBank (f / 512) % 32 == r.2.1 / 256 % 2 * 16 + r.2.1 % 16))

/-- Do `n` frames from `f` lie clear of retired ones. -/
def State.framesClear (s : State) (f n : Nat) : Bool :=
  s.tier.retired.isEmpty || (List.range n).all (fun k => !s.frameRetired (f + k))

/-- The lowest free run of `n` frames in a granule taken as of a class, aligned to its size: the buddy frame (R251). -/
def State.freeInGranule (s : State) (cls n g : Nat) : Option Nat :=
  let base := s.firstFrame + 262144 * g
  let used := s.usedB.filter (fun x => s.granuleOf x.1 == g)
  let retired := (s.tier.retired.filter (fun r => r.1 == 6 && s.granuleOf r.2.1 == g)).map (·.2.1 + 1)
  let blocks := if s.tier.retired.any (·.1 == 7) then (List.range 512).map (fun k => base + 512 * k) else []
  (sortBy id ((base :: used.map (fun u => u.1 + u.2.1) ++ retired ++ blocks).map (fun f => ceilDiv f n * n))).find? (fun f =>
    decide (f + n ≤ base + granuleFrames cls)
      && used.all (fun u => decide (f + n ≤ u.1) || decide (u.1 + u.2.1 ≤ f)) && s.framesClear f n)

/-- Frames for a page of a class: in a granule of the class, else in a free granule, which takes the class (R648). -/
def State.freeFrameB (s : State) (cls n : Nat) : Option Nat :=
  let gs := List.range s.granuleCount
  ((gs.filter (fun g => s.granuleClass g == some cls)).findSome? (s.freeInGranule cls n)).or
    ((gs.filter (fun g => s.granuleClass g == none)).findSome? (s.freeInGranule cls n))

/-- Tier B data capacity in bytes at the classes the granules have, a free one counted as class S, less retired frames (R286,
R648, R673). -/
def State.tierBCapacity (s : State) : Nat :=
  4096 * ((List.range s.granuleCount).foldl (fun n g => n + granuleFrames ((s.granuleClass g).getD 0)) 0)
    - 4096 * s.obj Key.retiredFrames

/-- Bytes of tier B frames in use. -/
def State.tierBUsed (s : State) : Nat := s.usedB.foldl (fun n u => n + 4096 * u.2.1) 0

def State.tierBFree (s : State) : Nat := s.tierBCapacity - s.tierBUsed

/-- Tier C capacity in bytes (R259, R303). -/
def State.tierCCapacity (s : State) : Nat :=
  (if s.mb then 768 else 1536) * 1073741824 / 16 * (16 - (s.tier.retired.filter (·.1 == 10)).length) - s.tier.retiredBlocks.length * Config.flashBlockBytes

/-- Has a page a valid copy of a tile in tier C; a page on its way there has its place for every tile. -/
def Page.heldInC (g : Page) (t : Nat) : Bool :=
  g.tier == .c || g.cleanCopy.contains t || g.migration.elim false (fun m => m.dest == .c)

/-- Tiles of a page of a set's committed checkpoint that are not the page's present copy (R303, R308): the page is gone, or the tile has
been written or programmed again since. -/
def State.onlyCommitted (s : State) (t : StateSet) (o : Page) : List Nat :=
  (List.range o.tiles).filter (fun k => !((s.page o.id).elim false (fun g => g.heldInC k && decide (s.newestSeq o.id k < t.commitSeq))))
def State.committedTiles (s : State) (t : StateSet) : Nat :=
  t.committedPages.foldl (fun n o => n + (s.onlyCommitted t o).length) 0

/-- Tier C use in bytes (R303). -/
def State.tierCUsed (s : State) : Nat :=
  4096 * (s.tier.pages.foldl (fun n g => n + ((List.range g.tiles).filter g.heldInC).length) 0
    + s.tier.sets.foldl (fun n t => n + s.committedTiles t) 0)
def State.tierCFree (s : State) : Nat := s.tierCCapacity - s.tierCUsed

/-- Mapped bytes of a pitch (R300), and its bytes in a tier. -/
def State.mappedBytes (s : State) (p : Nat) : Nat :=
  (s.tier.pages.filter (·.owner == some p)).foldl (fun n g => n + g.size) 0
def State.tierBytes (s : State) (p : Nat) (t : Tier) : Nat :=
  (s.tier.pages.filter (fun g => g.owner == some p && g.tier == t)).foldl (fun n g => n + g.size) 0

/-- Is a quarter of a cluster's SRAM retired (R674). -/
def State.quarterRetired (s : State) (n q : Nat) : Bool :=
  s.tier.retired.any (fun r => r.1 == 8 && r.2.1 / 256 == n && r.2.1 % 64 / 16 == q)

/-- Does a range of a cluster's SRAM lie in a retired quarter. -/
def State.inRetiredQuarter (s : State) (n a len : Nat) : Bool :=
  (List.range 4).any (fun q => decide (a < 4194304 * (q + 1)) && decide (4194304 * q < a + len) && s.quarterRetired n q)

/-- The lowest-addressed free aligned block of a size in tier A of a cluster (R871), as a frame offset in its SRAM. -/
def State.freeFrameA (s : State) (n size : Nat) : Option Nat :=
  let total := s.tierABytes n
  let base := 16777216 - total
  let used := s.usedA n
  ((List.range (total / size)).map (fun i => ceilDiv base size * size + i * size)).find? (fun a =>
    decide (a + size ≤ 16777216) && !s.inRetiredQuarter n a size
      && used.all (fun b => decide (a + size ≤ b.1) || decide (b.1 + b.2 ≤ a)))

/-- Tier A free bytes of a cluster. -/
def State.tierAFreeIn (s : State) (n : Nat) : Nat := s.tierABytes n - (s.usedA n).foldl (fun k b => k + b.2) 0

/-- Clusters a request tries for a tier A placement, in order (R871). -/
def State.homeOrder (s : State) (p : Nat) (rq : Requester) : List Nat :=
  match rq with
  | .core c => [c / 8]
  | _ =>
    let all := (List.range 6).filter (fun n => s.tierABytes n != 0)
    all.filter (fun n => ((s.pitch p).share n).2 != 0) ++ all.filter (fun n => ((s.pitch p).share n).2 == 0)

/-- A home cluster with a free block of a size, and the block (R871). -/
def State.placeA (s : State) (p size : Nat) (rq : Requester) : Option (Nat × Nat) :=
  (s.homeOrder p rq).findSome? (fun n => (s.freeFrameA n size).map (fun f => (n, f)))

/-! ### Translation (R256, R257) -/

/-- The four indices of a state address in its pitch's table (R256). -/
def tableIndices (a : Nat) : List Nat := [field a 47 39, field a 38 30, field a 29 21, field a 20 12]

/-- The code of a tier in TIER (R257). -/
def Tier.code (t : Tier) : Nat :=
  match t with
  | .a => 0
  | .b => 1
  | .c => 2

/-- FRAME of a page's leaf entry (R257): in tier A the frame's number counts the 4,096 frames of each cluster's SRAM. -/
def Page.entryFrame (g : Page) : Nat :=
  match g.tier with
  | .a => 4096 * g.home + g.frameA / 4096
  | .b => g.frameB
  | .c => 0

/-- The leaf entry of a page (R257). -/
def Page.leafEntry (g : Page) : Nat :=
  g.entryFrame % 2 ^ 26 + g.record % 2 ^ 24 * 2 ^ 32 + g.sizeLog2 % 16 * 2 ^ 56 + flag g.migration.isSome * 2 ^ 60
    + g.tier.code * 2 ^ 61 + 2 ^ 63

/-- The level of a page's leaves: the third for 2 MiB, else the fourth (R256). -/
def Page.leafLevel (g : Page) : Nat := if g.sizeLog2 = 9 then 3 else 4

/-- The state address of a path of indices. -/
def pathAddr (path : List Nat) : Nat := ((path ++ [0, 0, 0, 0]).take 4).foldl (fun a i => a * 512 + i) 0 * 4096

/-- The entry at a path of three or four indices of a pitch's table: the leaf of the page that covers it where the page's leaves lie at
that level, else 0, not valid (R256, R257). -/
def State.tableEntry (s : State) (p : Nat) (path : List Nat) : Nat :=
  match s.pageAt p (pathAddr path) with
  | some g => if g.leafLevel = path.length then g.leafEntry else 0
  | none => 0

/-! ### Day-key epochs and keys (R698, R705 to R707) -/

/-- The day number of a tenant at a fabric time (R707). -/
def State.dayOf (s : State) (t time : Nat) : Nat := (time / 1000000000 - (s.tenant t).rollOffset) / 86400

/-- The tenant's entry in state WRITE, standing or not. -/
def State.writeKey (s : State) (t : Nat) (standing : Bool) : Option (Nat × KeyEntry) :=
  s.sec.keys.find? (fun e => e.2.tenant == t && e.2.standing == standing && e.2.st == .write && decide (64 ≤ e.1))

/-- Is a key table entry usable for reads of an epoch: WRITE, READ or REKEY_OLD, and of that epoch still. -/
def State.entryLive (s : State) (index epoch : Nat) : Bool :=
  let k := tabGet s.sec.keys index {}
  (k.st == .write || k.st == .read || k.st == .rekeyOld) && k.epoch == epoch

/-- Is a page's key usable for reads. -/
def State.keyLive (s : State) (g : Page) : Bool := s.entryLive g.keyIndex g.epoch

/-- The key a new page takes (R705): index and epoch. -/
def State.newPageKey (s : State) (p : Nat) (x : Extent) : Nat × Nat :=
  let t := tenantOfTag (s.pitch p).tenantTag
  let standing := bit (s.obj (Key.at Key.extentKeyClass p)) x.number
  match s.writeKey t standing with
  | some (i, e) => (i, e.epoch)
  | none => (0, 0)

/-! ### KV spans as the tier unit sees them (R323, R328, R338, R374) -/

/-- H, G, D, layers and code format of a layout (R313). -/
def KvLayout.heads (l : KvLayout) : Nat := l.get 44 40 + 1
def KvLayout.group (l : KvLayout) : Nat := l.get 47 45 + 1
def KvLayout.dim (l : KvLayout) : Nat := if l.get 48 48 = 1 then 256 else 128
def KvLayout.layers (l : KvLayout) : Nat := l.get 39 32 + 1
def KvLayout.fmt (l : KvLayout) : Fmt := (fmtOf (l.get 51 49)).getD .int8

/-- Bytes of one row of D codes, and of one token of one layer (R314). -/
def KvLayout.rowBytes (l : KvLayout) : Nat := l.fmt.rowBytes l.dim
def KvLayout.tokenBytes (l : KvLayout) : Nat := 2 * l.heads * l.rowBytes

/-- Committed length of a layer, and the smallest over the layers (R318). -/
def KvSeq.len (q : KvSeq) (layer : Nat) : Nat := tabGet q.lens layer 0
def KvSeq.minLen (q : KvSeq) (layers : Nat) : Nat :=
  (List.range layers).foldl (fun m l => min m (q.len l)) (q.len 0)

/-- End of a span (R323), and whether it is closed. -/
def KvSpan.stop (sp : KvSpan) : Nat := sp.first + sp.count
def KvSeq.closed (q : KvSeq) (layers : Nat) (sp : KvSpan) : Bool := decide (sp.stop ≤ q.minLen layers)

/-- The layouts and sequences that a page's owner holds: its pitch, or its state set while that is detached. -/
def State.storeOf (s : State) (g : Page) : List KvLayout × List KvSeq :=
  match g.owner with
  | some p => ((s.pitch p).layouts, (s.pitch p).seqs)
  | none => (s.tier.sets.find? (·.id == g.stateSet)).elim ([], []) (fun t => (t.layouts, t.seqs))

/-- The sequence of a KV page, with its layers (R328). -/
def State.seqOfPage (s : State) (g : Page) : Option (KvSeq × Nat) :=
  let (ls, qs) := s.storeOf g
  (qs.find? (fun q => q.layout == g.layout && q.number == g.seq)).map (fun q =>
    (q, (ls.find? (·.number == g.layout)).elim 1 (·.layers)))

/-- Tiles that hold the companion block of a KV page in tier C: 2 B for each row (R326, R327). -/
def State.companionTiles (s : State) (g : Page) : Nat :=
  if g.kv then ((s.storeOf g).1.find? (·.number == g.layout)).elim 0 (fun l => ceilDiv (4 * l.heads * (g.size / l.tokenBytes)) 4096)
  else 0

/-- Does a page belong to an open span: one that is not closed (R323, R338). -/
def State.openKv (s : State) (g : Page) : Bool :=
  g.kv && (s.seqOfPage g).elim false (fun q => (q.1.spans[g.span]?).elim false (fun sp => !q.1.closed q.2 sp))

/-- Tokens committed to a KV page (R328). -/
def State.pageTokens (s : State) (g : Page) : Nat :=
  (s.seqOfPage g).elim 0 (fun q => (q.1.spans[g.span]?).elim 0 (fun sp => min sp.stop (q.1.len g.layer) - sp.first))

/-- The KV fields of a page's metadata record (R328). -/
def State.kvFields (s : State) (g : Page) : Nat :=
  let first := (s.seqOfPage g).elim 0 (fun q => (q.1.spans[g.span]?).elim 0 (·.first))
  g.keyIndex % 2 ^ 12 + flag (s.openKv g) * 2 ^ 28 + g.layout % 8 * 2 ^ 29 + g.seq % 2 ^ 16 * 2 ^ 32 + g.layer % 2 ^ 8 * 2 ^ 48
    + g.span % 2 ^ 24 * 2 ^ 56 + s.pageTokens g % 2 ^ 16 * 2 ^ 80 + first % 2 ^ 32 * 2 ^ 96

/-- A sequence loses a page: a span that nothing is to be appended to any more and that has no page left is freed with its sketch, and
BASE_SPAN passes leading freed spans (R374). -/
def KvSeq.lose (q : KvSeq) (layers : Nat) (g : Page) : KvSeq :=
  let spans := ((List.range q.spans.length).zip q.spans).map (fun e =>
    if e.1 = g.span && e.2.pages.contains (g.layer, g.addr) then
      let pages := e.2.pages.filter (· != (g.layer, g.addr))
      { e.2 with pages, freed := e.2.freed || (pages.isEmpty && (e.2.fixed || q.closed layers e.2)) }
    else e.2)
  { q with
    spans
    baseSpan := (spans.takeWhile (·.freed)).length
    sketches := q.sketches.filter (fun e => (spans[e.1]?).elim false (!·.freed)) }

/-- A KV page that is freed leaves its sequence (R374). -/
def State.loseKv (s : State) (g : Page) : State :=
  let lose := fun (ls : List KvLayout) (q : KvSeq) =>
    if q.layout = g.layout ∧ q.number = g.seq then q.lose ((ls.find? (·.number == g.layout)).elim 1 (·.layers)) g else q
  match g.owner with
  | some p => s.modPitch p (fun r => { r with seqs := r.seqs.map (lose r.layouts) })
  | none => { s with tier := { s.tier with sets := s.tier.sets.map (fun t =>
      if t.id = g.stateSet then { t with seqs := t.seqs.map (lose t.layouts) } else t) } }

/-! ### Migrations (R267 to R281) -/

/-- Migrations in progress; at most 16 at once (R273). -/
def State.migrations (s : State) : Nat := (s.tier.pages.filter (·.migration.isSome)).length

/-- Tiles of a page that a demotion to tier C has to write (R279). -/
def Page.uncopied (g : Page) : List Nat := (List.range g.tiles).filter (fun t => !g.cleanCopy.contains t)

/-- Start a migration of a page: to another tier; for a page of tier B, to frames of tier B; for one of tier C, to new tiles under its
new key (R274, R674, R706, R717). It takes a tag
of the tier unit's reserve (R224, R273); one out of tier C takes frames of tier B for it (R648), and one to tier C needs space there. -/
def State.startMigration (s : State) (id : Nat) (dest : Tier) (cluster frame : Nat) (rekey : Option (Nat × Nat) := none) : State :=
  match s.page id with
  | none => s
  | some g =>
    if 16 ≤ s.migrations || g.migration.isSome || (dest == .c && decide (s.tierCFree < 4096 * g.uncopied.length)) then s
    else match s.takeTag .tierUnit false false 0 noSlot g.addr with
      | none => s
      | some (t, s1) =>
        let m : Migration := { dest, cluster, frame, rekey, tag := t }
        if g.tier = .c && dest == .b then
          match s.freeFrameB g.codeClass g.tiles with
          | none => s
          | some f => s1.modPage id (fun g => { g with frameB := f, migration := some m })
        else s1.modPage id (fun g => { g with migration := some m })

/-- The migrations of pages are abandoned: counted, and their tags free (R226, R281). The pages keep them until the caller ends them. -/
def State.countAborts (s : State) (hit : Page → Bool) : State :=
  let ms := (s.tier.pages.filter hit).filterMap (·.migration)
  if ms.isEmpty then s else
  let s1 := s.keepTags (fun e => !ms.any (·.tag == e.tag))
  let s2 := s1.dropPlaces (fun id => (s.tier.pages.filter hit).any (·.id == id))
  s2.bump Key.migrationAborts ms.length

/-- Abandon a page's migration (R276, R281). -/
def State.abandon (s : State) (id : Nat) : State := (s.countAborts (·.id == id)).modPage id (fun g => { g with migration := none })

/-- Free pages: any migration of one is abandoned with it (R254, R281), and a KV page leaves its sequence (R374). -/
def State.freePages (s : State) (gone : Page → Bool) : State :=
  let s1 := s.countAborts gone
  (s.tier.pages.filter (fun g => gone g && g.kv)).foldl State.loseKv
    { s1 with tier := { s1.tier with pages := s1.tier.pages.filter (fun g => !gone g) } }

/-- Does a command in progress name a KV sequence (R320). -/
def State.seqBusy (s : State) (p : Nat) (q : KvSeq) : Bool :=
  s.cores.any (fun c => c.2.jobs.any (fun j => (s.slot j.slot).pitch == p && j.seqs.contains (q.layout, q.number)))

/-- A dropped sequence goes: its pages, its sketches and the sequence itself (R320). -/
def State.dropSeq (s : State) (p : Nat) (q : KvSeq) : State :=
  (s.freePages (fun g => g.kv && g.owner == some p && g.layout == q.layout && g.seq == q.number)).modPitch p (fun r => { r with
    seqs := r.seqs.filter (fun o => !(o.layout == q.layout && o.number == q.number)) })

/-- The drops of a pitch's sequences that no command in progress names any more take effect (R320). -/
def State.finishDrops (s : State) (p : Nat) : State :=
  ((s.pitch p).seqs.filter (·.dropping)).foldl (fun (t : State) q => if t.seqBusy p q then t else t.dropSeq p q) s

/-- Free a page (R254). -/
def State.freePage (s : State) (id : Nat) : State := s.freePages (·.id == id)

/-- Pages of tier A that may be demoted in a cluster, coldest first (R267, R268); one whose migration was aborted waits for the next
halving (R276). -/
def State.coldA (s : State) (n : Nat) : List Page :=
  sortBy (·.heat) (s.tier.pages.filter (fun g => g.tier == .a && g.home == n && g.pin == 0
    && decide (g.heat ≤ s.obj Key.demoteAB) && !bit g.excl 1 && g.migration.isNone && !g.aborted))

/-- Bytes of tier A that some clusters are about to release: pages on their way to tier B, and frames that reads still use. -/
def State.leavingA (s : State) (ns : List Nat) : Nat :=
  (s.tier.pages.filter (fun g => g.tier == .a && ns.contains g.home && g.migration.isSome)).foldl (fun k g => k + g.size) 0
    + (s.tier.leaving.filter (fun l => l.cluster.elim false ns.contains)).foldl (fun k l => k + l.size) 0

/-- Demote the coldest tier A pages of some clusters until what leaves covers a need (R267). -/
def State.demoteAFor (s : State) (ns : List Nat) (need : Nat) : State :=
  ((sortBy (·.heat) (ns.flatMap s.coldA)).foldl (fun (acc : State × Nat) g =>
    if need ≤ acc.2 then acc else (acc.1.startMigration g.id .b 0 0, acc.2 + g.size)) (s, s.leavingA ns)).1

/-- Tier A free bytes lie below the low water mark, what is about to leave counted as free (R268). -/
def State.tierALow (s : State) : Bool :=
  let total := (List.range 6).foldl (fun n k => n + s.tierABytes k) 0
  let free := (List.range 6).foldl (fun n k => n + s.tierAFreeIn k) 0
  decide ((free + s.leavingA (List.range 6)) * 100 < total * s.obj Key.tierALowWaterPct)

/-- Cold pages leave tier A, coldest first, while its free space is low (R268). -/
def State.drainA (s : State) : State :=
  if s.tierALow then
    (sortBy (·.heat) ((List.range 6).flatMap s.coldA)).foldl (fun (t : State) g =>
      if t.tierALow then t.startMigration g.id .b 0 0 else t) s
  else s

/-- Pages of tier B that may go to tier C: coldest, then earlier last access, then lower metadata index (R270). -/
def State.coldB (s : State) : List Page :=
  sortBy (·.heat) (sortBy (·.lastAccess) (sortBy (·.record) (s.tier.pages.filter (fun g => g.tier == .b && g.pin == 0
    && decide (g.heat ≤ s.obj Key.demoteBC) && !bit g.excl 2 && g.migration.isNone && s.keyLive g && !s.openKv g))))

/-- Bytes of tier B that are about to be released: pages on their way to tier C, and frames that reads still use. -/
def State.leavingB (s : State) : Nat :=
  (s.tier.pages.filter (fun g => g.tier == .b && g.migration.elim false (fun m => m.dest == .c))).foldl (fun n g => n + g.size) 0
    + (s.tier.leaving.filter (·.cluster.isNone)).foldl (fun n l => n + l.size) 0

/-- The flash balance is above its floor (R297, R301). -/
def State.aboveFloor (s : State) : Bool := decide (-(s.obj Key.flashDailyBudget : Int) < s.tier.balance)

/-- Does a request of an OVERDRAW pitch wait for tier B space (R301). -/
def State.overdrawn (s : State) : Bool :=
  s.aboveFloor && s.tier.stalled.any (fun w => s.obj (Key.at Key.quotaPolicy w.pitch) == 2)

/-- May a demotion to tier C go on: the balance is above 0 (R297), or a request under OVERDRAW waits and it is above its floor (R301). -/
def State.mayDemote (s : State) : Bool := decide (0 < s.tier.balance) || s.overdrawn

/-- Tier B below its low water mark demotes pages until its free space reaches the high mark (R270); demotions wait while the
flash balance is 0 or below (R297), but for requests under OVERDRAW (R301). -/
def State.demoteB (s : State) : State :=
  let cap := s.tierBCapacity
  let free := s.tierBFree * 100
  let on := (s.tier.demoting || decide (free < cap * s.obj Key.tierBLowWaterPct)) && decide (free < cap * s.obj Key.tierBHighWaterPct)
  let s1 : State := { s with tier := { s.tier with demoting := on } }
  if on && s.mayDemote then
    (s1.coldB.foldl (fun (acc : State × Nat) g =>
      if cap * s.obj Key.tierBHighWaterPct ≤ (s.tierBFree + acc.2) * 100 ∨ 16 ≤ acc.1.migrations then acc
      else (acc.1.startMigration g.id .c 0 0, acc.2 + g.size)) (s1, s1.leavingB)).1
  else s1

/-- May a page be promoted to tier A: its heat reached PromoteBA, and its pitch's limit permits it (R267, R276). -/
def State.wouldPromoteA (s : State) (g : Page) (p : Nat) : Bool :=
  g.tier == .b && g.pin == 0 && !bit g.excl 0 && decide (s.obj Key.promoteBA ≤ g.heat) && g.migration.isNone
    && !g.aborted && decide (s.tierBytes p .a + g.size ≤ s.obj (Key.at Key.tierALimitBytes p))

/-- Note whose promotion to tier A waits for frames, or for one of the 16 migrations (R267, R273). -/
def State.setWantsA (s : State) (id : Nat) (w : Option Requester) : State := s.modPage id (fun g => { g with wantsA := w })

/-- A promotion to tier A (R267): into free frames, else after pages that are demoted for it; where none qualifies the page stays. -/
def State.tryPromoteA (s : State) (g : Page) (rq : Requester) : State :=
  match g.owner with
  | none => s
  | some p =>
    if s.wouldPromoteA g p then
      match s.placeA p g.size rq with
      | some (n, f) => ((s.startMigration g.id .a n f).setWantsA g.id (if 16 ≤ s.migrations then some rq else none)).drainA
      | none =>
        let ns := s.homeOrder p rq
        let s1 := s.demoteAFor ns g.size
        s1.setWantsA g.id (if s1.leavingA ns = 0 then none else some rq)
    else s.setWantsA g.id none

/-- Promotions that waited for frames of tier A go on (R267). -/
def State.resumeA (s : State) : State :=
  (s.tier.pages.filter (·.wantsA.isSome)).foldl (fun (t : State) o =>
    match t.page o.id with
    | some g => g.wantsA.elim t (t.tryPromoteA g)
    | none => t) s

/-- A promotion from tier C whose heat reached PromoteCB (R269); it takes frames of tier B (R270). -/
def State.tryPromoteB (s : State) (g : Page) : State :=
  if g.tier == .c && g.pin == 0 && !bit g.excl 1 && decide (s.obj Key.promoteCB ≤ g.heat) && g.migration.isNone
      then (s.startMigration g.id .b 0 0).demoteB
  else s

/-- One request touches a page: heat + 1 stopping at 255, last access, promotions (R265, R267, R269). -/
def State.touch (s : State) (id : Nat) (rq : Requester) : State :=
  let s := s.modPage id (fun g => { g with heat := min 255 (g.heat + 1), lastAccess := s.time })
  match s.page id with
  | none => s
  | some g => if g.tier = .c then s.tryPromoteB g else s.tryPromoteA g rq

/-! ### Moves that pins and exclusions require (R271, R281) -/

/-- The tier a page must move to, if its pin or exclusions do not permit the one it is in. -/
def Page.mustMove (g : Page) : Option Tier :=
  let need : Option Tier := match g.pin with
    | 1 => some .a
    | 2 => some .b
    | 3 => some .c
    | _ =>
      match g.tier with
      | .a => if bit g.excl 0 then (if bit g.excl 1 then some .c else some .b) else none
      | .b => if bit g.excl 1 then (if bit g.excl 0 then some .c else some .a) else none
      | .c => if bit g.excl 2 then (if bit g.excl 1 then some .a else some .b) else none
  match need with
  | some t => if t = g.tier then none else some t
  | none => none

/-- Start the move that a page's pin or exclusions require; a move to tier C waits for the flash balance (R297). A page
leaves tier C only for tier B (R269). -/
def State.enforcePin (s : State) (id : Nat) : State :=
  match s.page id with
  | none => s
  | some g =>
    if g.tier == .a && s.inRetiredQuarter g.home g.frameA g.size then s.startMigration id .b 0 0
    else match g.mustMove with
    | none => s
    | some t =>
      if g.tier = .c then s.startMigration id .b 0 0
      else match t with
        | .b => s.startMigration id .b 0 0
        | .c => if g.tier = .b then (if 0 < s.tier.balance && !s.openKv g then s.startMigration id .c 0 0 else s)
          else s.startMigration id .b 0 0
        | .a =>
          match s.placeA (g.owner.getD 0) g.size .firmware with
          | some (n, f) => s.startMigration id .a n f
          | none => s

/-- Enforce every page's pin and exclusions. -/
def State.enforceAll (s : State) : State := (s.tier.pages.map (·.id)).foldl State.enforcePin s

/-! ### Allocation and free (R252 to R255, R300, R301) -/

/-- Why a write waits: for a tile, a switch or a roll; for tier B space that R270 is making; or under the pitch's quota policy, whose
time runs (R263, R301, R706, R709). -/
inductive Waits
  | tile | space | policy
  deriving DecidableEq, Repr

/-- What keeps an allocation or a write from being made: a pitch fault, or a wait at a state address. -/
inductive AllocStop
  | fault (f : PitchFault)
  | stall (addr : Nat) (why : Waits)
  deriving DecidableEq, Repr

/-- Has tier C no room: for a tile, or for what any page that may be demoted would write (R301). -/
def State.tierCFull (s : State) : Bool :=
  decide (s.tierCFree < 4096)
    || (!s.coldB.isEmpty && s.coldB.all (fun g => decide (s.tierCFree < 4096 * g.uncopied.length)))

/-- R270 can free no space: the flash balance is spent, or tier C is full and nothing is on its way there (R301). -/
def State.cannotFree (s : State) : Bool := decide (s.tier.balance ≤ 0) || (decide (s.leavingB = 0) && s.tierCFull)

/-- What a request at a state address meets where tier B is full (R301): while R270 can free space it waits; else the pitch's
QuotaPolicy applies. -/
def State.roomStop (s : State) (p a : Nat) : AllocStop :=
  if !s.cannotFree then .stall a .space
  else match s.obj (Key.at Key.quotaPolicy p) with
    | 1 => .fault (fcQuota, a)
    | 2 => .stall a (if s.aboveFloor && !s.tierCFull then .space else .policy)
    | _ => .stall a .policy

/-- The quota and capacity checks of an allocation (R255, R300, R301). -/
def State.allocStop (s : State) (p a size cls : Nat) : Option AllocStop :=
  let q := s.obj (Key.at Key.stateQuotaBytes p)
  if 16777216 ≤ s.tier.pages.length then some (.fault (fcQuota, a))
  else if q != 0 && decide (q < s.mappedBytes p + size) then some (.fault (fcQuota, a))
  else if (s.freeFrameB cls (size / 4096)).isNone then some (s.roomStop p a)
  else none

/-- The lowest metadata index that no page has (R257). -/
def State.freeRecord (s : State) : Nat := firstGap 0 (sortBy id (s.tier.pages.map (·.record)))

/-- Make a page (R252, R253): zero-filled, with its pin, exclusions, key and placement; a tier that its pin or exclusions forbid it
leaves at once (R271); `mark` makes it a page of the KV store or of a state handle. -/
def State.makePage (s : State) (p a sizeLog2 : Nat) (x : Extent) (rq : Requester) (mark : Page → Page := id) : State :=
  let size := 4096 * 2 ^ sizeLog2
  let (ki, ep) := s.newPageKey p x
  let inA := if x.initTier = 0 && decide (s.tierBytes p .a + size ≤ s.obj (Key.at Key.tierALimitBytes p)) then
      s.placeA p size rq else none
  let g : Page := {
    id := s.tier.nextPage, record := s.freeRecord, owner := some p, stateSet := x.stateSet, addr := a, sizeLog2, pin := x.pin, excl := x.excl,
    codeClass := x.codeClass, tenantTag := (s.pitch p).tenantTag, keyIndex := ki, epoch := ep, lastAccess := s.time,
    tier := if inA.isSome then .a else .b, home := inA.elim 0 (·.1), frameA := inA.elim 0 (·.2),
    frameB := (s.freeFrameB x.codeClass (2 ^ sizeLog2)).getD 0 }
  let s : State := { s with tier := { s.tier with pages := s.tier.pages ++ [mark g], nextPage := s.tier.nextPage + 1 } }
  ((s.enforcePin g.id).demoteB).drainA

/-- Allocate the page that a first write to an uncovered tile needs (R252): the extent's smallest size, or the largest
aligned size that overlaps no page (R253's overlap cannot arise at MIN_LOG2 alignment unless a smaller page stands there). -/
def State.allocAt (s : State) (p a : Nat) (x : Extent) (rq : Requester) : State × Option AllocStop :=
  let size := 4096 * 2 ^ x.minLog2
  match s.allocStop p a size x.codeClass with
  | some e => (s, some e)
  | none => (s.makePage p (a / size * size) x.minLog2 x rq, none)

/-- Explicit allocation of a page (R253): an overlap is DESCRIPTOR_INVALID. -/
def State.allocPage (s : State) (p a sizeLog2 : Nat) (rq : Requester) (mark : Page → Page := id) : State × Option AllocStop :=
  let size := 4096 * 2 ^ sizeLog2
  match s.extentAt p a with
  | none => (s, some (.fault (fcAddress, a)))
  | some x =>
    if sizeLog2 < x.minLog2 || x.maxLog2 < sizeLog2 || a % size != 0 || !x.holds (a + size - 1)
        || s.tier.pages.any (fun g => g.owner == some p && decide (g.addr < a + size) && decide (a < g.addr + g.size)) then
      (s, some (.fault (fcDescriptor, a)))
    else match s.allocStop p a size x.codeClass with
      | some e => (s, some e)
      | none => (s.makePage p a sizeLog2 x rq mark, none)

/-! ### Requests (R196, R252, R262, R263, R275, R293, R656 to R659, R706, R714) -/

/-- Split a byte range at tile boundaries: requests of R38. -/
def tileChunks : Nat → Nat → Nat → List (Nat × Nat)
  | 0, _, _ => []
  | fuel + 1, a, n =>
    if n = 0 then []
    else
      let k := min n (4096 - a % 4096)
      (a, k) :: tileChunks fuel (a + k) (n - k)

/-- The requests of a byte range. -/
def requests (a n : Nat) : List (Nat × Nat) := tileChunks (n / 4096 + 2) a n

/-- Is the authoritative copy of the tile at a state address of a pitch in flash: its request is the flash controller's (R225). -/
def State.inFlash (s : State) (p a : Nat) : Bool := (s.pageAt p a).elim false (fun g => g.inFlash ((a - g.addr) / 4096))

/-- The poison a read of a page range meets: expired key, unreadable flash tile, poisoned line. -/
def State.pagePoison (s : State) (g : Page) (a n : Nat) : Option PitchFault :=
  if !s.keyLive g then some (fcKeyExpired, a)
  else if g.unreadable.contains ((a - g.addr) / 4096) && g.inFlash ((a - g.addr) / 4096) then some (fcFlashRead, a)
  else match poisonIn g.poison (a - g.addr) n with
    | some e => some (fcEccUncorr, max a (g.addr + 64 * e.1))
    | none => none

/-- One request that reads (R252, R263, R265, R280). -/
def State.readTile (s : State) (p a n : Nat) (rq : Requester) : State × List Byte × Option PitchFault :=
  match s.extentAt p a with
  | none => (s, [], some (fcAddress, a))
  | some x =>
    if !x.holds (a + n - 1) then (s, [], some (fcAddress, x.base + x.length))
    else match s.pageAt p a with
      | none => (s, List.replicate n 0, none)
      | some g =>
        let s1 := s.touch g.id rq
        let s2 := if g.inFlash ((a - g.addr) / 4096) then s1.bump Key.flashDirectReads
          else if g.tier ≠ .a then s1.bump Key.lpddrReadBytes n else s1
        match s.pagePoison g a n with
        | some f => ((if f.1 = fcEccUncorr then s2.pagePoisonRead g (f.2 - g.addr) (some p) 0 else s2), [], some f)
        | none => (s2, memRead g.data (a - g.addr) n, none)

/-- A read of a state range: one request per tile; the first fault ends it. -/
def State.readState (s : State) (p a n : Nat) (rq : Requester) : State × List Byte × Option PitchFault :=
  (requests a n).foldl (fun acc c =>
    match acc with
    | (s, bs, some f) => (s, bs, some f)
    | (s, bs, none) =>
      let (s, more, f) := s.readTile p c.1 c.2 rq
      (s, bs ++ more, f)) (s, [], none)

/-- Tiles of a page that a byte range touches. -/
def tilesOf (off n : Nat) : List Nat := (List.range (ceilDiv (off % 4096 + n) 4096)).map (fun i => off / 4096 + i)

/-- Commit bytes to a page: data, dirty tiles, clean copies void, poison of whole lines cleared, tiles of a running
migration marked (R261, R276, R279, R658). -/
def Page.commit (g : Page) (off : Nat) (bs : List Byte) : Page :=
  let ts := tilesOf off bs.length
  { g with
    data := memWrite g.data off bs
    dirty := distinct (g.dirty ++ ts)
    cleanCopy := g.cleanCopy.filter (fun t => !ts.contains t)
    poison := g.poison.filter (fun e => !(decide (off ≤ 64 * e.1) && decide (64 * e.1 + 64 ≤ off + bs.length)))
    migration := match g.migration with
      | none => none
      | some m =>
        if g.tier = .b && m.dest = .c then none
        else some { m with marked := distinct (m.marked ++ (ts.filter (fun t => m.done.contains t && g.tier != .c))) } }

/-- A poisoned line that a write covers only in part (R652). -/
def Page.partialPoison (g : Page) (off n : Nat) : Option Nat :=
  (g.poison.find? (fun e => decide (64 * e.1 < off + n) && decide (off < 64 * e.1 + 64)
    && !(decide (off ≤ 64 * e.1) && decide (64 * e.1 + 64 ≤ off + n)))).map (·.1)

/-- The key entry and epoch to which a write issued now moves a page (R706, R869); KV pages never move (R339). -/
def State.laterKey (s : State) (g : Page) : Option (Nat × Nat) :=
  let t := tenantOfTag g.tenantTag
  match s.writeKey t false with
  | none => none
  | some (i, e) =>
    if !g.kv && !(tabGet s.sec.keys g.keyIndex {}).standing && decide (g.epoch < e.epoch)
        && decide (e.epoch ≤ s.dayOf t s.time) then some (i, e.epoch) else none

/-- A page is under another key: its copies in flash are void (R706). -/
def Page.underKey (g : Page) (k : Nat × Nat) : Page :=
  { g with keyIndex := k.1, epoch := k.2, cleanCopy := [], dirty := List.range g.tiles }

/-- The last tile of a promotion from tier C has arrived: the page is in tier B, and the flash copies of unwritten tiles are clean
copies of it (R280). -/
def Page.promoted (g : Page) : Page := { g with
  tier := .b, migration := none,
  cleanCopy := (List.range g.tiles).filter (fun k => !g.dirty.contains k && (poisonIn g.poison (4096 * k) 4096).isNone) }

/-- A tile of a page under promotion from tier C becomes authoritative in tier B (R280); an unreadable one arrives with
every line poisoned. The entry's tier changes with the last. -/
def Page.arrive (g : Page) (t : Nat) (readable : Bool) : Page :=
  match g.migration with
  | none => g
  | some m =>
    if g.tier != .c || m.dest != .b || g.tiles ≤ t || m.done.contains t then g
    else
      let bad := !readable || g.unreadable.contains t
      let done := m.done ++ [t]
      let g1 := { g with
        poison := if bad then (List.range 64).foldl (fun p i => tabSet p (64 * t + i) fcEccUncorr) g.poison else g.poison
        unreadable := g.unreadable.filter (· != t)
        migration := some { m with done := done, waiting := m.waiting.filter (· != t) } }
      if g.tiles ≤ done.length then g1.promoted else g1

/-- The tile that a promotion from tier C fetches next: one that a request waits for, else the lowest that has not arrived (R274). -/
def Page.nextTile (g : Page) : Option Nat :=
  (g.migration.filter (fun m => g.tier == .c && m.dest == .b)).bind (fun m => m.waiting.head?.or ((List.range g.tiles).find? (fun t => !m.done.contains t)))

/-- Are a pitch's writes held at a day-key boundary: the new epoch has begun and its key is not in force yet (R53, R709). -/
def State.rollDue (s : State) (p : Nat) : Bool :=
  let t := tenantOfTag (s.pitch p).tenantTag
  (s.tenant t).rollDelayed || (s.writeKey t false).elim false (fun k => decide (k.2.epoch < s.dayOf t s.time))

/-- What keeps a write from a page's tile (R263, R301, R706): its fetch from tier C, which needs frames of tier B, or the page's move to
the write's epoch; in tier A that move takes place with the commit. -/
def State.writeStop (s : State) (p a : Nat) (g : Page) : Option AllocStop :=
  if g.inFlash ((a - g.addr) / 4096) then
    some (if g.migration.isNone && (s.freeFrameB g.codeClass g.tiles).isNone then s.roomStop p a else .stall a .tile)
  else if (s.laterKey g).isSome && g.tier != .a then some (.stall a .tile)
  else none

/-- The page that a write finds (R252, R714): one whose key has expired is freed and a zero page takes its place. -/
def State.coverFor (s : State) (p a : Nat) (x : Extent) (rq : Requester) : State × Option AllocStop :=
  let s := match s.pageAt p a with
    | some g => if s.keyLive g then s else s.freePage g.id
    | none => s
  match s.pageAt p a with
  | none => s.allocAt p a x rq
  | some _ => (s, none)

/-- A request that waited for space waits no more (R301). -/
def State.unstall (s : State) (p a : Nat) : State :=
  if s.tier.stalled.isEmpty then s else
  { s with tier := { s.tier with stalled := s.tier.stalled.filter (fun w => !(w.pitch == p && w.addr == a)) } }

/-- One line of a page as another state of the page has it: its content and its poison. -/
def Page.takeLine (old new : Page) (l : Nat) : Page := { old with
  data := memWrite old.data (64 * l) (memRead new.data (64 * l) 64)
  poison := (tabFind new.poison l).elim (old.poison.filter (·.1 != l)) (fun c => tabSet old.poison l c) }

/-- A write to a page has committed while a checkpoint of its set is in progress: each line of it that the checkpoint had not taken yet
it has taken as before the write, or it is still to take, freely and line by line (R306). A state page is taken whole (R404). -/
def State.meetCheckpoint (s : State) (g : Page) (off n : Nat) : State :=
  match s.tier.sets.find? (fun t => t.id == g.stateSet && t.inProgress), s.page g.id with
  | some t, some now =>
    if g.handle.isSome then s
    else
      let had := tabGet t.taken g.id []
      let lines := ((List.range (ceilDiv (off % 64 + n) 64)).map (fun k => off / 64 + k)).filter (fun l => !had.contains l)
      let late := lines.filter (fun l => !Config.freeBool (s.freeCtr + l - off / 64))
      let put := fun (o : Page) => if o.id = g.id then late.foldl (fun o l => o.takeLine now l) o else o
      let upd := fun (t : StateSet) => { t with
        taken := tabSet t.taken g.id (had ++ lines.filter (fun l => !late.contains l)), pendingPages := t.pendingPages.map put }
      { s with
        freeCtr := s.freeCtr + lines.length
        tier := { s.tier with sets := s.tier.sets.map (fun u => if u.id = t.id then upd u else u) } }
  | _, _ => s

/-- A write of a pitch to a page commits (R261, R279, R706): a demotion to tier C in progress is abandoned, and a tier A page takes the
write's epoch. -/
def State.commitTile (s : State) (p a : Nat) (g : Page) (bs : List Byte) (rq : Requester) : State :=
  let s0 := (s.unstall p a).countAborts (fun h => h.id == g.id && h.tier == .b && h.migration.elim false (fun m => m.dest == .c))
  let s1 := s0.modPage g.id (fun h => ((s.laterKey g).elim h h.underKey).commit (a - g.addr) bs)
  let s2 := (s1.meetCheckpoint g (a - g.addr) bs.length)
  let s3 := if g.tier != .a then s2.bump Key.lpddrWriteBytes bs.length else s2
  s3.touch g.id rq

/-- One request that writes (R252, R254, R263, R279, R706, R714); writes past a day-key boundary wait for its key (R709). The answer's
stop says why nothing was written. -/
def State.writeTile (s : State) (p a : Nat) (bs : List Byte) (rq : Requester) : State × Option AllocStop :=
  if s.rollDue p then (s, some (.stall a .tile))
  else match s.extentAt p a with
  | none => (s, some (.fault (fcAddress, a)))
  | some x =>
    if !x.holds (a + bs.length - 1) then (s, some (.fault (fcAddress, x.base + x.length)))
    else match s.coverFor p a x rq with
      | (s, some e) => (s, some e)
      | (s, none) =>
        match s.pageAt p a with
        | none => (s, some (.fault (fcAddress, a)))
        | some g =>
          match s.writeStop p a g with
          | some e => (s, some e)
          | none =>
            match g.partialPoison (a - g.addr) bs.length with
            | some l => ((s.touch g.id rq).pagePoisonRead g (64 * l) (some p) 3, some (.fault (fcEccUncorr, g.addr + 64 * l)))
            | none => (s.commitTile p a g bs rq, none)

/-- A write of a state range: one request per tile; the first stop ends it. -/
def State.writeState (s : State) (p a : Nat) (bs : List Byte) (rq : Requester) : State × Option AllocStop :=
  (requests a bs.length).foldl (fun acc c =>
    match acc with
    | (s, some e) => (s, some e)
    | (s, none) => s.writeTile p c.1 ((bs.drop (c.1 - a)).take c.2) rq) (s, none)

/-- A write that waits has what it waits for started (R263, R274, R706): the page's promotion, with its tile before any other; or the
page's move to the write's epoch, for which a demotion to tier C in progress is abandoned. -/
def State.prepare (s : State) (p a : Nat) : State :=
  match s.pageAt p a with
  | none => s
  | some g =>
    let t := (a - g.addr) / 4096
    if g.inFlash t then
      let s1 := if g.migration.elim false (fun m => m.dest == .c) then s.abandon g.id else s
      (s1.startMigration g.id .b 0 0).modPage g.id (fun g => { g with migration := g.migration.map (fun m =>
        { m with waiting := distinct (m.waiting ++ [t]) }) })
    else match s.laterKey g with
      | none => s
      | some k =>
        if s.rollDue p || g.tier != .b then s
        else
          let s1 := if g.migration.elim false (fun m => m.dest == .c) then s.abandon g.id else s
          match s1.freeFrameB g.codeClass g.tiles with
          | none => s1
          | some f => s1.startMigration g.id .b 0 f (some k)

/-- A request of a pitch waits (R263, R301): what it needs is started, and one that waits for space is noted; under the pitch's policy
its time runs and it is counted, once. -/
def State.stallQuota (s : State) (p : Nat) (w : Nat × Waits) : State :=
  let s1 := s.prepare p w.1
  let is := fun (e : Stalled) => e.pitch == p && e.addr == w.1
  let s2 : State := if w.2 = .tile || s1.tier.stalled.any is then s1
    else { s1 with tier := { s1.tier with stalled := s1.tier.stalled ++ [{ pitch := p, addr := w.1 }] } }
  let s3 := if w.2 = .policy && s2.tier.stalled.any (fun e => is e && e.since.isNone) then
      ({ s2 with tier := { s2.tier with stalled := s2.tier.stalled.map (fun e =>
        if is e then { e with since := some s.time } else e) } }).bump (Key.at Key.quotaStalls p)
    else s2
  s3.demoteB

end Sys2Proof.Machine
end

