-- ==== Sys2Proof/Machine/FabricOps.lean ====
section
/-! DEFINITION. Sending packets: topology, routes and detours (chapter 10, R498 to R514, R554, R556). -/

namespace Sys2Proof.Machine

/-- Torus sizes in effect; a profile with optics off is 1 × 1 × 1 (R504, R506). -/
def State.dims (s : State) : Nat × Nat × Nat :=
  if s.obj Key.profileOptics = 1 then (s.obj Key.fabricDimX, s.obj Key.fabricDimY, s.obj Key.fabricDimZ) else (1, 1, 1)

/-- Coordinates of a module ID (R28). -/
def coords (m : Nat) : Nat × Nat × Nat := (field m 4 0, field m 9 5, field m 14 10)
def moduleOf (x y z : Nat) : Nat := x + 32 * y + 1024 * z

/-- Does a module ID lie inside the torus (R30). -/
def State.inTorus (s : State) (m : Nat) : Bool :=
  let (x, y, z) := coords m
  let (kx, ky, kz) := s.dims
  decide (x < kx) && decide (y < ky) && decide (z < kz)

def State.port (s : State) (p : Nat) : Port := tabGet s.fabric.ports p {}
def State.setPort (s : State) (p : Nat) (v : Port) : State :=
  { s with fabric := { s.fabric with ports := tabSet s.fabric.ports p v } }
def State.portUp (s : State) (p : Nat) : Bool := (s.port p).st == .up

/-- Ports that shorten the distance in one dimension of size k, from a to b: + first (R512); port d is +, d + 3 is −. -/
def productiveIn (d k a b : Nat) : List Nat :=
  if a = b || k ≤ 1 then []
  else
    let up := (b + k - a) % k
    if 2 * up < k then [d] else if 2 * up = k then [d, d + 3] else [d + 3]

/-- The neighbour of a module through a port (R505). -/
def State.neighbour (s : State) (m port : Nat) : Nat :=
  let (x, y, z) := coords m
  let (kx, ky, kz) := s.dims
  match port with
  | 0 => moduleOf ((x + 1) % kx) y z
  | 1 => moduleOf x ((y + 1) % ky) z
  | 2 => moduleOf x y ((z + 1) % kz)
  | 3 => moduleOf ((x + kx - 1) % kx) y z
  | 4 => moduleOf x ((y + ky - 1) % ky) z
  | _ => moduleOf x y ((z + kz - 1) % kz)

/-- Productive ports toward a module, in dimension order (R512, R513). -/
def State.productive (s : State) (dst : Nat) : List Nat :=
  let (x, y, z) := coords s.moduleId
  let (a, b, c) := coords dst
  let (kx, ky, kz) := s.dims
  productiveIn 0 kx x a ++ productiveIn 1 ky y b ++ productiveIn 2 kz z c

/-- The detour port of a failed port: the lowest-numbered UP port of another dimension; in a ring the opposite port
(R554, R556). -/
def State.detourPort (s : State) (port : Nat) : Option Nat :=
  let others := (List.range 6).filter (fun q => q % 3 != port % 3 && s.portUp q)
  match others.head? with
  | some q => some q
  | none => if s.portUp ((port + 3) % 6) then some ((port + 3) % 6) else none

/-- Where a packet leaves: port 6 for this module; else a productive port that is UP (data channels: the one with the most free
forwarding credits, which are no state of the model, a free value, R512; dimension order for ORDERED, R514, and for the guyline
channels); else a detour on the escape channels; else none. -/
def State.route (s : State) (dst : Nat) (ordered : Bool) (vc : Nat) : Option (Nat × Nat × Bool) :=
  if dst = s.moduleId then some (6, vc, false)
  else
    let ps := s.productive dst
    let ups := if ordered || decide (vc < 2) then (ps.take 1).filter s.portUp else sortBy id (ps.filter s.portUp)
    match ups[Config.freeNat s.freeCtr % ups.length]? with
    | some p => some (p, vc, false)
    | none => (ps.findSome? s.detourPort).map (fun q => (q, if vc < 2 then vc else 6, true))

/-- Count of flits of a packet (R518); an encoded packet's trailer is 4 B a row, padded to 16 B (R528). -/
def packetFlits (p : Packet) : Nat := ceilDiv (64 + p.payload.length) 256

/-- Put a packet on its way (R516); none where no port is UP toward its destination. -/
def State.emit? (s : State) (p : Packet) : Option State :=
  match s.route p.dstModule p.ordered p.vc with
  | none => none
  | some (port, vc, det) =>
    let q := { p with vc := vc, detour := p.detour || det, stamp := if p.stamp = 0 then s.time else p.stamp }
    let s1 : State := { s with
      freeCtr := s.freeCtr + 1
      fabric := { s.fabric with sent := s.fabric.sent ++ [(port, vc, q)] } }
    some (if port < 6 then s1.bump (Key.at Key.txFlits port) (packetFlits p) else s1)

/-! ### Injection (R472 to R474, R511) -/

/-- Credit share of a class (R453). -/
def Pitch.credit (r : Pitch) (cls : Nat) : Nat := r.hdr (87 + 8 * cls) (80 + 8 * cls)

/-- Flits of a data class that a pitch may hold in flight on a port (R511). -/
def State.allocation (s : State) (pitch cls : Nat) : Nat := max 17 (256 * (s.pitch pitch).credit cls / 100)

/-- Flits of a data class that a pitch holds in flight on a port. -/
def State.flitsOut (s : State) (port cls pitch : Nat) : Nat :=
  ((s.fabric.inFlight.filter (fun e => e.port == port && e.cls == cls && e.pitch == pitch)).map (·.flits)).sum

/-- Does the first hop of a packet need its pitch's allocation: it leaves by a port on a data class, and is no response (R507,
R511). -/
def allotted (kind : PktKind) (port vc : Nat) : Bool :=
  decide (port < 6) && decide (2 ≤ vc) && decide (vc < 6)
    && !(kind == .writeAck || kind == .readData || kind == .nack || kind == .msgCredit)

/-- What becomes of a packet that a pitch of this module injects: it is on its way, it waits for its pitch's own credits
(R473), or no port leads to its destination (R556). -/
inductive Injected
  | sent (s : State)
  | waits
  | unreachable
  deriving DecidableEq, Repr

/-- A pitch injects a packet: the credits of the whole packet are taken from its allocation on the port before it is sent (R473, R511). -/
def State.inject (s : State) (pitch : Nat) (p : Packet) : Injected :=
  match s.route p.dstModule p.ordered p.vc, s.emit? p with
  | some (port, vc, _), some s1 =>
    if !allotted p.kind port vc then .sent s1
    else if s.allocation pitch (vc - 2) < s.flitsOut port (vc - 2) pitch + packetFlits p then .waits
    else .sent { s1 with fabric := { s1.fabric with
      inFlight := s1.fabric.inFlight ++ [{ port, cls := vc - 2, pitch, flits := packetFlits p, tag := p.tag }] } }
  | _, _ => .unreachable

/-- Flits that the next routers have freed return to their pitches' allocations (R474, R509): which, a free value. -/
def State.freeFlits (s : State) : State :=
  if s.fabric.inFlight.isEmpty then s
  else { s with
    freeCtr := s.freeCtr + 1
    fabric := { s.fabric with
      inFlight := (s.fabric.inFlight.zipIdx.filter (fun e => !Config.flitsFreed s.freeCtr e.2)).map (·.1) } }

/-- Does a snapshot or fence stop a pitch's new packets: its tenant's, until this module has reported (R547). -/
def State.cutStops (s : State) (p : Nat) : Bool :=
  s.fabric.cut.elim false (fun c => !c.reported && c.tenant == tenantOfTag (s.pitch p).tenantTag)

/-- The modules of the torus (R504). -/
def State.torus (s : State) : List Nat :=
  let (kx, ky, kz) := s.dims
  (List.range kz).flatMap (fun z => (List.range ky).flatMap (fun y => (List.range kx).map (fun x => moduleOf x y z)))

/-- Put a packet on its way where a route exists; a response without one is dropped (R556 names no NACK of a NACK). -/
def State.emit (s : State) (p : Packet) : State := (s.emit? p).getD s

end Sys2Proof.Machine
end

