-- ==== Sys2Proof/Machine/Teardown.lean ====
section
/-! DEFINITION. Teardown of a pitch: what a fault does at once (chapter 09, R484 to R489; steps 1 to 5 of R486). -/

namespace Sys2Proof.Machine

/-- Where a fault was found: the slot, its command and its opcode. -/
structure FaultSite where
  slot : Option Nat := none
  opcode : Nat := 0
  cmdPtr : Nat := 0
  waiter : Nat := 0
  byCommand : Bool := false
  deriving DecidableEq, Repr

/-- What a set's extents take with them from a pitch (R310, R376): extents, layouts and sequences. -/
def Pitch.setParts (r : Pitch) (id : Nat) : List Extent × List KvLayout × List KvSeq :=
  let xs := r.extents.filter (·.stateSet == id)
  let ls := r.layouts.filter (fun l => xs.any (fun x => x.number == l.get 21 16))
  (xs, ls, r.seqs.filter (fun q => ls.any (·.number == q.layout)))

/-- The parts of a set that a pitch maps leave it and are recorded; pages are kept (R310). -/
def State.detachFrom (s : State) (id p : Nat) : State :=
  let r := s.pitch p
  let (xs, ls, qs) := r.setParts id
  let s1 := s.setPitch p { r with
    extents := r.extents.filter (·.stateSet != id)
    layouts := r.layouts.filter (fun l => !ls.any (·.number == l.number))
    seqs := r.seqs.filter (fun q => !ls.any (·.number == q.layout)) }
  let add := fun (t : StateSet) => { t with
    attached := if t.attached = some p then none else t.attached
    extents := t.extents ++ xs, layouts := t.layouts ++ ls, seqs := t.seqs ++ qs.map (fun q => { q with assigned := [] }) }
  { s1 with tier := { s1.tier with
    sets := s1.tier.sets.map (fun t => if t.id = id then add t else t)
    pages := s1.tier.pages.map (fun g => if g.owner = some p ∧ g.stateSet = id then { g with owner := none } else g) } }

/-- Detach a state set wherever it is mapped, and every set from a pitch (R310). -/
def State.detachSet (s : State) (id : Nat) : State := (s.pitches.map (·.1)).foldl (fun (t : State) p => t.detachFrom id p) s
def State.detachSets (s : State) (p : Nat) : State := (s.tier.sets.map (·.id)).foldl (fun (t : State) id => t.detachFrom id p) s

/-- The pages of the DISCARD extents of a pitch whose state set is 0, and their freeing (R249, R282, R310). -/
def State.discarded (s : State) (p : Nat) (g : Page) : Bool :=
  g.owner == some p && (s.pitch p).extents.any (fun x => x.discard && x.stateSet == 0 && x.holds g.addr)
def State.freeDiscard (s : State) (p : Nat) : State × Bool := (s.freePages (s.discarded p), s.tier.pages.any (s.discarded p))

/-- The requests of a pitch that waited for space wait no more (R301). -/
def State.unstallPitch (s : State) (p : Nat) : State :=
  { s with tier := { s.tier with stalled := s.tier.stalled.filter (·.pitch != p) } }

/-- Give back the lock pegs that slots hold, marking them ABANDONED, and raise line 241 (R464, step 4 of R486). -/
def State.abandonPegs (s : State) (slots : List Nat) : State :=
  (List.range 6).foldl (fun (t : State) n =>
    let held := ((t.cluster n).pegs.filter (fun e => e.2.holders.any (fun h => slots.contains h.1))).map (·.1)
    held.foldl (fun (t : State) k =>
      let p := t.peg n k
      let back := (p.holders.filter (fun h => slots.contains h.1)).foldl (fun m h => m + h.2) 0
      let sum := p.value.toNat + back
      let t1 := t.setPeg n k { p with
        value := BitVec.ofNat 16 (min 65535 sum)
        ovf := p.ovf || decide (65535 < sum)
        abandoned := true
        holders := p.holders.filter (fun h => !slots.contains h.1) }
      let users := (t1.pegOwner n k).toList ++ (t1.pegLoans n k).map (·.borrower)
      (t1.pulse n 241 (some users)).examine n k) t) s

/-- A slot after the scrub of teardown step 5: registers zero or at reset values, shares kept (R486, R724). -/
def Slot.scrubbed (x : Slot) (st : SlotState) : Slot := {
  st, pitch := x.pitch, spBase := x.spBase, spSizeM1 := x.spSizeM1, accBase := x.accBase, accSizeM1 := x.accSizeM1,
  spShare := x.spShare, accShare := x.accShare, roleEpoch := x.roleEpoch, reserved := x.reserved, streamPtr := 0 }

/-- Scrub a slot's shares of its core's memories (R724). -/
def State.scrubShares (s : State) (i : Nat) : State :=
  let x := s.slot i
  let a := x.spBase * 262144
  let b := x.accBase * 4096
  s.modCore (coreOfSlot i) (fun c => { c with
    scratch := memClear c.scratch a x.spBytes
    acc := memClear c.acc b x.accBytes
    spPoison := c.spPoison.filter (fun e => decide (64 * e.1 < a) || decide (a + x.spBytes ≤ 64 * e.1))
    accPoison := c.accPoison.filter (fun e => decide (64 * e.1 < b) || decide (b + x.accBytes ≤ 64 * e.1)) })

/-- Stop everything a set of slots has in progress: jobs, peg waits, queue claims, handle holds, fabric commands
(R219, R239, R397, R486). -/
def State.cancelSlots (s : State) (slots : List Nat) : State :=
  let s1 := slots.foldl (fun (t : State) i =>
    t.modCore (coreOfSlot i) (fun c => { c with jobs := c.jobs.filter (·.slot != i) })) s
  let s2 := slots.foldl (fun (t : State) i => t.reassign (coreOfSlot i)) s1
  let s3 := (List.range 6).foldl (fun (t : State) n =>
    (t.modCluster n (fun c => { c with waiters := c.waiters.filter (fun w => !slots.contains w.slot) })).endDonations n) s2
  { s3 with
    queues := s3.queues.map (fun e => (e.1, { e.2 with
      packets := e.2.packets.map (fun k => if k.claimedBy.elim false slots.contains then { k with claimedBy := none } else k)
      stalled := e.2.stalled.filter (fun i => !slots.contains i)
      flushAsked := e.2.flushAsked.filter (fun i => !slots.contains i) }))
    tier := { s3.tier with handles := s3.tier.handles.map (fun e => (e.1, { e.2 with
      held := if e.2.held.elim false (fun h => slots.contains (h / 2)) then none else e.2.held
      st := if e.2.st = .swapping && e.2.held.elim false (fun h => slots.contains (h / 2)) then .bound else e.2.st
      waiting := e.2.waiting.filter (fun h => !slots.contains (h / 2)) })) }
    fabric := { s3.fabric with
      ops := s3.fabric.ops.filter (fun o => !slots.contains o.slot)
      due := s3.fabric.due.filter (fun e => !(slots.map (fun i => (s3.slot i).pitch)).contains e.1)
      colls := s3.fabric.colls.filter (fun o => !slots.contains o.slot) } }

/-- A further fault of a pitch in teardown (R488): SECONDARY counts it, and where its stamp is that of the first, the lower
unit address gives the code. -/
def Teardown.further (d : Teardown) (time : Nat) (unit : UnitAddr) (code detail : Nat) (site : FaultSite) : Teardown :=
  let d1 : Teardown := { d with secondary := min 255 (d.secondary + 1) }
  if d.stamp = time ∧ unitBits unit < unitBits d.unit then
    { d1 with code, detail, opcode := site.opcode, streamPtr := site.cmdPtr, unit, waiter := site.waiter, byCommand := site.byCommand }
  else d1

/-- A demand read that meets a poisoned line of a core's own memory is logged POISON_READ (R655, R656). -/
def State.logCoreLine (s : State) (p code detail : Nat) : State :=
  if code = fcEccLine then s.sramFound (detail / 2 ^ 40) (detail % 2 ^ 40) 0 .poison (some p) else s

/-- A fault of a pitch (R484, R486, R488): steps 1 to 5 of the teardown at once; a further fault before step 6
increments SECONDARY. -/
def State.faultPitch (s : State) (p code detail : Nat) (site : FaultSite := {}) : State :=
  let s := s.logCoreLine p code detail
  let code := code % 256
  let r := s.pitch p
  let unit := site.slot.elim { module := s.moduleId } s.unitOf
  match r.down with
  | some d => s.setPitch p { r with down := some (d.further s.time unit code detail site) }
  | none =>
    if r.st = .running || r.st = .complete then
      let (s0, freed) := s.freeDiscard p
      let d : Teardown := {
        code, detail, opcode := site.opcode, streamPtr := site.cmdPtr, unit, stamp := s.time, waiter := site.waiter,
        byCommand := site.byCommand, pagesFreed := freed }
      let s1 := s0.setPitch p { s0.pitch p with
        st := .teardown, down := some d, seqs := (s0.pitch p).seqs.map (fun q => { q with assigned := [] }) }
      let s2 := (s1.cancelSlots r.slots).finishDrops p
      let s3 := r.slots.foldl (fun (t : State) i => t.modSlot i (fun x => { x with st := .teardown, hold := .none })) s2
      let s4 := s3.abandonPegs r.slots
      let s5 := r.slots.foldl (fun (t : State) i => (t.scrubShares i).modSlot i (·.scrubbed .teardown)) s4
      (s5.unstallPitch p).detachSets p
    else s

/-- A fault found by a command of a slot. -/
def State.faultSlot (s : State) (i : Nat) (f : PitchFault) (opcode cmdPtr : Nat) : State :=
  s.faultPitch (s.slot i).pitch f.1 f.2 { slot := some i, opcode, cmdPtr }

end Sys2Proof.Machine
end

