-- ==== Sys2Proof/Machine/Watch.lean ====
section
/-! DEFINITION. Raising an event line, with the functions of the module that watch lines: the wake cascade's ADVANCE and
RELEASE lines (R585 to R589), a pitch's HostPostLine (R832), and an inbox's release line (R533). -/

namespace Sys2Proof.Machine

/-- The pitches of a stage, 2 to 4 (R585); the profile Listener holds the stage L2 only (R1, R777). -/
def State.stagePitches (s : State) (stage : Nat) : List Nat :=
  match stage with
  | 2 => if s.obj Key.wakeL2Pitch < 32 then [s.obj Key.wakeL2Pitch] else []
  | 3 => if s.profile ≠ 3 ∧ s.obj Key.wakeL3Pitch < 32 then [s.obj Key.wakeL3Pitch] else []
  | 4 => if s.profile = 3 then [] else (List.range 32).filter (fun p => bit (s.obj Key.wakeL4PitchMask) p)
  | _ => []

/-- Assert WAKE_OUT and post a wake event where the host link is up (R589). -/
def State.assertWakeOut (s : State) (stage : Nat) : State :=
  let s1 : State := { s with listen := { s.listen with wakeOut := true, wakeOutSince := s.time } }
  if s1.host.connected then s1.postEvent 3 (natLe 8 stage ++ natLe 8 s1.listen.triggerStamp) else s1

/-- Begin the wake of a stage (R586); STAGE_WAKE completes it. -/
def State.wakeStage (s : State) (stage : Nat) : State :=
  { s with listen := { s.listen with stageWaking := some stage } }

/-- The next stage above one whose pitches are named. -/
def State.nextStage (s : State) (stage : Nat) : Option Nat :=
  ([3, 4] : List Nat).find? (fun k => decide (stage < k) && !(s.stagePitches k).isEmpty)

/-- A stage raises ADVANCE: the next stage that is named wakes, or WAKE_OUT is asserted where none is (R587, R589). -/
def State.stageAdvance (s : State) (stage : Nat) : State :=
  if s.obj Key.wakeStage < stage then s
  else match s.nextStage stage with
    | some k =>
      if decide (s.obj Key.wakeStage = stage) && s.listen.stageWaking.isNone && s.listen.dropTo.isNone then s.wakeStage k else s
    | none => s.assertWakeOut stage

/-- Pitches of the stages that are awake (R585). -/
def State.awakePitches (s : State) : List Nat :=
  (([2, 3, 4] : List Nat).filter (fun k => decide (k ≤ s.obj Key.wakeStage))).flatMap s.stagePitches

/-- A trigger with stamp T reaches the cascade (R583, R586, R589 to R591): held during a drop or a power-state entry; line 232
while L2 or above is awake; else L2 wakes, or WAKE_OUT is asserted. -/
def State.cascadeTrigger (s : State) (t : Nat) : State :=
  if s.listen.dropTo.isSome || s.power.entry.isSome then
    { s with listen := { s.listen with heldTrigger := s.listen.heldTrigger.or (some t) } }
  else if 2 ≤ s.obj Key.wakeStage || s.listen.stageWaking.isSome then s.systemPulse 232 s.awakePitches
  else
    let s1 : State := { s with listen := { s.listen with triggerStamp := t } }
    if !(s.stagePitches 2).isEmpty && s.power.vin then s1.wakeStage 2 else s1.assertWakeOut 1

/-- Is a slot out of the way of a drop (R588). -/
def Slot.dropped (x : Slot) : Bool := x.st == .parked || x.st == .stopped || x.st == .idle

/-- Pitches of the stages that a drop to stage k abandons, of which a slot is still at work (R588). -/
def State.atWork (s : State) (k : Nat) : List Nat :=
  let stages := ([2, 3, 4] : List Nat).filter (fun j => decide (k < j) && decide (j ≤ s.obj Key.wakeStage))
  (stages.flatMap s.stagePitches).filter (fun p => (s.pitch p).slots.any (fun i => !(s.slot i).dropped))

/-- A drop to stage k ends: pitches of the dropped stages with a slot still at work are torn down, and the cascade stands at k, whose
timer starts again (R587, R588). -/
def State.endDrop (s : State) (k : Nat) : State :=
  let s1 := (s.atWork k).foldl (fun (t : State) p => t.faultPitch p fcRemoved 0 { byCommand := true }) s
  let s2 := s1.setObj Key.wakeStage k
  { s2 with listen := { s2.listen with dropTo := none, stageSince := s.time, streamsOn := s2.listen.streamsOn.filter (fun x => decide (x + 2 ≤ k)) } }

/-- Is LANTERN the state that the module goes to once the cascade stands (R588, R743): the floor permits it, and no slot is at
work but those that a teardown ends. -/
def State.lanternNext (s : State) : Bool :=
  s.obj Key.powerFloor == 3 && decide (s.obj Key.wakeStage ≤ 1) && s.power.st != .lantern
    && s.slots.all (fun e => e.2.dropped || e.2.st == .teardown)

/-- A drop ends, and a trigger held meanwhile proceeds once the drop's target state is there: with LANTERN as its target, at the end
of that entry (R591). -/
def State.finishDrop (s : State) (k : Nat) : State :=
  let s2 := s.endDrop k
  match s2.listen.heldTrigger with
  | none => s2
  | some t =>
    if s2.power.entry.isSome || s2.lanternNext then s2
    else ({ s2 with listen := { s2.listen with heldTrigger := none } }).cascadeTrigger t

/-- A drop ends before its grace once every slot of its pitches is PARKED, STOPPED or IDLE (R588 step 2). -/
def State.settleDrop (s : State) : State :=
  match s.listen.dropTo with
  | none => s
  | some k => if (s.atWork k).isEmpty then s.finishDrop k else s

/-- Abandon a stage and every stage above it (R587, R588 step 1): line 231 to the pitches of those not already abandoned, and the
drop begins. -/
def State.abandonStage (s : State) (stage : Nat) : State :=
  if s.obj Key.wakeStage < stage then
    (if s.listen.stageWaking.elim false (fun k => decide (stage ≤ k)) then
      { s with listen := { s.listen with stageWaking := none } } else s)
  else
    let top := s.listen.dropTo.getD (s.obj Key.wakeStage)
    let ps := ((List.range 3).map (· + 2)).filter (fun k => decide (stage ≤ k) && decide (k ≤ top))
    let s1 := s.systemPulse 231 (ps.flatMap s.stagePitches)
    ({ s1 with listen := { s1.listen with dropTo := some (min top (stage - 1)), dropSince := s.time, stageWaking := none } }).settleDrop

/-- Post 32 B of a pitch's share to the host (R832). -/
def State.hostPost (s : State) (p n : Nat) : State :=
  let r := s.pitch p
  let off := (r.share n).1 + s.obj (Key.at Key.hostPostOffset p) + 32 * (r.hostPosts % 16)
  (s.setPitch p { r with hostPosts := r.hostPosts + 1 }).postEvent 7 (s.readSram n off 32)

/-- Slots of a pitch in a cluster, in ascending core order (R531). -/
def State.slotsIn (s : State) (p n : Nat) : List Nat := sortBy id ((s.pitch p).slots.filter (fun i => clusterOfSlot i == n))

/-- The arrival line of a slot's inbox; the release line is the next (R531). -/
def State.arrivalLine (s : State) (p i : Nat) : Nat :=
  let n := clusterOfSlot i
  192 + (s.pitch p).ent n 115 111 + 2 * (s.slotsIn p n).idxOf i

/-- SIGNAL on a slot's release line frees its oldest unreleased entry and returns the credit (R533). -/
def State.releaseInbox (s : State) (i : Nat) : State :=
  let p := (s.slot i).pitch
  let r := s.pitch p
  match tabGet r.inboxHeld i [] with
  | [] => s
  | (src, peg) :: rest =>
    (s.setPitch p { r with inboxHeld := tabSet r.inboxHeld i rest }).emit
      { kind := .msgCredit, dstModule := src.module, srcUnit := src, creditPeg := peg, tenant := r.tenantTag, vc := 2 }

/-- The inbox whose release line this is, if any. -/
def State.inboxOfRelease (s : State) (p n line : Nat) : Option Nat :=
  if s.obj (Key.at Key.inboxEntries p) = 0 then none
  else (s.slotsIn p n).find? (fun i => s.arrivalLine p i + 1 == line)

/-- Is a line word (cluster in [10:8], line in [7:0]) this line. -/
def lineWord (n line : Nat) : Nat := 256 * n + line

/-- What the module's own functions do on a pulse of a line (R42). -/
def State.watch (s : State) (n line : Nat) : State :=
  let w := lineWord n line
  let stageOf := fun (base k : Nat) => s.obj (base + (k - 2)) == w
      && (s.stagePitches k).any (fun p => s.mayRaise p n line)
  let s1 := [2, 3, 4].foldl (fun (t : State) k => if stageOf Key.wakeAdvanceLine k then t.stageAdvance k else t) s
  let s2 := [2, 3, 4].foldl (fun (t : State) k => if stageOf Key.wakeReleaseLine k then t.abandonStage k else t) s1
  let posts := (List.range 32).filter (fun p => s.obj (Key.at Key.hostPostLine p) == w && s.mayRaise p n line
      && (s.pitch p).st != .free)
  posts.foldl (fun (t : State) p => t.hostPost p n) s2

/-- Is a line watched by a function of the module (R42). -/
def State.watched (s : State) (n line : Nat) : Bool :=
  let w := lineWord n line
  [2, 3, 4].any (fun k => (s.obj (Key.wakeAdvanceLine + (k - 2)) == w || s.obj (Key.wakeReleaseLine + (k - 2)) == w)
      && (s.stagePitches k).any (fun p => s.mayRaise p n line))
    || (List.range 32).any (fun p => s.obj (Key.at Key.hostPostLine p) == w && s.mayRaise p n line)

/-- Raise one pulse on a line (R42, R156): it goes in flight, and watching functions act on it. -/
def State.raiseLine (s : State) (n line src : Nat) : State := (s.pulse n line none src).watch n line

/-- Apply the operand of DONE_SIG or STOP (R119, R132, R145). -/
def State.applyOperand (s : State) (i : Nat) (op : Operand) : State :=
  match op with
  | .none => s
  | .line l =>
    let n := clusterOfSlot i
    match s.inboxOfRelease (s.slot i).pitch n l with
    | some j => (s.raiseLine n l (coreOfSlot i)).releaseInbox j
    | none => s.raiseLine n l (coreOfSlot i)
  | .peg name => (s.callCluster (name / 1024)).givePeg name 1 (some i)

end Sys2Proof.Machine
end

