-- ==== Sys2Proof/Machine/Issue.lean ====
section
/-! DEFINITION. Issue and completion of commands: the command format, predicates, waits, loops, jobs and request tags
(chapters 03 and 04, R114 to R138, R224 to R227). -/

namespace Sys2Proof.Machine

/-! ### The command word (R117) -/

def cwDesc (n : Nat) : Bool := bit n 119
def cwDesc128 (n : Nat) : Bool := bit n 118
def cwDone (n : Nat) : Bool := bit n 117
def cwPre (n : Nat) : Bool := bit n 116
def cwKind (n : Nat) : Nat := field n 111 110
def cwOpnd (n : Nat) : Nat := field n 109 96
def cwArgs (n : Nat) : Nat := n % 2 ^ 96

/-- Are all bits outside these ranges [hi:lo] zero (R9). -/
def onlyBits (v : Nat) (ranges : List (Nat × Nat)) : Bool :=
  ranges.foldl (fun acc r => acc + field v r.1 r.2 * 2 ^ r.2) 0 == v

/-- Is the operand field well-formed for its kind (R117): an event line or a peg name with its high bits zero. -/
def opndFormed (n : Nat) : Bool :=
  match cwKind n with
  | 0 => cwOpnd n == 0
  | 1 => decide (cwOpnd n < 256)
  | 2 => decide (cwOpnd n < 8192)
  | _ => false

/-- The operand a command names. -/
def opndOf (n : Nat) : Operand :=
  match cwKind n with
  | 1 => .line (cwOpnd n)
  | 2 => .peg (cwOpnd n)
  | _ => .none

/-- The predicate at issue (R118): PRED bit PIDX, inverted by PNEG; P0 reads 1 (R115). -/
def Slot.predicate (x : Slot) (n : Nat) : Bool :=
  let p := field n 114 112
  (if p = 0 then true else x.pred.toNat.testBit p) != bit n 115

/-! ### Scalar registers (R114, R115) -/

def Slot.reg (x : Slot) (r : Nat) : Word := if r = 0 then 0 else x.regs[r]?.getD 0
def Slot.setReg (x : Slot) (r : Nat) (v : Word) : Slot :=
  if r = 0 then x else { x with regs := x.regs.setIfInBounds r v }
def Slot.lcGet (x : Slot) (k : Nat) : Half := x.lc[k]?.getD 0

/-! ### Position in the stream (R126, R142) -/

/-- The position after a command, with the ends of loop bodies applied: a body runs again until its last pass (R142). -/
def settleLoops : List LoopFrame → Vector Half 4 → Nat → List LoopFrame × Vector Half 4 × Nat
  | [], lc, ptr => ([], lc, ptr)
  | f :: fs, lc, ptr =>
    if ptr = f.start + 16 * f.body then
      let k := (lc[f.lc]?.getD 0).toNat
      if k + 1 < f.count then (f :: fs, lc.setIfInBounds f.lc (BitVec.ofNat 16 (k + 1)), f.start)
      else settleLoops fs lc ptr
    else (f :: fs, lc, ptr)

/-- Does a loop's body hold the command at an offset. -/
def LoopFrame.holds (f : LoopFrame) (ptr : Nat) : Bool := decide (f.start ≤ ptr) && decide (ptr < f.start + 16 * f.body)

/-- What stays in the command buffer under some active loops: their bodies (R126, R142). -/
def keepBodies (loops : List LoopFrame) (buffer : List Fetched) : List Fetched :=
  (buffer.filter (fun b : Fetched => loops.any (fun f => f.holds b.ptr))).map (fun b => { b with waits := none })

/-- Put a slot at a position in its stream. -/
def Slot.goTo (x : Slot) (ptr : Nat) : Slot :=
  let (fs, lc, p) := settleLoops x.loops x.lc ptr
  { x with loops := fs, lc := lc, streamPtr := p, preReady := false, buffer := keepBodies fs x.buffer }

/-- A slot of the core has issued (R128). -/
def State.markIssued (s : State) (i : Nat) : State := { s with lastIssued := tabSet s.lastIssued (coreOfSlot i) (i % 4) }

/-- The command has issued: the next one follows, and the watchdog restarts (R482). -/
def State.advance (s : State) (i : Nat) : State :=
  (s.modSlot i (fun x => { x.goTo (x.streamPtr + 16) with watchRun := 0 })).markIssued i

/-- Is the slot's next command held for tier B space (R301). -/
def Slot.quotaHeld (x : Slot) : Bool :=
  match x.hold with
  | .quota _ => true
  | _ => false

/-- May a slot issue now: ACTIVE and held by nothing, its pitch RUNNING, the module ACTIVE, its core up and its cluster up and not gated
(R27). -/
def State.canIssue (s : State) (i : Nat) : Bool :=
  let x := s.slot i
  x.st == .active && (x.hold == .none || x.quotaHeld) && (s.pitch x.pitch).st == .running && s.power.st == .active
    && !(s.cluster (clusterOfSlot i)).gated && s.up (coreOfSlot i) && s.up (48 + clusterOfSlot i)

/-- May a command use its operand now: the cluster of a peg that it gives is up (R27). -/
def State.operandUp (s : State) (op : Operand) : Bool :=
  match op with
  | .peg name => s.up (48 + name / 1024)
  | _ => true

/-! ### The command buffer and the choice among slots (R126 to R128, R142) -/

/-- The buffered command at the slot's position. -/
def Slot.held (x : Slot) : Option Fetched := x.buffer.find? (fun b => b.ptr == x.streamPtr)

/-- Is this the command at the slot's position: it is not fetched yet, or the buffer holds it (R127, R142). -/
def Slot.fits (x : Slot) (opcode n : Nat) : Bool := x.held.elim true (fun b => b.opcode == opcode && b.word == n)

/-- Put the command at the slot's position into its buffer, of 32 commands, waiting for the engines it needs. -/
def State.holdCommand (s : State) (i opcode n : Nat) (waits : Option (List Engine)) : State :=
  s.modSlot i (fun x =>
    let others := x.buffer.filter (fun b : Fetched => b.ptr != x.streamPtr)
    { x with buffer := (others ++ [({ ptr := x.streamPtr, opcode, word := n, waits } : Fetched)]).drop (others.length - 31) })

/-- The body of an active loop is held as it is fetched (R142). -/
def State.fetch (s : State) (i opcode n : Nat) : State :=
  let x := s.slot i
  if x.loops.any (·.holds x.streamPtr) && x.held.isNone then s.holdCommand i opcode n none else s

/-- Has a slot a command that waits and could issue now. -/
def State.waitingReady (s : State) (k : Nat) : Bool :=
  s.canIssue k && ((s.slot k).held.bind (·.waits)).elim false (fun es => !s.slotBusy k es)

/-- Is it this slot's turn: no other slot of its core has a ready command of higher effective priority, or of the same and before it
in round robin by slot number (R128, R460). -/
def State.turn (s : State) (i : Nat) : Bool :=
  let after := fun (k : Nat) => (k + 3 - tabGet s.lastIssued (coreOfSlot i) 3) % 4
  (List.range 4).all (fun k =>
    let o := 4 * coreOfSlot i + k
    o == i || !s.waitingReady o || decide (s.effPrio o < s.effPrio i)
      || (decide (s.effPrio o = s.effPrio i) && decide (after (i % 4) < after k)))

/-! ### Request tags (R38, R224 to R227) -/

/-- Take tags for requests in order, (write, state address); the answer's list is of those still due (R39, R225). -/
def State.takeTags (s : State) (h : TagHolder) (pitch slot : Nat) (acc : List Nat) :
    List (Bool × Nat) → List Nat × List (Bool × Nat) × State
  | [] => (acc, [], s)
  | w :: ws =>
    match s.takeTag h w.1 (s.inFlash pitch w.2) pitch slot w.2 with
    | none => (acc, w :: ws, s)
    | some (t, s') => State.takeTags s' h pitch slot (acc ++ [t]) ws

/-! ### Engine commands -/

/-- What the work of an engine command leaves: the state, a pitch fault if it met one, the number conditions, and what
its completion still needs. -/
structure Work where
  s : State
  err : Option PitchFault := none
  /-- a state address at which a write waits, and why (R263, R301) -/
  stall : Option (Nat × Waits) := none
  met : Met := {}
  cmpl : List Nat := []
  onDone : List Done := []
  wait : JobWait := .none
  /-- state addresses of its read and write requests (R224) -/
  reads : List Nat := []
  writes : List Nat := []
  tags : List Nat := []
  /-- its steps, and what it is to move, where the work goes on after the issue (R136) -/
  todo : List Step := []
  move : Option Move := none
  qread : Option QRead := none
  chain : Option Chain := none
  chunk : Option Chunk := none
  /-- KV sequences that it names (R320), and pages that it reads (R372) -/
  seqs : List (Nat × Nat) := []
  pages : List Nat := []
  /-- its descriptor block, as read (R122) -/
  words : Nat := 0
  /-- page tiles that it has requested (R369) -/
  tiles : List Nat := []
  sends : List Send := []
  deriving DecidableEq, Repr

/-- Work that faults. -/
def Work.fault (s : State) (code detail : Nat) : Work := { s, err := some (code, detail) }

/-- The forms of a command (R123). -/
inductive Form
  | inline | d64 | d128
  deriving DecidableEq, Repr

def Form.bytes (f : Form) : Nat :=
  match f with
  | .inline => 0
  | .d64 => 64
  | .d128 => 128

/-- Does a command's format fit its opcode's form and the rules of its operand (R117, R120, R123). -/
def formOk (f : Form) (n : Nat) : Bool :=
  (match f with
    | .inline => !cwDesc n && !cwDesc128 n
    | .d64 => cwDesc n && !cwDesc128 n && decide (cwArgs n < 2 ^ 22)
    | .d128 => cwDesc n && cwDesc128 n && decide (cwArgs n < 2 ^ 22))
  && opndFormed n && !(cwDone n && cwPre n)
  && (if cwDone n || cwPre n then cwKind n != 0 else cwKind n == 0)

/-- May the slot use the operand (R146, R147, R155): PRE_WAIT only on pegs of its own cluster. -/
def State.opndAllowed (s : State) (i n : Nat) : Bool :=
  let p := (s.slot i).pitch
  match opndOf n with
  | .none => true
  | .line l => cwPre n || s.mayRaise p (clusterOfSlot i) l
  | .peg name => s.mayUsePeg p name && (!cwPre n || name / 1024 == clusterOfSlot i)

/-- Apply PRE_WAIT (R119): none where the slot is now held; the state with the pulse or the amount taken otherwise. -/
def State.preWait (s : State) (i n : Nat) : State × Bool :=
  let x := s.slot i
  if !cwPre n || x.preReady then (s, true)
  else match opndOf n with
    | .line l =>
      if 0 < tabGet x.pending l 0 then (s.modSlot i (·.consume l), true)
      else (s.modSlot i (fun x => { x with hold := .preEvent l, st := .waiting }), false)
    | .peg name =>
      let c := name / 1024
      if s.takeReady c (name % 1024) i 1 then ((s.takePeg c (name % 1024) i 1).examine c (name % 1024), true)
      else ((s.modSlot i (fun x => { x with hold := .prePeg name, st := .waiting })).waitPeg c (name % 1024) i 1 false, false)
    | .none => (s, true)

/-- The DETAIL of a poisoned 64 B line of a core's scratchpad or accumulator file: KIND and LOCATION (R659, R666). -/
def scratchLine (core line : Nat) : Nat :=
  2 * 2 ^ 40 + core / 8 * 2 ^ 22 + core % 8 * 2 ^ 19 + line % 16 * 2 ^ 15 + line / 16 * 8
def accLine (core line : Nat) : Nat := 3 * 2 ^ 40 + core / 8 * 2 ^ 22 + core % 8 * 2 ^ 19 + line * 8

/-- First poisoned line of a range of the slot's scratchpad share, as the fault it raises (R659). -/
def State.spPoisonFault (s : State) (i off n : Nat) : Option PitchFault :=
  (poisonIn (s.core (coreOfSlot i)).spPoison ((s.slot i).spBase * 262144 + off) n).map
    (fun e => (fcEccLine, scratchLine (coreOfSlot i) e.1))

/-- Read a descriptor block at issue (R121, R122): offset aligned to 64 B, the block within the share. -/
def State.readDesc (s : State) (i n : Nat) (f : Form) : Except PitchFault Nat :=
  let off := cwArgs n
  match f with
  | .inline => .ok (cwArgs n)
  | _ =>
    if off % 64 != 0 then .error (fcDescriptor, off)
    else if (s.slot i).spBytes < off + f.bytes then .error (fcAddress, off)
    else match s.spPoisonFault i off f.bytes with
      | some e => .error e
      | none => .ok (leNat (s.readSp i off f.bytes))

/-- Record the command on its engines (R127), with its tags, conditions and what completes it. -/
def State.startJob (s : State) (i opcode : Nat) (engines : List Engine) (either : Bool) (n : Nat) (w : Work) : State :=
  let x := s.slot i
  let (tags, due, s1) := s.takeTags (.engine (coreOfSlot i)) x.pitch i w.tags
    (w.reads.map (fun a => (false, a)) ++ w.writes.map (fun a => (true, a)))
  let s2 := if due.isEmpty then s1 else s1.bump Key.tagWaits due.length
  let wait := if w.wait == .none && !due.isEmpty then
    .tag ((due.filter (!·.1)).map (·.2)) ((due.filter (·.1)).map (·.2)) else w.wait
  let desc := if cwDesc n then cwArgs n else 0
  let op := if cwDone n then opndOf n else .none
  (s2.addJob {
    slot := i, opcode, engines, either, cmdPtr := x.streamPtr, desc, words := w.words, regs := x.regs, done := op, cmplLines := w.cmpl,
    conds := if w.met.fl = 0 then [] else [(engines.headD .xfr, w.met.fl)], todo := w.todo.zipIdx.map (fun t => { t.1 with index := t.2 }), move := w.move, wait, tags, onDone := w.onDone, qread := w.qread, chain := w.chain, chunk := w.chunk, seqs := w.seqs, pages := w.pages,
    sends := w.sends }).meet i w.met

/-- Kinds that carry a request tag of their sender (R38, R516). -/
def tagged (k : PktKind) : Bool := k == .write || k == .readReq

/-- Send packets of a slot's command in order, each request under a tag of its own (R39, R520), each with its pitch's own credits
(R473, R511); the answer holds the tags
taken, the packets still to be sent, and the module that no port leads to (R30, R556). -/
def State.sendList (s : State) (i : Nat) : List Send → State × List Nat × List Send × Option Nat
  | [] => (s, [], [], none)
  | x :: xs =>
    let p := (s.slot i).pitch
    let go := fun (s : State) (tag : Nat) => s.inject p { x.pkt with tag }
    if tagged x.pkt.kind then
      match s.takeTag (.engine (coreOfSlot i)) (x.pkt.kind == .write) false p i x.pkt.addr with
      | none => (s.bump Key.tagWaits (x :: xs).length, [], x :: xs, none)
      | some (tag, s1) =>
        let s2 : State := { s1 with
          tier := { s1.tier with tags := s1.tier.tags.map (fun t => if t.tag = tag then { t with fabric := true } else t) }
          fabric := { s1.fabric with ops := s1.fabric.ops ++ [{ tag, slot := i, send := { x with pkt := { x.pkt with tag, payload := [] } } }] } }
        match go s2 tag with
        | .unreachable => (s2, [tag], [], some x.pkt.dstModule)
        | .waits => (s, [], x :: xs, none)
        | .sent s3 =>
          let (s4, tags, due, bad) := State.sendList s3 i xs
          (s4, tag :: tags, due, bad)
    else match go s 0 with
      | .unreachable => (s, [], [], some x.pkt.dstModule)
      | .waits => (s, [], x :: xs, none)
      | .sent s1 => State.sendList s1 i xs

/-- Has a job every answer of its reads of this module's memory, so that its packets are formed. -/
def State.formed (s : State) (j : Job) : Bool :=
  j.wait == .none && j.tags.all (fun t => (s.tier.tags.find? (·.tag == t)).elim true (fun e => e.write || e.fabric))

/-- Send what a slot's fabric command still has to send, where nothing holds it back (R39, R547). -/
def State.pushSends (s : State) (i : Nat) : State :=
  match s.jobOf i .xfr with
  | none => s
  | some j =>
    if j.sends.isEmpty || !s.formed j || s.cutStops (s.slot i).pitch || !s.up 55 then s
    else
      let (s1, tags, due, bad) := s.sendList i j.sends
      let s2 := s1.modJob i .xfr (fun j => { j with tags := j.tags ++ tags, sends := due })
      match bad with
      | none => s2
      | some m => (s2.bump Key.unreachableNacks).faultSlot i (fcUnreachable, m) j.opcode j.cmdPtr

/-! ### Steps (R101, R136, R157, R179) -/

/-- The engine on which a step of a job counts: its own, or the job's first. -/
def Job.stepEngine (j : Job) (t : Step) : Engine := t.on.getD (j.engines.headD .m0)

/-- May a step begin: its engine runs the job; a step of no engine of its own needs them all. -/
def Job.mayBegin (j : Job) (t : Step) : Bool :=
  match t.on with
  | some e => j.running.contains e
  | none => j.begun && !j.either && j.engines.all j.running.contains

/-- Conditions met in the step in progress on an engine, and on all. -/
def Job.condsOn (j : Job) (e : Engine) : BitVec 6 := j.conds.foldl (fun m c => if c.1 = e then m ||| c.2 else m) 0
def Job.allConds (j : Job) : BitVec 6 := j.conds.foldl (fun m c => m ||| c.2) 0

/-- What a step writes to its slot's shares. -/
def State.landStep (s : State) (i : Nat) (t : Step) : State :=
  (t.writes.foldl (fun (s : State) w => if w.1 then s.writeAcc i w.2.1 w.2.2 else s.writeSp i w.2.1 w.2.2) s).meet i
    { fl := t.fl, sat := t.sat }

/-- The next step of an engine of a job, with those behind it (R158: in order on each engine). -/
def Job.nextStep (j : Job) (e : Engine) : Option (Step × List Step) :=
  (j.todo.findIdx? (fun t => j.stepEngine t == e)).bind (fun k =>
    (j.todo[k]?).bind (fun t => if j.mayBegin t then some (t, j.todo.eraseIdx k) else none))

/-- The next step of a slot's command on an engine begins, once its reads are answered; none where there is none. -/
def State.beginStep? (s : State) (i : Nat) (e : Engine) : Option State :=
  (s.jobOf i e).bind (fun j =>
    if !s.formed j then none
    else (j.nextStep e).map (fun r =>
      (s.modJob i e (fun j => { j with todo := r.2, conds := j.conds ++ [(e, r.1.fl)] })).landStep i r.1))
def State.beginStep (s : State) (i : Nat) (e : Engine) : State := (s.beginStep? i e).getD s

/-- The first step of a command begins on each engine that it has. -/
def State.beginAll (s : State) (i : Nat) (es : List Engine) : State :=
  es.foldl (fun (t : State) e =>
    if (t.jobOf i e).elim true (fun j => j.todo.isEmpty || j.conds.any (·.1 == e)) then t else t.beginStep i e) s

/-- The work of an engine command is done or under way: it is recorded on its engines, the slot's next command follows, its first
step begins and its packets leave (R126, R127, R131). -/
def State.enter (i n opcode : Nat) (engines : List Engine) (either : Bool) (k : Work) : State :=
  ((((k.s.startJob i opcode engines either n k).modSlot i (fun x => { x with hold := .none })).advance i).pushSends i).beginAll i
    engines

/-- A command that waited for tier B space goes on (R301). -/
def State.settleHold (s : State) (p : Nat) (h : Hold) : State :=
  match h with
  | .quota a => s.unstall p a
  | _ => s

/-- The command at a slot's position is fetched from its cluster SRAM share, unless the buffer holds it: a poisoned line faults (R126,
R659). -/
def State.fetchPoison (s : State) (i : Nat) : State × Option PitchFault :=
  let x := s.slot i
  if x.held.isSome then (s, none) else s.sramPoisonRead (clusterOfSlot i) x.streamPtr 16 x.pitch

/-- Issue an engine command (R118 to R128): nothing where it cannot issue now (a command that may request state waits
for the journal replay, R295, and while the tier unit is down, R27); one that waits for an engine or for its turn is held in the buffer; skipped where its predicate is false;
a pitch fault where it is malformed or its work faults; else its work is done and it is in progress on its engines. -/
def State.issueEngine (s : State) (u : SlotRef) (w : CmdWord) (opcode : Nat) (form : Form)
    (engines : Nat → List Engine × Bool) (work : State → Nat → Nat → Work) : State :=
  let i := slotIndex u
  let n := w.toNat
  let x := s.slot i
  let ptr := x.streamPtr
  if !s.canIssue i || !x.fits opcode n then s
  else match s.fetchPoison i with
  | (s1, some f) => s1.faultSlot i f opcode ptr
  | (_, none) =>
  let s := s.fetch i opcode n
  if !x.predicate n then if s.turn i then s.advance i else s.holdCommand i opcode n (some [])
  else if 0x60 ≤ opcode && (!s.tier.journalReplayed || !s.up 54) then s
  else if !formOk form n then s.faultSlot i (fcDescriptor, if cwDesc n then cwArgs n % 2 ^ 22 else 0) opcode ptr
  else if !s.opndAllowed i n then s.faultSlot i (fcAddress, cwOpnd n) opcode ptr
  else match s.readDesc i n form with
    | .error f => s.faultSlot i f opcode ptr
    | .ok d =>
      let (es, either) := engines d
      if s.slotBusy i es || !s.turn i then s.holdCommand i opcode n (some es)
      else match s.preWait i n with
        | (s1, false) => s1.holdCommand i opcode n none
        | (s1, true) =>
          if !s1.tagCurrent (s1.pitch x.pitch).tenantTag then
            s1.faultSlot i (fcTenant, (s1.pitch x.pitch).tenantTag) opcode ptr
          else
            let k := work s1 i d
            match k.err with
            | some f => ((k.s.meet i k.met).sendList i k.sends).1.faultSlot i
                (if f.1 = fcDescriptor && cwDesc n then (fcDescriptor, cwArgs n % 2 ^ 22) else f) opcode ptr
            | none =>
              match k.stall with
              | some a =>
                ((s1.holdCommand i opcode n none).modSlot i (fun x => { x with hold := .quota a.1, preReady := true })).stallQuota x.pitch a
              | none => State.enter i n opcode es either { k with s := k.s.settleHold x.pitch x.hold, words := d }

/-! ### Completion (R132, R141, R145, R186, R216) -/

/-- Is the job's work on the core's own memories done, with only commits of writes still due (R141). -/
def State.localDone (s : State) (j : Job) : Bool :=
  j.wait == .none && !j.tags.isEmpty && j.sends.isEmpty && j.todo.isEmpty && j.move.isNone && j.flight.isEmpty && !s.fabric.colls.any (fun o => o.slot == j.slot && j.names .xfr)
    && j.tags.all (fun t => (s.tier.tags.find? (·.tag == t)).elim true (·.write))

/-- Is a FENCE met: no earlier command of the slot on a masked engine (R139, R141). -/
def State.fenceMet (s : State) (i mask : Nat) (commit : Bool) : Bool :=
  !((s.core (coreOfSlot i)).jobs.any (fun j => j.slot == i && (maskEngines mask).any (fun e => j.names e)
    && (commit || !s.localDone j)))

/-- Contents that the spec leaves open after a power-off, from the model's counter: a memory of `n` bytes. -/
def freeMemory (c n : Nat) : Mem := cellsOf 0 ((Config.freeBytes c n).take n)

/-- Gate a core when every slot is parked or unassigned (R186): contents are lost under PARK_OFF and else kept (under RUN, which R186
does not name, the model's choice, log entry 127). -/
def State.gateCore (s : State) (c : Nat) : State :=
  let all := (List.range 4).all (fun k => (s.slot (4 * c + k)).st == .parked || (s.slot (4 * c + k)).st == .idle)
  let k := s.core c
  if all && !bit k.mode.toNat 15 then
    let k' : Core := { k with mode := k.mode ||| 0x8000 }
    if k.mode.toNat % 4 = 2 then
      { s.setCore c { k' with
          scratch := freeMemory s.freeCtr 4194304, acc := freeMemory (s.freeCtr + 1) 524288, spPoison := [], accPoison := [] }
        with freeCtr := s.freeCtr + 2 }
    else s.setCore c k'
  else s

/-- Write a PARK's MODE into CORE_MODE; PARK_RETAIN is not replaced by PARK_OFF (R186). -/
def Core.parkMode (k : Core) (mode : Nat) : Core :=
  if k.mode.toNat % 4 = 1 then k else { k with mode := k.mode &&& 0xFFFFFFFC ||| BitVec.ofNat 32 (mode % 4) }

/-- A slot of the core wakes: MODE returns to RUN and the core is not gated (R186). -/
def Core.wake (k : Core) : Core := { k with mode := k.mode &&& 0xFFFF7FFC }

/-- The pitch is COMPLETE when every slot is STOPPED (R456). -/
def State.checkComplete (s : State) (p : Nat) : State :=
  let r := s.pitch p
  if r.st == .running && r.slots.all (fun i => (s.slot i).st == .stopped) then s.setPitch p { r with st := .complete } else s

/-- Release a slot held by FENCE, PARK or STOP once its commands are complete (R139, R141, R145, R186). -/
def State.settle (s : State) (i : Nat) : State :=
  let x := s.slot i
  let idle := !((s.core (coreOfSlot i)).jobs.any (·.slot == i))
  match x.hold with
  | .fence mask commit => if s.fenceMet i mask commit then s.modSlot i (fun x => { x with hold := .none }) else s
  | .park mode =>
    if idle then
      (((s.modSlot i (fun x => { x with hold := .none, st := .parked })).modCore (coreOfSlot i) (·.parkMode mode)).gateCore
        (coreOfSlot i)).settleDrop
    else s
  | .stop op =>
    if idle && s.operandUp op then
      (((s.modSlot i (fun x => { x with hold := .none, st := .stopped })).applyOperand i op).checkComplete x.pitch).settleDrop
    else s
  | _ => s

end Sys2Proof.Machine
end

