-- ==== Sys2Proof/Machine/Sequencer.lean ====
section
/-! DEFINITION. The control commands (opcodes 0x00 to 0x0F, R139 to R145), and what the sequencers, cluster controllers and
engines do on their own: completion, step ends, pulses, wakes, donation quanta, watchdogs (chapters 03, 09). -/

namespace Sys2Proof.Machine

/-! ### Control commands -/

/-- Issue a control command: `kind` the OPND_KIND it takes, `fields` the ARGS ranges it names (R139). -/
def State.control (s : State) (u : SlotRef) (w : CmdWord) (opcode : Nat) (kind : Nat → Bool)
    (fields : List (Nat × Nat)) (act : State → Nat → Nat → State) : State :=
  let i := slotIndex u
  let n := w.toNat
  let x := s.slot i
  if !s.canIssue i || !x.fits opcode n then s
  else match s.fetchPoison i with
  | (s1, some f) => s1.faultSlot i f opcode x.streamPtr
  | (_, none) =>
  let s := s.fetch i opcode n
  if !s.turn i then s.holdCommand i opcode n (some [])
  else if !x.predicate n then s.advance i
  else if cwDesc n || cwDesc128 n || cwDone n || cwPre n || !kind (cwKind n) || !opndFormed n || !onlyBits (cwArgs n) fields then
    s.faultSlot i (fcDescriptor, 0) opcode x.streamPtr
  else act s i n

/-- The opcodes of R124; all others are reserved. -/
def opcodeListed (op : Nat) : Bool :=
  ([(0x00, 0x0F), (0x20, 0x22), (0x40, 0x56), (0x60, 0x66), (0x80, 0x83), (0x90, 0x95), (0xA0, 0xA4), (0xB0, 0xB4)] : List (Nat × Nat)).any
    (fun r => decide (r.1 ≤ op) && decide (op ≤ r.2))

/-- The 128 bits of the command at a slot's position in its pitch's cluster SRAM share, where they lie in it (R117). -/
def State.streamWord (s : State) (i : Nat) : Option Nat :=
  let x := s.slot i
  let n := clusterOfSlot i
  let (base, len) := (s.pitch x.pitch).share n
  if x.streamPtr < base || base + len < x.streamPtr + 16 then none else some (leNat (s.readSram n x.streamPtr 16))

/-- A slot whose stream holds a reserved opcode where it fetches next is rejected with DESCRIPTOR_INVALID (R10, R124). -/
def State.rejectReserved (s : State) (i : Nat) : State :=
  match s.streamWord i with
  | none => s
  | some w =>
    if s.canIssue i && (s.slot i).held.isNone && !opcodeListed (field w 127 120) && (s.slot i).predicate w then
      s.faultSlot i (fcDescriptor, 0) (field w 127 120) (s.slot i).streamPtr
    else s

/-- NOP: nothing; it completes at issue (R139). -/
def execNop (u : SlotRef) (w : CmdWord) (s : State) : Host.Outcome State Fault Refusal :=
  .next (s.control u w 0x00 (· == 0) [] (fun s i _ => s.advance i))

/-- WAIT: hold the slot until the peg's value is at least THRESH; the value is unchanged (R139, R147). -/
def execWait (u : SlotRef) (w : CmdWord) (s : State) : Host.Outcome State Fault Refusal :=
  .next (s.control u w 0x01 (· == 2) [(15, 0)] (fun s i n =>
    let x := s.slot i
    let name := cwOpnd n
    let thresh := field n 15 0
    if !s.mayUsePeg x.pitch name || name / 1024 != clusterOfSlot i then s.faultSlot i (fcAddress, name) 0x01 x.streamPtr
    else if thresh ≤ (s.peg (name / 1024) (name % 1024)).value.toNat then s.advance i
    else ((s.advance i).modSlot i (fun x => { x with hold := .pegWait name thresh, st := .waiting })).waitPeg
      (name / 1024) (name % 1024) i thresh true))

/-- SIGNAL: raise one pulse on a line allocated to the pitch (R139, R155). -/
def execSignal (u : SlotRef) (w : CmdWord) (s : State) : Host.Outcome State Fault Refusal :=
  .next (s.control u w 0x02 (· == 1) [] (fun s i n =>
    let x := s.slot i
    if !s.mayRaise x.pitch (clusterOfSlot i) (cwOpnd n) then s.faultSlot i (fcAddress, cwOpnd n) 0x02 x.streamPtr
    else (s.advance i).applyOperand i (.line (cwOpnd n))))

/-- PEG_TAKE: hold the slot until AMOUNT is granted (R139, R147 to R149). -/
def execPegTake (u : SlotRef) (w : CmdWord) (s : State) : Host.Outcome State Fault Refusal :=
  .next (s.control u w 0x03 (· == 2) [(15, 0)] (fun s i n =>
    let x := s.slot i
    let name := cwOpnd n
    let amount := field n 15 0
    let c := name / 1024
    if !s.mayUsePeg x.pitch name || c != clusterOfSlot i then s.faultSlot i (fcAddress, name) 0x03 x.streamPtr
    else if amount = 0 then s.advance i
    else if s.takeReady c (name % 1024) i amount then ((s.advance i).takePeg c (name % 1024) i amount).examine c (name % 1024)
    else ((s.advance i).modSlot i (fun x => { x with hold := .pegTake name amount, st := .waiting })).waitPeg
      c (name % 1024) i amount false))

/-- PEG_GIVE: add AMOUNT to the peg at issue (R139, R147, R151). -/
def execPegGive (u : SlotRef) (w : CmdWord) (s : State) : Host.Outcome State Fault Refusal :=
  .next (s.control u w 0x04 (· == 2) [(15, 0)] (fun s i n =>
    let x := s.slot i
    let name := cwOpnd n
    if !s.mayUsePeg x.pitch name then s.faultSlot i (fcAddress, name) 0x04 x.streamPtr
    else if !s.up (48 + name / 1024) then s
    else ((s.callCluster (name / 1024)).advance i).givePeg name (field n 15 0) (some i)))

/-- PARK: wait for the slot's commands, then park it and request a core mode (R139, R186). -/
def execPark (u : SlotRef) (w : CmdWord) (s : State) : Host.Outcome State Fault Refusal :=
  .next (s.control u w 0x05 (· == 0) [(1, 0)] (fun s i n =>
    let mode := field n 1 0
    if mode = 0 || mode = 3 then s.faultSlot i (fcDescriptor, 0) 0x05 (s.slot i).streamPtr
    else ((s.advance i).modSlot i (fun x => { x with hold := .park mode })).settle i))

/-- LOOP: issue the BODY commands that follow COUNT times (R139, R142). -/
def execLoop (u : SlotRef) (w : CmdWord) (s : State) : Host.Outcome State Fault Refusal :=
  .next (s.control u w 0x06 (· == 0) [(15, 0), (21, 16), (23, 22)] (fun s i n =>
    let x := s.slot i
    let count := field n 15 0
    let body := field n 21 16
    let lc := field n 23 22
    if body = 0 || 32 < body || x.loops.any (·.lc == lc) then s.faultSlot i (fcDescriptor, 0) 0x06 x.streamPtr
    else if count = 0 then
      (s.modSlot i (fun x => { x.goTo (x.streamPtr + 16 * (body + 1)) with watchRun := 0 })).markIssued i
    else (s.modSlot i (fun x => { x with
      loops := { lc, start := x.streamPtr + 16, body, count } :: x.loops
      buffer := keepBodies x.loops x.buffer
      lc := x.lc.setIfInBounds lc 0
      streamPtr := x.streamPtr + 16
      watchRun := 0 })).markIssued i))

/-- BRANCH: continue at the BRANCH's position plus OFFSET; loops it leaves end (R139, R143). -/
def execBranch (u : SlotRef) (w : CmdWord) (s : State) : Host.Outcome State Fault Refusal :=
  .next (s.control u w 0x07 (· == 0) [(23, 0)] (fun s i n =>
    let x := s.slot i
    let target : Int := x.streamPtr + 16 * signed 24 (field n 23 0)
    let (base, len) := (s.pitch x.pitch).share (clusterOfSlot i)
    if target < base || (base + len : Int) < target + 16 then s.faultSlot i (fcAddress, unsigned 48 target) 0x07 x.streamPtr
    else (s.modSlot i (fun x =>
      let fs := (x.loops.reverse.takeWhile (fun f => f.holds target.toNat)).reverse
      { x with loops := fs, buffer := keepBodies fs x.buffer, streamPtr := target.toNat, watchRun := 0 })).markIssued i))

/-- FENCE: hold the slot until its earlier commands on the masked engines complete (R139, R141). -/
def execFence (u : SlotRef) (w : CmdWord) (s : State) : Host.Outcome State Fault Refusal :=
  .next (s.control u w 0x08 (· == 0) [(3, 0), (4, 4)] (fun s i n =>
    ((s.advance i).modSlot i (fun x => { x with hold := .fence (field n 3 0) (bit n 4) })).settle i))

/-- EVENT: hold the slot until a pulse is pending on the line, then consume one (R139, R153). -/
def execEvent (u : SlotRef) (w : CmdWord) (s : State) : Host.Outcome State Fault Refusal :=
  .next (s.control u w 0x09 (· == 1) [] (fun s i n =>
    let l := cwOpnd n
    if 0 < tabGet (s.slot i).pending l 0 then (s.advance i).modSlot i (·.consume l)
    else (s.advance i).modSlot i (fun x => { x with hold := .event l, st := .waiting })))

/-- SETREG: S[REG] := VALUE (R139, R115, R193). -/
def execSetreg (u : SlotRef) (w : CmdWord) (s : State) : Host.Outcome State Fault Refusal :=
  .next (s.control u w 0x0A (· == 0) [(31, 0), (36, 32)] (fun s i n =>
    (s.advance i).modSlot i (·.setReg (field n 36 32) (BitVec.ofNat 32 (field n 31 0)))))

/-- ADDREG: S[REG] := S[REG] + ADDEND, modulo 2^32 (R139). -/
def execAddreg (u : SlotRef) (w : CmdWord) (s : State) : Host.Outcome State Fault Refusal :=
  .next (s.control u w 0x0B (· == 0) [(31, 0), (36, 32)] (fun s i n =>
    (s.advance i).modSlot i (fun x => x.setReg (field n 36 32) (x.reg (field n 36 32) + BitVec.ofNat 32 (field n 31 0)))))

/-- The comparison CMP selects (R140); 0b110 and 0b111 are reserved. -/
def compareRegs (cmp : Nat) (a b : Word) : Option Bool :=
  match cmp with
  | 0 => some (a == b)
  | 1 => some (a != b)
  | 2 => some (decide (a.toNat < b.toNat))
  | 3 => some (decide (b.toNat ≤ a.toNat))
  | 4 => some (decide (a.toInt < b.toInt))
  | 5 => some (decide (b.toInt ≤ a.toInt))
  | _ => none

/-- A predicate register with one bit written. -/
def setPred (p : BitVec 8) (k : Nat) (v : Bool) : BitVec 8 :=
  BitVec.ofNat 8 (p.toNat - (if p.toNat.testBit k then 2 ^ k else 0) + (if v then 2 ^ k else 0))

/-- PSET: P[PIDX] := comparison of S[REG] with IMM (R139, R140). -/
def execPset (u : SlotRef) (w : CmdWord) (s : State) : Host.Outcome State Fault Refusal :=
  .next (s.control u w 0x0C (· == 0) [(31, 0), (36, 32), (39, 37), (42, 40)] (fun s i n =>
    let x := s.slot i
    let k := field n 39 37
    match compareRegs (field n 42 40) (x.reg (field n 36 32)) (BitVec.ofNat 32 (field n 31 0)) with
    | none => s.faultSlot i (fcDescriptor, 0) 0x0C x.streamPtr
    | some v =>
      if k = 0 then s.faultSlot i (fcDescriptor, 0) 0x0C x.streamPtr
      else (s.advance i).modSlot i (fun x => { x with pred := setPred x.pred k v })))

/-- Code of a slot state (R116). -/
def SlotState.code (t : SlotState) : Nat :=
  match t with
  | .idle => 0
  | .active => 1
  | .waiting => 2
  | .parked => 3
  | .stopped => 4
  | .teardown => 5

/-- SLOT_STATE of a slot (R189). -/
def State.slotStateWord (s : State) (i : Nat) : Word :=
  let x := s.slot i
  let busy := fun (e : Engine) => flag ((s.core (coreOfSlot i)).jobs.any (fun j => j.slot == i && j.names e))
  BitVec.ofNat 32 (x.st.code + 16 * (busy .m0 + 2 * busy .m1 + 4 * busy .vec + 8 * busy .xfr)
    + (if x.st = .idle then 0 else 256 * (s.ownPrio i % 8) + 2048 * (x.pitch % 32)))

/-- A register of a slot's block at a byte offset (R188, R190); reserved offsets read 0 (R9). -/
def State.slotReg (s : State) (i off : Nat) : Word :=
  let x := s.slot i
  if off = 0x00 then s.slotStateWord i
  else if off = 0x04 then x.spShare
  else if off = 0x08 then x.accShare
  else if off = 0x0C then BitVec.ofNat 32 x.streamPtr
  else if off = 0x10 then BitVec.ofNat 32 (x.pred.toNat / 2 * 2 + 1)
  else if off = 0x14 then BitVec.ofNat 32 x.numFlags.toNat
  else if off = 0x18 then BitVec.ofNat 32 x.numTrap.toNat
  else if off = 0x1C then x.satCount
  else if off = 0x20 then BitVec.ofNat 32 x.roleEpoch.toNat
  else if 0x30 ≤ off ∧ off < 0x40 then BitVec.ofNat 32 (x.lcGet ((off - 0x30) / 4)).toNat
  else if off = 0x40 then BitVec.ofNat 32 s.time
  else if off = 0x44 then x.ftimeHi
  else if 0x80 ≤ off then x.reg ((off - 0x80) / 4)
  else 0

/-- A read of FTIME_LO latches the upper half of the same stamp (R192). -/
def State.latchTime (s : State) (i : Nat) : State :=
  s.modSlot i (fun x => { x with ftimeHi := BitVec.ofNat 32 (s.time / 2 ^ 32) })

/-- Write a slot register that SLOT_WR or MC firmware may write (R188, R191, R99). -/
def Slot.writeReg (x : Slot) (off : Nat) (v : Word) : Slot :=
  if off = 0x10 then { x with pred := BitVec.ofNat 8 (v.toNat / 2 * 2 + 1) }
  else if off = 0x14 then { x with numFlags := x.numFlags &&& ~~~ (BitVec.ofNat 6 v.toNat) }
  else if off = 0x18 then { x with numTrap := BitVec.ofNat 6 v.toNat }
  else if off = 0x1C then { x with satCount := 0 }
  else if 0x80 ≤ off then x.setReg ((off - 0x80) / 4) v
  else x

/-- May SLOT_WR write the register at an offset (R191). -/
def slotWritable (off : Nat) : Bool :=
  off % 4 == 0 && (off == 0x10 || off == 0x14 || off == 0x18 || off == 0x1C || (decide (0x80 ≤ off) && decide (off ≤ 0xFC)))

/-- SLOT_RD: S[REG] := slot register at OFFSET (R139, R191, R192); STREAM_PTR is that of the command behind it, the next to fetch (R188). -/
def execSlotRd (u : SlotRef) (w : CmdWord) (s : State) : Host.Outcome State Fault Refusal :=
  .next (s.control u w 0x0D (· == 0) [(36, 32), (47, 40)] (fun s i n =>
    let off := field n 47 40
    if off % 4 != 0 then s.faultSlot i (fcAddress, off) 0x0D (s.slot i).streamPtr
    else
      let t := (if off = 0x40 then s.latchTime i else s).advance i
      t.modSlot i (·.setReg (field n 36 32) (if off = 0x0C then t.slotReg i off else s.slotReg i off))))

/-- SLOT_WR: slot register at OFFSET := S[REG] (R139, R191). -/
def execSlotWr (u : SlotRef) (w : CmdWord) (s : State) : Host.Outcome State Fault Refusal :=
  .next (s.control u w 0x0E (· == 0) [(36, 32), (47, 40)] (fun s i n =>
    let off := field n 47 40
    if !slotWritable off then s.faultSlot i (fcAddress, off) 0x0E (s.slot i).streamPtr
    else (s.advance i).modSlot i (fun x => x.writeReg off (x.reg (field n 36 32)))))

/-- STOP: wait for the slot's commands, apply the operand, and enter STOPPED (R139, R145). -/
def execStop (u : SlotRef) (w : CmdWord) (s : State) : Host.Outcome State Fault Refusal :=
  .next (s.control u w 0x0F (fun k => decide (k < 3)) [] (fun s i n =>
    if !s.opndAllowed i n then s.faultSlot i (fcAddress, cwOpnd n) 0x0F (s.slot i).streamPtr
    else ((s.advance i).modSlot i (fun x => { x with hold := .stop (opndOf n) })).settle i))

/-! ### Steps of engines and cluster controllers -/

/-- Add an engine's cycles to its busy counter (R181, R182); it stops in confidential mode. -/
def Core.busy (k : Core) (e : Engine) (cycles : Nat) : Core :=
  let n := BitVec.ofNat 32 cycles
  match e with
  | .m0 => { k with busyM0 := k.busyM0 + n }
  | .m1 => { k with busyM1 := k.busyM1 + n }
  | .vec => { k with busyV := k.busyV + n }
  | .xfr => { k with busyX := k.busyX + n }

/-- The job that pre-empts the runner of an engine (R134, R137, R138): ready, and of higher effective priority; one
that names either matrix engine does so only where both run lower priorities, on the one of the lower, or engine 0. -/
def State.preempter (s : State) (c : Nat) (e : Engine) (run : Job) : Option Job :=
  let jobs := (s.core c).jobs
  let prio := fun (j : Job) => s.effPrio j.slot
  let runPrio := fun (e : Engine) => ((s.core c).runner e).elim 8 prio
  let may := fun (j : Job) => j.names e && !j.running.contains e && !j.parked && decide (prio run < prio j)
    && (!j.either || (decide (runPrio .m0 < prio j) && decide (runPrio .m1 < prio j)
      && (if e = .m0 then decide (runPrio .m0 ≤ runPrio .m1) else decide (runPrio .m1 < runPrio .m0))))
  (sortBy (fun j => 7 - prio j) (jobs.filter may)).head?

/-- DIV_APPLY: a written DIV takes effect at the boundary (R185). -/
def execDivApply (cr : CoreRef) (s : State) : Host.Outcome State Fault Refusal :=
  let c := coreIndex cr
  match (s.core c).newDiv with
  | none => .next s
  | some d => .next (s.modCore c (fun k => { k with
      mode := k.mode &&& 0xFFFFF8FF ||| BitVec.ofNat 32 (256 * (d % 8)), newDiv := none }))

/-- DONATION_QUANTUM_EXPIRY: each holder that still holds the peg under a donation that has run its quantum is torn
down with PEG_DONATION_TIMEOUT (R469). -/
def execDonationQuantumExpiry (cluster : Fin 6) (peg : Nat) (s : State) : Host.Outcome State Fault Refusal :=
  let n := cluster.val
  let ds := (s.cluster n).donations.filter (fun d => d.peg == peg && (s.peg n peg).held d.holder != 0
    && decide (d.start + 1000 * s.obj (Key.at Key.donationQuantumUs (s.slot d.waiter).pitch) ≤ s.time))
  .next (ds.foldl (fun (t : State) d =>
    let p := (t.slot d.holder).pitch
    if (t.peg n peg).held d.holder != 0 then
      t.faultPitch p fcDonation (1024 * n + peg) { slot := some d.holder, waiter := (s.slot d.waiter).pitch }
    else t) s)

/-- Add a pulse to a slot's pending counter, waking or releasing it (R144, R153); a pulse lost at 255 wakes a parked slot too (DESIGN
CHOICE, log entry 123). -/
def State.pulseSlot (s : State) (i line : Nat) : State :=
  let x := s.slot i
  if x.st = .idle || x.st = .teardown then s
  else
    let (t, lost) := addPending x.pending line
    let x1 := { x with pending := t }
    let s1 := if lost then s.bump (Key.at Key.eventOverflows (clusterOfSlot i)) else s
    match x.hold with
    | .event l => if l = line then s1.setSlot i (x1.consume line).release else s1.setSlot i x1
    | .preEvent l => if l = line then s1.setSlot i (x1.consume line).release else s1.setSlot i x1
    | _ =>
      if x.st = .parked then
        ((s1.setSlot i { x1 with st := .active, watchRun := 0 }).modCore (coreOfSlot i) (·.wake)).callCluster
          (clusterOfSlot i)
      else s1.setSlot i x1

/-- Add a pulse to a slot's transfer chain; a chain that waits on the line goes on (R222). -/
def State.pulseChain (s : State) (i line : Nat) : State :=
  let (t, lost) := addPending (s.slot i).chainPending line
  let s1 := s.modSlot i (fun x => { x with chainPending := t })
  if lost then s1.bump (Key.at Key.eventOverflows (clusterOfSlot i)) else s1

/-- The pulse reaches a forwarded line: one EVENT packet waits for credit, up to 255 (R535). -/
def State.pulseForward (s : State) (n line : Nat) : State :=
  let c := s.cluster n
  match c.forwards.find? (·.line == line) with
  | none => s
  | some f =>
    if 255 ≤ f.queued then s.bump (Key.at Key.eventsForwardLost n)
    else s.modCluster n (fun c => { c with
      forwards := c.forwards.map (fun g => if g.line = line then { g with queued := g.queued + 1 } else g) })

/-- Slots of a pitch to which SYS_ROUTE routes line 240, 241 or 242; lines 230 to 233 reach every slot (R481, R585). -/
def State.systemSlots (s : State) (n line : Nat) (only : List Nat) : List Nat :=
  only.flatMap (fun p =>
    if 240 ≤ line && line ≤ 242 && !bit ((s.pitch p).ent n 124 122) (line - 240) then [] else s.slotsIn p n)

/-- The pulse that may arrive next on a line: the oldest on it, where no older one of the same island is in flight (R26). -/
def Cluster.nextPulse (c : Cluster) (line : Nat) : Option Pulse :=
  (c.pulses.find? (·.line == line)).filter (fun q => (c.pulses.find? (·.src == q.src)).elim false (·.line == line))

/-- EVENT_PULSE_ARRIVE: the oldest pulse in flight on a line reaches the pending counters, pegs, chains and ports to which
the line is routed; one routed nowhere and watched by nothing is counted (R42, R153, R156). -/
def execEventPulseArrive (cluster : Fin 6) (line : Nat) (s : State) : Host.Outcome State Fault Refusal :=
  let n := cluster.val
  match (s.cluster n).nextPulse line with
  | none => .next s
  | some q =>
    let s1 := s.modCluster n (fun c => { c with pulses := c.pulses.eraseP (·.line == line) })
    match q.only with
    | some ps =>
      let is := s1.systemSlots n line ps
      .next (if is.isEmpty then s1.bump (Key.at Key.eventsUnrouted n) else is.foldl (fun (t : State) i => t.pulseSlot i line) s1)
    | none =>
      let rs := ((s1.cluster n).routes.filter (·.1 == line)).map (·.2)
      let fwd := (s1.cluster n).forwards.any (·.line == line)
      let s2 := rs.foldl (fun (t : State) r =>
        match r with
        | .peg k => t.givePeg (1024 * n + k) 1 none
        | .slot c k => t.pulseSlot (32 * n + 4 * c + k) line
        | .chain c k => t.pulseChain (32 * n + 4 * c + k) line
        | .port => t) s1
      let s3 := if fwd then s2.pulseForward n line else s2
      .next (if rs.isEmpty && !fwd && !s1.watched n line then s3.bump (Key.at Key.eventsUnrouted n) else s3)

/-- SLOT_WAKE: MC firmware wakes a parked slot, which goes on after PARK (R144, R186). -/
def execSlotWake (u : SlotRef) (s : State) : Host.Outcome State Fault Refusal :=
  let i := slotIndex u
  if (s.slot i).st = .parked then
    .next (((s.modSlot i (fun x => { x with st := .active, watchRun := 0 })).modCore (coreOfSlot i) (·.wake)).callCluster
      (clusterOfSlot i))
  else .next s

/-- Does a slot's watchdog run: WAITING, or a command stalled for a tag, quota, handle, queue packet, credit peg or
collective (R482, R532, R542). -/
def State.watchdogRuns (s : State) (i : Nat) : Bool :=
  let x := s.slot i
  x.st == .waiting || x.quotaHeld || (x.st == .active && (s.core (coreOfSlot i)).jobs.any (fun j => j.slot == i
    && (match j.wait with
      | .none => !j.sends.isEmpty || (j.names .xfr && s.fabric.colls.any (·.slot == i))
      | .chainLine _ => false
      | _ => true)))

/-- Running watchdogs run on (R482). -/
def State.runWatchdogs (s : State) (ns : Nat) : State :=
  { s with slots := s.slots.map (fun e => (e.1, if s.watchdogRuns e.1 then { e.2 with watchRun := e.2.watchRun + ns } else e.2)) }

/-- WATCHDOG_EXPIRY: a running watchdog that reaches WatchdogUs tears the pitch down with WATCHDOG (R482, R483). -/
def execWatchdogExpiry (u : SlotRef) (s : State) : Host.Outcome State Fault Refusal :=
  let i := slotIndex u
  let us := s.obj (Key.at Key.watchdogUs (s.slot i).pitch)
  if s.watchdogRuns i && us != 0 && decide (1000 * us ≤ (s.slot i).watchRun) then
    .next (s.faultSlot i (fcWatchdog, 0) 0 (s.slot i).streamPtr)
  else .next s

/-! ### Registers (R180 to R192) -/

/-- The DIV a core is to run at: the largest of its request, the cap DIV and the thermal DIV (R756). -/
def State.divFor (s : State) (c : Nat) : Nat :=
  max (tabGet s.power.divRequest c (s.obj Key.coreDivDefault))
    (max (tabGet s.power.capDiv c 3) (tabGet s.power.thermalDiv (c / 8) 3))

/-- Ask for a core's DIV (R185, R756): it takes effect at the next boundary of its engines. -/
def State.requestDiv (s : State) (c : Nat) : State :=
  let d := s.divFor c
  if field (s.core c).mode.toNat 10 8 = d then s.modCore c (fun k => { k with newDiv := none })
  else s.modCore c (fun k => { k with newDiv := some d })

/-- CORE_MODE_WRITE by MC firmware: DIV becomes the requested DIV, in effect at the next boundary (R185, R756); MODE
takes effect only while no slot of the core is assigned (R187; RUN leaves a gated core as it is, the model's choice, log entry 125); a reserved DIV or MODE leaves its field (R183). -/
def execCoreModeWrite (cr : CoreRef) (value : Word) (s : State) : Host.Outcome State Fault Refusal :=
  let c := coreIndex cr
  let div := field value.toNat 10 8
  let mode := field value.toNat 1 0
  let free := (List.range 4).all (fun k => (s.slot (4 * c + k)).st == .idle)
  let s1 : State := if 3 ≤ div then { s with power := { s.power with divRequest := tabSet s.power.divRequest c div } } else s
  let s2 := if 3 ≤ div then s1.requestDiv c else s1
  .next (if free && mode != 3 then
    let s3 := s2.modCore c (fun k => { k with mode := k.mode &&& 0xFFFFFFFC ||| BitVec.ofNat 32 mode })
    if mode = 0 then s3 else s3.gateCore c
  else s2)

/-- FTIME_LO_READ by MC firmware latches FTIME_HI (R192). -/
def execFtimeLoRead (u : SlotRef) (s : State) : Host.Outcome State Fault Refusal := .next (s.latchTime (slotIndex u))

end Sys2Proof.Machine
end

