-- ==== Sys2Proof/Machine/Imaging.lean ====
section
/-! DEFINITION. The stages of the image pipeline as functions of a frame (chapter 12, R617 to R631): each takes an image, rows of
16-bit values, and gives one. FP32 operations run in the order in which the rule's formula names them (DESIGN CHOICE:
log entry 68). -/

namespace Sys2Proof.Machine

/-- An image plane: rows of 16-bit values. -/
abbrev Plane := List (List Nat)

def Plane.at (p : Plane) (y x : Nat) : Nat := (p.getD y []).getD x 0

/-- A plane of a size from its pixels. -/
def Plane.make (h w : Nat) (f : Nat → Nat → Nat) : Plane := (List.range h).map (fun y => (List.range w).map (f y))

/-! ### FP32 helpers (R618) -/

def fNat (n : Nat) : Word := f32Of (.fin false n 0)
def fInt (n : Int) : Word := f32Of (.fin (decide (n < 0)) n.natAbs 0)
def fAdd (a b : Word) : Word := (f32Add a b).bits
def fSub (a b : Word) : Word := (f32Sub a b).bits
def fMul (a b : Word) : Word := (f32Mul a b).bits
def fDiv (a b : Word) : Word := (f32Div a b).bits
def fSum (xs : List Word) : Word := xs.foldl fAdd 0

/-- Round a stage's result to an unsigned 16-bit integer, ties away from zero, clamped (R618). -/
def toU16 (x : Word) : Nat :=
  match f32Value x with
  | .nan => Config.nanPixel % 65536
  | .inf neg => if neg then 0 else 65535
  | .fin neg m e =>
    let r := if 0 ≤ e then m * 2 ^ e.toNat else (2 * m + 2 ^ (-e).toNat) / (2 * 2 ^ (-e).toNat)
    if neg then 0 else min 65535 r

/-- FP32 parameter `i` of a DOMAIN, and 16-bit parameter `i`; a default where nothing was written. -/
def f32At (d : List Byte) (i : Nat) : Word := BitVec.ofNat 32 (leNat ((d.drop (4 * i)).take 4))
def u16At (d : List Byte) (i : Nat) : Nat := leNat ((d.drop (2 * i)).take 2)

/-! ### Mosaic and neighbourhoods (R619, R620) -/

/-- The mosaic cell, its width and height, and the frame's size. -/
structure Mosaic where
  bits : Nat
  w : Nat
  h : Nat
  deriving DecidableEq, Repr

def Mosaic.px (m : Mosaic) : Nat := 2 ^ (field m.bits 1 0)
def Mosaic.py (m : Mosaic) : Nat := 2 ^ (field m.bits 3 2)

/-- Cell position 4r + q of a pixel, and its channel type: 0 R, 1 G, 2 B, 3 C, 4 I. -/
def Mosaic.pos (m : Mosaic) (y x : Nat) : Nat := 4 * (y % m.py) + x % m.px
def Mosaic.ty (m : Mosaic) (y x : Nat) : Nat := let p := m.pos y x; field m.bits (3 * p + 18) (3 * p + 16)

/-- Does the cell hold a type. -/
def Mosaic.has (m : Mosaic) (t : Nat) : Bool :=
  (List.range m.py).any (fun r => (List.range m.px).any (fun q => m.ty r q == t))

/-- Is a mosaic object's value permitted (R619). -/
def mosaicOk (bits w h : Nat) : Bool :=
  let m : Mosaic := { bits, w, h }
  field bits 1 0 != 3 && field bits 3 2 != 3 && field bits 15 4 == 0
    && (List.range 16).all (fun p => decide (field bits (3 * p + 18) (3 * p + 16) ≤ 4))
    && w % m.px == 0 && h % m.py == 0

/-- A coordinate outside the image moves inside by whole cells (R620). -/
def inside (v : Int) (cell n : Nat) : Nat :=
  if v < 0 then (v % (cell : Int)).toNat
  else if v < n then v.toNat
  else (v - ((v.toNat - n) / cell + 1) * cell).toNat

/-- Offsets −a … a. -/
def offsets (a : Nat) : List Int := (List.range (2 * a + 1)).map (fun i => (i : Int) - a)

/-- The window of a pixel with `ry` rows and `rx` columns on each side, in row order: offsets and image positions. -/
def Mosaic.window (m : Mosaic) (ry rx y x : Nat) : List ((Int × Int) × (Nat × Nat)) :=
  (offsets ry).flatMap (fun dy => (offsets rx).map (fun dx => ((dy, dx), (inside (y + dy) m.py m.h, inside (x + dx) m.px m.w))))

/-- The neighbourhood of stages 5, 6, 8 and 9 (R620). -/
def Mosaic.hood (m : Mosaic) (y x : Nat) : List ((Int × Int) × (Nat × Nat)) := m.window m.py m.px y x

/-! ### Stages 4 to 8 (R621 to R625) -/

/-- The settings of a frame that the stages use. -/
structure Tuning where
  bypass : Nat
  csc : Nat
  giLimit : Nat
  defThreshold : Nat
  xtalk : List Byte
  defects : List Byte
  shading : List Byte
  strength : List Byte
  limits : List Byte
  colour : List Byte
  tone : List Byte
  deriving DecidableEq, Repr

/-- Cross-talk correction of a pixel (R621); the default kernel is the identity. -/
def crossTalk (m : Mosaic) (t : Tuning) (p : Plane) (y x : Nat) : Nat :=
  if t.xtalk.isEmpty then p.at y x
  else
    let base := 10 * m.pos y x
    let terms := (List.zip (List.range 9) (m.window 1 1 y x)).map (fun e =>
      fMul (f32At t.xtalk (base + e.1)) (fNat (p.at e.2.2.1 e.2.2.2)))
    toU16 (fAdd (fSum terms) (f32At t.xtalk (base + 9)))

/-- The FP32 mean of pixel values. -/
def fMean (vs : List Nat) : Word := fDiv (fSum (vs.map fNat)) (fNat vs.length)

/-- Is |a| at most b. -/
def fAbsLe (a b : Word) : Bool := f32Le (a &&& 0x7FFFFFFF) b

/-- Green imbalance of a pixel (R622). -/
def greenImbalance (m : Mosaic) (t : Tuning) (p : Plane) (y x : Nat) : Nat :=
  let v := p.at y x
  if m.ty y x ≠ 1 then v
  else
    let g := (m.hood y x).filter (fun e => m.ty e.2.1 e.2.2 == 1)
    let own := g.filter (fun e => e.2.1 % m.py % 2 == y % m.py % 2)
    let other := g.filter (fun e => e.2.1 % m.py % 2 != y % m.py % 2)
    if other.isEmpty then v
    else
      let d := fSub (fMean (other.map (fun e => p.at e.2.1 e.2.2))) (fMean (own.map (fun e => p.at e.2.1 e.2.2)))
      if fAbsLe d (fNat t.giLimit) then toU16 (fAdd (fNat v) (fDiv d (fNat 2))) else v

/-- The median: the middle one, or the mean of the middle two (R623). -/
def medianOf (vs : List Nat) : Nat :=
  let s := sortBy id vs
  let n := s.length
  if n % 2 = 1 then s.getD (n / 2) 0 else toU16 (fMean [s.getD (n / 2 - 1) 0, s.getD (n / 2) 0])

/-- The other pixels of a pixel's type in its neighbourhood. -/
def sameType (m : Mosaic) (p : Plane) (y x : Nat) : List Nat :=
  ((m.hood y x).filter (fun e => e.1 != (0, 0) && m.ty e.2.1 e.2.2 == m.ty y x)).map (fun e => p.at e.2.1 e.2.2)

/-- Is a pixel in the defect list (R623, R645). -/
def Tuning.listed (t : Tuning) (y x : Nat) : Bool :=
  (List.range (t.defects.length / 4)).any (fun i =>
    let e := leNat ((t.defects.drop (4 * i)).take 4)
    field e 13 0 == x && field e 29 16 == y)

/-- Does a pixel exceed the largest or fall below the smallest of the others by more than DefectThreshold (R623). -/
def Tuning.exceeds (t : Tuning) (v : Nat) (others : List Nat) : Bool :=
  t.defThreshold != 0 && !others.isEmpty
    && (decide (others.foldl max 0 + t.defThreshold < v) || decide (v + t.defThreshold < others.foldl min 65535))

/-- Defect correction of a pixel (R623). -/
def defectCorrect (m : Mosaic) (t : Tuning) (p : Plane) (y x : Nat) : Nat :=
  let v := p.at y x
  let others := sameType m p y x
  if !others.isEmpty && (t.listed y x || t.exceeds v others) then medianOf others else v

/-- Lens shading of a pixel (R624): the gain of its type, bilinear on the 33 × 33 grid; the default gain is 1. -/
def lensShade (m : Mosaic) (t : Tuning) (p : Plane) (y x : Nat) : Nat :=
  let v := p.at y x
  if t.shading.isEmpty then v
  else
    let place := fun (k n : Nat) => if n ≤ 1 then (0, (0 : Word)) else
      let i := min 31 (32 * k / (n - 1))
      (i, fDiv (fNat (32 * k - i * (n - 1))) (fNat (n - 1)))
    let (i, fy) := place y m.h
    let (j, fx) := place x m.w
    let g := fun (a b : Nat) => fDiv (fNat (u16At t.shading (1089 * m.ty y x + 33 * a + b))) (fNat 4096)
    let mix := fun (a b f : Word) => fAdd a (fMul (fSub b a) f)
    toU16 (fMul (fNat v) (mix (mix (g i j) (g i (j + 1)) fx) (mix (g (i + 1) j) (g (i + 1) (j + 1)) fx) fy))

/-- Raw noise reduction of a pixel (R625). -/
def noiseReduce (m : Mosaic) (t : Tuning) (p : Plane) (y x : Nat) : Nat :=
  let v := p.at y x
  let ty := m.ty y x
  let s := ((t.strength.getD ty 0)).toNat
  let lim := u16At t.limits ty
  let near := ((m.hood y x).filter (fun e => m.ty e.2.1 e.2.2 == ty
    && decide (((p.at e.2.1 e.2.2 : Int) - v).natAbs ≤ lim))).map (fun e => p.at e.2.1 e.2.2)
  if s = 0 then v
  else toU16 (fAdd (fNat v) (fMul (fDiv (fNat s) (fNat 256)) (fSub (fMean near) (fNat v))))

/-- Apply a mosaic stage to a plane unless its bit of CtxStageBypass is set. -/
def mosaicStage (m : Mosaic) (t : Tuning) (k : Nat) (f : Mosaic → Tuning → Plane → Nat → Nat → Nat) (p : Plane) : Plane :=
  if bit t.bypass k then p else Plane.make p.length m.w (f m t p)

/-! ### Stages 9 to 12 (R626 to R629) -/

/-- A pixel after the colour stages. -/
structure Pixel where
  r : Nat := 0
  g : Nat := 0
  b : Nat := 0
  c : Nat := 0
  i : Nat := 0
  y : Nat := 0
  cb : Nat := 0
  cr : Nat := 0
  deriving DecidableEq, Repr

/-- Demosaic estimate of a type at a pixel (R626). -/
def estimate (m : Mosaic) (p : Plane) (y x t : Nat) : Nat :=
  if m.ty y x = t then p.at y x
  else
    let es := (m.hood y x).filter (fun e => m.ty e.2.1 e.2.2 == t)
    if es.isEmpty then 0
    else
      let ws := es.map (fun e => (fDiv (fNat 1) (fNat (e.1.1.natAbs + e.1.2.natAbs)), fNat (p.at e.2.1 e.2.2)))
      toU16 (fDiv (fSum (ws.map (fun e => fMul e.1 e.2))) (fSum (ws.map (·.1))))

/-- Demosaic (R626); with bypass R, G and B take the pixel's value (R617). -/
def demosaic (m : Mosaic) (t : Tuning) (p : Plane) (y x : Nat) : Pixel :=
  if bit t.bypass 9 then { r := p.at y x, g := p.at y x, b := p.at y x }
  else { r := estimate m p y x 0, g := estimate m p y x 1, b := estimate m p y x 2, c := estimate m p y x 3,
         i := estimate m p y x 4 }

/-- Colour matrix (R627); the default is the identity. -/
def colourMatrix (m : Mosaic) (t : Tuning) (q : Pixel) : Pixel :=
  if bit t.bypass 10 || t.colour.isEmpty then q
  else
    let x := if m.has 3 then q.c else 65535
    let row := fun (k : Nat) => toU16 (fSum ((List.zip (List.range 4) [q.r, q.g, q.b, x]).map (fun e =>
      fMul (f32At t.colour (4 * k + e.1)) (fNat e.2))))
    { q with r := row 0, g := row 1, b := row 2 }

/-- Tone table of a colour (R628); the default is linear: entry i is 256 i, the last one 65,535 (DESIGN CHOICE, log entry 68). -/
def toneEntry (t : Tuning) (k i : Nat) : Nat := if t.tone.isEmpty then min 65535 (256 * i) else u16At t.tone (257 * k + i)
def toneOf (t : Tuning) (k v : Nat) : Nat :=
  let a := toneEntry t k (v / 256)
  let b := toneEntry t k (v / 256 + 1)
  toU16 (fAdd (fNat a) (fDiv (fMul (fInt ((b : Int) - a)) (fNat (v % 256))) (fNat 256)))
def toneMap (t : Tuning) (q : Pixel) : Pixel :=
  if bit t.bypass 11 then q else { q with r := toneOf t 0 q.r, g := toneOf t 1 q.g, b := toneOf t 2 q.b }

/-- Colour-space conversion (R629): BT.601 (K_R 0.299, K_B 0.114) or BT.709 (0.2126, 0.0722), full or limited range. -/
def convert (t : Tuning) (q : Pixel) : Pixel :=
  if bit t.bypass 12 || t.csc = 0 then { q with y := 0, cb := 0, cr := 0 }
  else
    let kr := if t.csc = 1 then fDiv (fNat 299) (fNat 1000) else fDiv (fNat 2126) (fNat 10000)
    let kb := if t.csc = 1 then fDiv (fNat 114) (fNat 1000) else fDiv (fNat 722) (fNat 10000)
    let one := fNat 1
    let kg := fSub (fSub one kr) kb
    let y := fAdd (fAdd (fMul kr (fNat q.r)) (fMul kg (fNat q.g))) (fMul kb (fNat q.b))
    let cb := fDiv (fSub (fNat q.b) y) (fMul (fNat 2) (fSub one kb))
    let cr := fDiv (fSub (fNat q.r) y) (fMul (fNat 2) (fSub one kr))
    let ys := if t.csc = 3 then fAdd (fNat 4096) (fDiv (fMul y (fNat 56064)) (fNat 65535)) else y
    let chroma := fun (c : Word) => fAdd (fNat 32768) (if t.csc = 3 then fDiv (fMul c (fNat 57344)) (fNat 65535) else c)
    { q with y := toU16 ys, cb := toU16 (chroma cb), cr := toU16 (chroma cr) }

/-- A YUV422 pixel as received (R617). -/
def yuvPixel (v : Nat) : Pixel := { y := field v 7 0 * 256, cb := field v 15 8 * 256, cr := field v 23 16 * 256 }

/-- The colour image of the lines received so far (R617). -/
def colourImage (m : Mosaic) (t : Tuning) (yuv : Bool) (lines : Plane) : List (List Pixel) :=
  if yuv then lines.map (·.map yuvPixel)
  else
    let p4 := mosaicStage m t 4 crossTalk lines
    let p5 := mosaicStage m t 5 greenImbalance p4
    let p6 := mosaicStage m t 6 defectCorrect p5
    let p7 := mosaicStage m t 7 lensShade p6
    let p8 := mosaicStage m t 8 noiseReduce p7
    (List.range p8.length).map (fun y => (List.range m.w).map (fun x =>
      convert t (toneMap t (colourMatrix m t (demosaic m t p8 y x)))))

/-- Rows below a pixel on which its result depends (R620): one for stage 4, a cell for each of stages 5, 6, 8 and 9. -/
def lookAhead (m : Mosaic) (t : Tuning) (yuv raw : Bool) : Nat :=
  if yuv || raw then 0
  else flag (!bit t.bypass 4) + m.py * (flag (!bit t.bypass 5) + flag (!bit t.bypass 6) + flag (!bit t.bypass 8) + flag (!bit t.bypass 9))

/-- Pixels of the first `rows` rows that defect correction replaces by threshold (R623). -/
def thresholdDefects (m : Mosaic) (t : Tuning) (lines : Plane) (rows : Nat) : Nat :=
  if bit t.bypass 6 then 0
  else
    let p := mosaicStage m t 5 greenImbalance (mosaicStage m t 4 crossTalk lines)
    ((List.range rows).map (fun y => ((List.range m.w).filter (fun x =>
      !t.listed y x && t.exceeds (p.at y x) (sameType m p y x))).length)).foldl (· + ·) 0

/-! ### Scaler and output formats (R630, R631) -/

/-- An output of a context as a frame began with it. -/
structure Output where
  format : Nat
  queue : Nat
  x0 : Nat
  y0 : Nat
  w : Nat
  h : Nat
  ow : Nat
  oh : Nat
  bandLines : Nat
  norm : List Byte
  deriving DecidableEq, Repr

/-- The overlap of crop row (or column) k with the footprint of output k' (R630), in units of 1/on pixels. -/
def overlapOf (k k' n on : Nat) : Nat := min ((k + 1) * on) ((k' + 1) * n) - max (k * on) (k' * n)

/-- The crop rows (or columns) of a footprint. -/
def footprint (k' n on : Nat) : List Nat :=
  let a := k' * n / on
  (List.range (ceilDiv ((k' + 1) * n) on - a)).map (· + a)

/-- Output pixel of one plane: the area-weighted mean, rounded to 16 bits (R630). -/
def scaled (o : Output) (img : List (List Pixel)) (sel : Pixel → Nat) (r c : Nat) : Nat :=
  let parts := (footprint r o.h o.oh).flatMap (fun y => (footprint c o.w o.ow).map (fun x =>
    (overlapOf y r o.h o.oh * overlapOf x c o.w o.ow, sel ((img.getD (o.y0 + y) []).getD (o.x0 + x) {}))))
  toU16 (fDiv (fNat ((parts.map (fun p => p.1 * p.2)).foldl (· + ·) 0)) (fNat ((parts.map (·.1)).foldl (· + ·) 0)))

/-- An 8-bit output value, and a tensor element (R631); MEAN and SCALE default to 0 and 1. -/
def to8 (v : Nat) : Byte := BitVec.ofNat 8 (min 255 ((v + 128) / 256))
def tensorBytes (o : Output) (plane v : Nat) : List Byte :=
  let mean := if o.norm.isEmpty then 0 else f32At o.norm plane
  let scale := if o.norm.isEmpty then fNat 1 else f32At o.norm (4 + plane)
  natLe 2 (toBf16 (fMul (fSub (fDiv (fNat v) (fNat 65535)) mean) scale)).bits.toNat

/-- Planes of a format, and bytes per pixel per plane (R631). -/
def formatPlanes (f : Nat) : Nat := if f = 3 then 3 else if f = 4 then 4 else 1
def formatBytes (f : Nat) : Nat := if f = 0 then 3 else if f = 2 then 1 else 2

/-- LINE_BYTES (R632). -/
def Output.lineBytes (o : Output) : Nat := ceilDiv (o.ow * formatBytes o.format) 64 * 64

/-- One line of one plane of an output (R631, R632), padded to LINE_BYTES. -/
def Output.line (o : Output) (lines : Plane) (img : List (List Pixel)) (plane r : Nat) : List Byte :=
  let px := fun (sel : Pixel → Nat) (c : Nat) => scaled o img sel r c
  let cols := List.range o.ow
  let raw := fun (c : Nat) => lines.at (o.y0 + r) (o.x0 + c)
  let bytes := match o.format with
    | 0 => cols.flatMap (fun c => [to8 (px Pixel.r c), to8 (px Pixel.g c), to8 (px Pixel.b c)])
    | 1 => cols.flatMap (fun c =>
        [if c % 2 = 0 then to8 (px Pixel.cb c) else to8 (px Pixel.cr (c - 1)), to8 (px Pixel.y c)])
    | 2 => cols.map (fun c => to8 (px Pixel.y c))
    | 3 => cols.flatMap (fun c => tensorBytes o plane (px (match plane with | 0 => Pixel.r | 1 => Pixel.g | _ => Pixel.b) c))
    | 4 => cols.flatMap (fun c =>
        tensorBytes o plane (px (match plane with | 0 => Pixel.r | 1 => Pixel.g | 2 => Pixel.b | _ => Pixel.i) c))
    | 5 => cols.flatMap (fun c => tensorBytes o plane (px Pixel.y c))
    | 6 => cols.flatMap (fun c => natLe 2 (raw c))
    | _ => cols.flatMap (fun c =>
        [BitVec.ofNat 8 (if (o.x0 + c) % 2 = 0 then field (raw c) 15 8 else field (raw c) 23 16), BitVec.ofNat 8 (field (raw c) 7 0)])
  fitBytes o.lineBytes bytes

end Sys2Proof.Machine
end

