-- ==== Sys2Proof/Machine/Transcend.lean ====
section
/-! DEFINITION. The transcendental functions of the vector engine (R170, R172): the error bound holds of a value that the
implementation fixes, measured against a value computed here to about 300 bits. -/

namespace Sys2Proof.Machine

/-- Fixed point: 320 fraction bits. ln 2 in it, rounded. -/
def fixOne : Nat := 2 ^ 320
def fixLn2 : Nat := 0xb17217f7d1cf79abc9e3b39803f2f6af40f343267298b62d8a0d175b8baafa2be7b876206debac98

/-- A finite value in fixed point, cut to ±2^10. -/
def fixOf (v : Fp) : Int :=
  match v with
  | .fin s m e =>
    let q : Nat := if 0 ≤ e + 320 then m * 2 ^ (e + 320).toNat else m / 2 ^ (-(e + 320)).toNat
    let r := min q (1024 * fixOne)
    if s then -(r : Int) else r
  | _ => 0

/-- A fixed-point number as a value. -/
def fpOfFix (x : Int) : Fp := .fin (decide (x < 0)) x.natAbs (-320)

/-- e^r for r in [0, 1), by 80 terms of the series. -/
def fixExpSmall (r : Nat) : Nat :=
  ((List.range 80).foldl (fun (a : Nat × Nat) i =>
    let t := a.2 * r / fixOne / (i + 1)
    (a.1 + t, t)) (fixOne, fixOne)).1

/-- e^x for x in fixed point. -/
def fpExp (x : Int) : Fp :=
  let k := x / (fixLn2 : Int)
  .fin false (fixExpSmall (x - k * fixLn2).toNat) (k - 320)

/-- 2^x for x in fixed point. -/
def fpExp2 (x : Int) : Fp :=
  let k := x / (fixOne : Int)
  .fin false (fixExpSmall ((x - k * fixOne).toNat * fixLn2 / fixOne)) (k - 320)

/-- log2 of m·2^e, m not 0: the exponent plus 2·artanh((u − 1)/(u + 1))/ln 2 of the significand u in [1, 2). -/
def fpLog2 (m : Nat) (e : Int) : Fp :=
  let k := Nat.log2 m
  let u := m * 2 ^ 320 / 2 ^ k
  let z := (u - fixOne) * fixOne / (u + fixOne)
  let zz := z * z / fixOne
  let sum := ((List.range 104).foldl (fun (a : Nat × Nat) i =>
    (a.1 + a.2 / (2 * i + 1), a.2 * zz / fixOne)) (0, z)).1
  fpOfFix ((e + k) * (fixOne : Int) + (2 * sum * fixOne / fixLn2 : Nat))

/-- Integer square root of a number below 4^n, bit by bit. -/
def isqrt (n v : Nat) : Nat :=
  (List.range n).foldr (fun i r => if (r + 2 ^ i) * (r + 2 ^ i) ≤ v then r + 2 ^ i else r) 0

/-- 1/√(m·2^e), m not 0, to at least 80 significant bits. -/
def fpRsqrt (m : Nat) (e : Int) : Fp :=
  let (m', e') := if e % 2 = 0 then (m, e) else (2 * m, e - 1)
  .fin false (isqrt 128 (2 ^ 240 / m')) (-(e' / 2) - 120)

/-- 1 as a value, and powers of two. -/
def fpPow2 (e : Int) : Fp := .fin false 1 e

/-- 1/(1 + e^−x) for x in fixed point. -/
def fpSigm (x : Int) : Fp :=
  let q := fpExp (-(x.natAbs : Int))
  if 0 ≤ x then (fpPow2 0).div ((fpPow2 0).add q) else q.div ((fpPow2 0).add q)

/-- tanh x for x in fixed point. -/
def fpTanh (x : Int) : Fp :=
  let q := fpExp (-(2 * x.natAbs : Int))
  let t := ((fpPow2 0).add q.neg).div ((fpPow2 0).add q)
  if x < 0 then t.neg else t

/-- 2 × 0.7978846 (A + 0.044715 A³) in fixed point, cut to ±2^10 (the constants of R170, taken as written); the cube of A is that of
the cut A, so that it is exact wherever the result is not cut. -/
def fixGelu (s : Bool) (m : Nat) (e : Int) : Int :=
  let a := fixOf (.fin false m e)
  let c := a * a / fixOne * a / fixOne
  let v := (2 * 7978846 * (1000000 * a + 44715 * c)) / (10000000 * 1000000)
  let r := min v (1024 * fixOne : Nat)
  if s then -r else r

/-- Is the value's magnitude at least 2^-126, the least normal FP32 value (R170). -/
def fpNormal (v : Fp) : Bool :=
  match v with
  | .fin _ m e => m != 0 && decide (-126 ≤ (Nat.log2 m : Int) + e)
  | _ => false

/-- Is |t − v| at most `ulps` units in the last place of v, t a finite pattern (R170). -/
def withinUlps (ulps : Nat) (v : Fp) (t : Word) : Bool :=
  match v, f32Value t with
  | .fin s m e, .fin s' m' e' =>
    let ulp := (Nat.log2 m : Int) + e - 23
    match (Fp.fin s m e).add (Fp.fin (!s') m' e') with
    | .fin _ d de =>
      let q := min de ulp
      decide (d * 2 ^ (de - q).toNat ≤ ulps * 2 ^ (ulp - q).toNat)
    | _ => false
  | _, _ => false

/-- A NaN is canonical (R57). -/
def canon (w : Word) : Word := if isNan32 w then nan32 else w

/-- The result of a function whose exact value is `v`: the implementation's value where the bound of R170 holds of it,
else the nearest value; infinite where v rounds beyond the range (R63); below the normal range, where the spec states no bound,
the implementation's value where it is subnormal (or the least normal value), never a flush to zero (R58), else the nearest. -/
def boundedResult (op ulps : Nat) (a : Word) (v : Fp) : Num :=
  let t := Config.transcendental op a
  let near := f32Of v
  if isInf32 near then numOf [a] near
  else if fpNormal v then (if withinUlps ulps v t then numOf [a] t else numOf [a] near)
  else if isZero32 near then numOf [a] (if isFinite32 t && decide (t.toNat % 2 ^ 31 ≤ 0x00800000) then t else near)
  else if !isFinite32 t || isZero32 t || decide (0x00800000 < t.toNat % 2 ^ 31) then numOf [a] near
  else numOf [a] t

/-- A transcendental function of R170 on one operand, with the special cases of R64 and R172. -/
def transcendental (op : Nat) (a : Word) : Num :=
  let one : Word := 0x3F800000
  let pinf : Word := 0x7F800000
  let ninf : Word := 0xFF800000
  match f32Value a with
  | .nan => numOf [a] nan32
  | .inf s =>
    numOf [a] (match op with
      | 0x49 => if s then 0 else pinf
      | 0x4A => if s then 0 else pinf
      | 0x4B => if s then nan32 else pinf
      | 0x4C => if s then 0x80000000 else 0
      | 0x4D => if s then nan32 else 0
      | 0x4F => if s then 0xBF800000 else one
      | 0x50 => if s then 0 else one
      | _ => if s then 0x80000000 else pinf)
  | .fin s m e =>
    let x := fixOf (.fin s m e)
    match op with
    | 0x49 => boundedResult op 2 a (fpExp x)
    | 0x4A => boundedResult op 1 a (fpExp2 x)
    | 0x4B =>
      if m = 0 then numOf [a] ninf true
      else if s then numOf [a] nan32
      else boundedResult op 1 a (fpLog2 m e)
    | 0x4C =>
      if m = 0 then numOf [a] (if s then ninf else pinf) true
      else boundedResult op 1 a ((fpPow2 0).div (.fin s m e))
    | 0x4D =>
      if m = 0 then numOf [a] (if s then ninf else pinf) true
      else if s then numOf [a] nan32
      else boundedResult op 1 a (fpRsqrt m e)
    | 0x4F => boundedResult op 2 a (fpTanh x)
    | 0x50 => boundedResult op 2 a (fpSigm x)
    | 0x51 => boundedResult op 4 a ((Fp.fin s m e).mul (fpSigm x))
    | _ => boundedResult op 4 a ((Fp.fin s m e).mul (fpSigm (fixGelu s m e)))

end Sys2Proof.Machine
end

