-- ==== Sys2Proof/Machine/Operands.lean ====
section
/-! DEFINITION. Operand, stride and scale words, and the reads and writes of operands in a slot's shares (R44, R113, R161 to
R163, R175 to R177). -/

namespace Sys2Proof.Machine

/-- The first fault whose condition holds. -/
def firstFault : List (Bool × PitchFault) → Option PitchFault
  | [] => none
  | (b, f) :: rest => if b then some f else firstFault rest

/-- A malformed descriptor; the issue puts the descriptor's offset in DETAIL (R485). -/
def badDesc : PitchFault := (fcDescriptor, 0)

/-- An operand word with its stride and scale words (R161 to R163); `off` is the effective offset. -/
structure Opnd where
  trans : Bool
  inAcc : Bool
  fmt : Option Fmt
  off : Nat
  stride : Nat
  scale : Nat
  /-- the stride and scale words as they stand, for the tests of their reserved bits -/
  strideWord : Nat
  scaleWord : Nat
  deriving DecidableEq, Repr

/-- Effective offset of an operand word: OFF + S[REG], unsigned, without wrap (R162). -/
def Slot.effOff (x : Slot) (w : Nat) : Nat := field w 21 0 + (x.reg (field w 26 22)).toNat

/-- Read an operand word with its stride and scale words. -/
def Slot.opnd (x : Slot) (w stride scale : Nat) : Opnd := {
  trans := bit w 31, inAcc := bit w 30, fmt := fmtOf (field w 29 27), off := x.effOff w,
  stride := field stride 21 0, scale := field scale 21 0, strideWord := stride, scaleWord := scale }

/-- The format, FP32 where the word names none (a form check refuses that first). -/
def Opnd.format (o : Opnd) : Fmt := o.fmt.getD .fp32

/-- Is the operand's format one of a list. -/
def Opnd.fmtIn (o : Opnd) (fs : List Fmt) : Bool := o.fmt.elim false fs.contains

/-- Are the reserved bits of the stride word, and of the scale word where it is not ignored, 0 (R163, R9). -/
def Opnd.wordsOk (o : Opnd) : Bool :=
  decide (o.strideWord < 2 ^ 22) && (!o.format.narrow || decide (o.scaleWord < 2 ^ 22))

/-- Bytes of a share. -/
def State.spaceBytes (s : State) (i : Nat) (inAcc : Bool) : Nat := if inAcc then (s.slot i).accBytes else (s.slot i).spBytes

/-- Bytes in a share. -/
def State.readSpace (s : State) (i : Nat) (inAcc : Bool) (off n : Nat) : List Byte :=
  if inAcc then s.readAcc i off n else s.readSp i off n
def State.writeSpace (s : State) (i : Nat) (inAcc : Bool) (off : Nat) (bs : List Byte) : State :=
  if inAcc then s.writeAcc i off bs else s.writeSp i off bs

/-- First poisoned line of a range of a share (R659). -/
def State.spacePoison (s : State) (i : Nat) (inAcc : Bool) (off n : Nat) : Option PitchFault :=
  if inAcc then
    (poisonIn (s.core (coreOfSlot i)).accPoison ((s.slot i).accBase * 4096 + off) n).map
      (fun e => (fcEccLine, accLine (coreOfSlot i) e.1))
  else s.spPoisonFault i off n

/-- Bytes from the first to the last byte of `rows` rows of `rowBytes` at a stride. -/
def spanOf (rows stride rowBytes : Nat) : Nat := if rows = 0 then 0 else (rows - 1) * stride + rowBytes

/-- Does a range run past its share (R44, R113). -/
def State.outside (s : State) (i : Nat) (inAcc : Bool) (off n : Nat) : Bool := decide (s.spaceBytes i inAcc < off + n)

/-- The faults of a source of `rows` rows of `n` elements, after its form is right: past the share, poison. -/
def State.sourceFault (s : State) (i : Nat) (o : Opnd) (rows n : Nat) : Option PitchFault :=
  let span := spanOf rows o.stride (o.format.rowBytes n)
  if s.outside i o.inAcc o.off span then some (fcAddress, o.off)
  else if o.format.narrow && s.outside i false o.scale (2 * rows) then some (fcAddress, o.scale)
  else match ((List.range rows).findSome? (fun r => s.spacePoison i o.inAcc (o.off + r * o.stride) (o.format.rowBytes n))) with
    | some f => some f
    | none => if o.format.narrow then s.spacePoison i false o.scale (2 * rows) else none

/-- An element as the vector lanes take it: FP32 as it stands, bf16 widened, a narrow code expanded (R79, R176). -/
def loadElem (f : Fmt) (code scale : Nat) : Num :=
  match f with
  | .fp32 => { bits := BitVec.ofNat 32 code }
  | .bf16 => { bits := ofBf16 code, fl := condIf (isNan32 (BitVec.ofNat 32 (code * 65536))) condNanIn }
  | _ => expand f code scale

/-- The scale of stored row r (R163). -/
def State.scaleOf (s : State) (i : Nat) (o : Opnd) (r : Nat) : Nat :=
  if o.format.narrow then leNat (s.readSp i (o.scale + 2 * r) 2) else 0

/-- Stored row r of an operand, `n` elements. -/
def State.loadRow (s : State) (i : Nat) (o : Opnd) (r n : Nat) : List Num :=
  let row := s.readSpace i o.inAcc (o.off + r * o.stride) (o.format.rowBytes n)
  let sc := s.scaleOf i o r
  (List.range n).map (fun k => loadElem o.format (codeAt o.format row k) sc)

/-- All stored rows of an operand. -/
def State.loadRows (s : State) (i : Nat) (o : Opnd) (rows n : Nat) : List (List Num) :=
  (List.range rows).map (fun r => s.loadRow i o r n)

/-- Element k of row r of loaded rows. -/
def elemAt (rows : List (List Num)) (r k : Nat) : Num := nth (nth rows r []) k { bits := 0 }

/-- Conditions that rows of values met. -/
def rowsMet (rows : List (List Num)) : Met := rows.foldl (fun m r => r.foldl Met.add m) {}
/-- Conditions that values met. -/
def numsMet (vs : List Num) : Met := vs.foldl Met.add {}

/-- Store FP32 values as a row of FP32 or bf16 elements; what narrowing met (R67, R68). -/
def storeForm (f : Fmt) (xs : List Word) : List Byte × Met :=
  let ns := xs.map (fun x => narrow f x)
  (packCodes f (ns.map (fun n => n.bits.toNat)), ns.foldl Met.add {})

/-- A row of values written at a destination row. -/
def State.storeRow (s : State) (i : Nat) (o : Opnd) (r : Nat) (xs : List Word) : State × Met :=
  let (bs, m) := storeForm o.format xs
  (s.writeSpace i o.inAcc (o.off + r * o.stride) bs, m)

/-! ### Steps (R101, R157, R179) -/

/-- Two parts of one step. -/
def Step.join (a b : Step) : Step := { a with writes := a.writes ++ b.writes, fl := a.fl ||| b.fl, sat := a.sat + b.sat }

/-- A row of values stored at a destination row, as part of a step that met `m`. -/
def Opnd.storeStep (o : Opnd) (r : Nat) (xs : List Word) (m : Met) : Step :=
  let (bs, k) := storeForm o.format xs
  { writes := [(o.inAcc, o.off + r * o.stride, bs)], fl := m.fl ||| k.fl, sat := m.sat + k.sat }

/-- Parts in order, `per` to a step. -/
def joinSteps (per : Nat) (ts : List Step) : List Step :=
  (List.range (ceilDiv ts.length (max 1 per))).map (fun k => ((ts.drop (k * max 1 per)).take (max 1 per)).foldl Step.join {})

end Sys2Proof.Machine
end

