-- ==== Sys2Proof/Machine/Transfer.lean ====
section
/-! DEFINITION. The transfer engine: locations, XCOPY, XGATHER, XSCATTER, XFILL, XCHAIN and the sensor queue reads XQREAD and
XQFLUSH (R194 to R223, R235 to R240). -/

namespace Sys2Proof.Machine

/-! ### Locations (R194 to R196) -/

/-- A location word: its space, cluster and address; the address is kept as a signed sum where steps are added (R221). -/
structure Loc where
  space : Nat
  cluster : Nat
  addr : Int
  deriving DecidableEq, Repr

def locOf (w : Nat) : Loc := { space := field w 63 60, cluster := field w 59 57, addr := field w 47 0 }

/-- Is the location word's encoding permitted (R194): spaces to 4, cluster rule, reserved bits 0. -/
def locOk (w : Nat) : Bool :=
  let l := locOf w
  decide (l.space ≤ 4) && field w 56 48 == 0 && (if l.space = 2 then decide (l.cluster < 6) else l.cluster == 0)

/-- DETAIL of an ADDRESS fault at a signed address. -/
def addrFault (a : Int) : PitchFault := (fcAddress, unsigned 48 a)

/-- A byte of the ring area as SPACE 0x4 names it (R576); a byte of a poisoned frame reads zero (R653). -/
def State.ringByte (s : State) (a : Nat) : Byte :=
  if a < 0x100000 then
    let o := a % 655360
    let f := o / 10 * 10
    if (poisonIn s.listen.groundPoison f 10).isSome then 0 else memByte s.listen.ring o
  else memByte s.listen.stamps ((a - 0x100000) % 8192)

/-- What reading or writing at a location left: the state, its requests, and what kept it from being done. -/
structure Moved where
  s : State
  err : Option PitchFault := none
  stall : Option (Nat × Waits) := none
  reads : List Nat := []
  writes : List Nat := []
  deriving DecidableEq, Repr

/-- Read `n` bytes at a location of a slot (R196, R217). -/
def State.readLoc (s : State) (i : Nat) (l : Loc) (n : Nat) : State × List Byte × Option PitchFault :=
  let p := (s.slot i).pitch
  if l.addr < 0 || (2 ^ 48 : Int) ≤ l.addr then (s, [], some (addrFault l.addr))
  else
    let a := l.addr.toNat
    match l.space with
    | 2 =>
      let (base, len) := (s.pitch p).share l.cluster
      if len < a + n then (s, [], some (fcAddress, a))
      else match (s.callCluster l.cluster).sramPoisonRead l.cluster (base + a) n p with
        | (s1, some f) => (s1, [], some f)
        | (s1, none) => (s1, s1.readSram l.cluster (base + a) n, none)
    | 3 => s.readState p a n (.core (coreOfSlot i))
    | 4 =>
      if !bit (s.obj Key.ringAccessPitchMask) p then (s, [], some (fcAddress, a))
      else (s, (List.range n).map (fun k => s.ringByte (a + k)), none)
    | sp =>
      if s.outside i (sp == 1) a n then (s, [], some (fcAddress, a))
      else match s.spacePoison i (sp == 1) a n with
        | some f => (s, [], some f)
        | none => (s, s.readSpace i (sp == 1) a n, none)

/-- Write bytes at a location of a slot (R195, R196). -/
def State.writeLoc (s : State) (i : Nat) (l : Loc) (bs : List Byte) : State × Option AllocStop :=
  let p := (s.slot i).pitch
  let n := bs.length
  if l.addr < 0 || (2 ^ 48 : Int) ≤ l.addr then (s, some (.fault (addrFault l.addr)))
  else
    let a := l.addr.toNat
    match l.space with
    | 2 =>
      let (base, len) := (s.pitch p).share l.cluster
      if len < a + n then (s, some (.fault (fcAddress, a))) else ((s.callCluster l.cluster).writeSram l.cluster (base + a) bs, none)
    | 3 => s.writeState p a bs (.core (coreOfSlot i))
    | 4 => (s, some (.fault (fcAddress, a)))
    | sp =>
      if s.outside i (sp == 1) a n then (s, some (.fault (fcAddress, a))) else (s.writeSpace i (sp == 1) a bs, none)

/-- The requests that bytes at a location make: one per tile of a state range (R224). -/
def Loc.requests (l : Loc) (n : Nat) : List Nat := if l.space = 3 then (Machine.requests l.addr.toNat n).map (·.1) else []

/-! ### Packets (R206, R210, R211) -/

/-- Exchange bytes in units of 2 or 4 by SWAP; a final partial unit stays as it is (R206, R237). -/
def swapBytes (mode : Nat) : List Byte → List Byte
  | a :: b :: c :: d :: rest =>
    match mode with
    | 0 => a :: b :: c :: d :: rest
    | 1 => b :: a :: d :: c :: swapBytes mode rest
    | 2 => c :: d :: a :: b :: swapBytes mode rest
    | _ => d :: c :: b :: a :: swapBytes mode rest
  | [a, b] => if mode = 1 then [b, a] else [a, b]
  | [a, b, c] => if mode = 1 then [b, a, c] else [a, b, c]
  | xs => xs

/-- Does a run's length suit SWAP (R206). -/
def swapLenOk (mode n : Nat) : Bool :=
  match mode with
  | 0 => true
  | 1 => n % 2 == 0
  | _ => n % 4 == 0

/-- The runs of the next packet and those behind it: whole runs in order, up to 4,096 B (R210). -/
def takePacket (cur : List Run) (n : Nat) : List Run → List Run × List Run
  | [] => (cur, [])
  | r :: rs => if cur.isEmpty || n + r.len ≤ 4096 then takePacket (cur ++ [r]) (n + r.len) rs else (cur, r :: rs)

/-- The ends of a movement. -/
def Move.src (m : Move) (a : Int) : Loc := { space := m.srcSpace, cluster := m.srcCluster, addr := a }
def Move.dst (m : Move) (a : Int) : Loc := { space := m.dstSpace, cluster := m.dstCluster, addr := a }

/-- The entries of an index table up to the end of their 64 B line, as runs, and what is left of the table (R202, R203, R205). -/
def State.readIndexLine (s : State) (i : Nat) (p : IndexPlan) : Except PitchFault (List Run × Option IndexPlan) :=
  let n := min (p.count - p.next) (16 - (p.table / 4 + p.next) % 16)
  let off := p.table + 4 * p.next
  if s.outside i false off (4 * n) then .error (fcAddress, off)
  else match s.spPoisonFault i off (4 * n) with
    | some f => .error f
    | none =>
      let runs := (List.range n).flatMap (fun (e : Nat) =>
        let k := p.next + e
        let o := leNat (s.readSp i (p.table + 4 * k) 4)
        let pack : Int := (k * p.pack : Nat)
        if p.gather then
          [({ src := if o = 0xFFFFFFFF then none else some (p.src + o), dst := p.dst + pack, len := p.elem, swap := p.swap } : Run)]
        else if o = 0xFFFFFFFF then []
        else [({ src := some (p.src + pack), dst := p.dst + o, len := p.elem, swap := p.swap } : Run)])
      .ok (runs, if p.next + n < p.count then some { p with next := p.next + n } else none)

/-- Read the index table on until a packet can be formed; `fuel` bounds the lines read. -/
def State.refill (s : State) (i : Nat) : Nat → Move → Except PitchFault Move
  | 0, m => .ok m
  | fuel + 1, m =>
    match m.index with
    | none => .ok m
    | some p =>
      if 4096 ≤ (m.runs.map (·.len)).foldl (· + ·) 0 then .ok m
      else match s.readIndexLine i p with
        | .error f => .error f
        | .ok (rs, left) => State.refill s i fuel { m with runs := m.runs ++ rs, index := left }

/-- Is the range that a location names absent: outside its share, the pitch's mapped ranges or 48 bits, or the ring where it is not
granted (R195, R196). -/
def State.locFault (s : State) (i : Nat) (l : Loc) (n : Nat) (write : Bool) : Option PitchFault :=
  let p := (s.slot i).pitch
  let a := l.addr.toNat
  let bad := decide (l.addr < 0) || decide ((2 ^ 48 : Int) ≤ l.addr) || (match l.space with
    | 2 => decide (((s.pitch p).share l.cluster).2 < a + n)
    | 3 => !s.inExtents p a n
    | 4 => write || !bit (s.obj Key.ringAccessPitchMask) p
    | sp => s.outside i (sp == 1) a n)
  if bad then some (addrFault l.addr) else none

/-- The next packet of a movement is formed: its bytes are checked, then every source byte is read (R196, R205, R210, R211). -/
def State.formPacket (s : State) (i : Nat) (m : Move) : Moved × Option Move × List Piece :=
  match s.refill i 258 m with
  | .error f => ({ s, err := some f }, none, [])
  | .ok m =>
    let (rs, rest) := takePacket [] 0 m.runs
    let left := if rest.isEmpty && m.index.isNone then none else some { m with runs := rest }
    match rs.findSome? (fun r => (r.src.bind (fun a => s.locFault i (m.src a) r.len false)).or (s.locFault i (m.dst r.dst) r.len true)) with
    | some f => ({ s, err := some f }, none, [])
    | none =>
      let (mv, ps) := rs.foldl (fun (acc : Moved × List Piece) r =>
        let at_ := fun bs => ({ space := m.dstSpace, cluster := m.dstCluster, addr := r.dst, bytes := bs } : Piece)
        if acc.1.err.isSome then acc
        else match r.src, m.fill with
          | none, none => (acc.1, acc.2 ++ [at_ (List.replicate r.len 0)])
          | none, some pat => (acc.1, acc.2 ++ [at_ ((List.range r.len).map (fun j => nth (natLe 4 pat) (j % 4) 0))])
          | some a, _ =>
            let (s', bs, e) := acc.1.s.readLoc i (m.src a) r.len
            ({ acc.1 with s := s', err := e, reads := acc.1.reads ++ (m.src a).requests r.len },
              acc.2 ++ [at_ (swapBytes r.swap bs)])) ({ s }, [])
      (mv, left, ps)

/-- A packet's bytes are written in order; one that faults or finds no space writes nothing (R196, R204, R217, R301). -/
def State.landPieces (s : State) (i : Nat) (ps : List Piece) : Moved :=
  let m := ps.foldl (fun (m : Moved) d =>
    if m.err.isSome || m.stall.isSome then m
    else
      let l : Loc := { space := d.space, cluster := d.cluster, addr := d.addr }
      match m.s.writeLoc i l d.bytes with
      | (s', none) => { m with s := s', writes := m.writes ++ l.requests d.bytes.length }
      | (_, some (.fault f)) => { m with err := some f }
      | (_, some (.stall a w)) => { m with stall := some (a, w) }) { s }
  if m.err.isSome || m.stall.isSome then { m with s, writes := [] } else m

/-! ### Descriptors (R197 to R203) -/

/-- Common fields of a transfer descriptor (R197). -/
def xOp (d : Nat) : Nat := field d 511 504
def xWaitEn (d : Nat) : Bool := bit d 495
def xWaitLine (d : Nat) : Nat := field d 503 496
def xSwap (d : Nat) : Nat := field d 314 313
def xCmplEn (d : Nat) : Bool := bit d 312
def xCmplLine (d : Nat) : Nat := field d 311 304

/-- The line a descriptor raises at completion. -/
def xCmpl (d : Nat) : List Nat := if xCmplEn d then [xCmplLine d] else []

/-- Is CMPL_LINE outside 0 to 127 or not allocated to the pitch (R198). -/
def State.cmplBad (s : State) (i d : Nat) : Bool :=
  xCmplEn d && !(decide (xCmplLine d < 128) && s.mayRaise (s.slot i).pitch (clusterOfSlot i) (xCmplLine d))

/-- OP and WAIT_EN as a directly issued descriptor may hold them (R197). -/
def directOp (d opcode : Nat) : Bool := (xOp d == 0 || xOp d == opcode) && !xWaitEn d

/-- The bit ranges of the common fields. -/
def commonBits : List (Nat × Nat) := [(511, 504), (503, 496), (495, 495), (314, 313), (312, 312), (311, 304)]

/-- The runs of an XCOPY, inner count first (R200); the steps of a repetition are added to the addresses (R221). -/
def copyRuns (d : Nat) (srcStep dstStep : Int) : List Run :=
  let run := field d 299 288 + 1
  (List.range (field d 287 272 + 1)).flatMap (fun j => (List.range (field d 271 256 + 1)).map (fun i =>
    { src := some ((field d 47 0 : Nat) + srcStep + i * signed 32 (field d 159 128) + j * signed 32 (field d 223 192)),
      dst := (field d 111 64 : Nat) + dstStep + i * signed 32 (field d 191 160) + j * signed 32 (field d 255 224),
      len := run, swap := xSwap d }))

/-- Is an XCOPY descriptor's form right (R194, R199, R206). -/
def copyOk (d : Nat) : Bool :=
  onlyBits d (commonBits ++ [(299, 0)]) && locOk (field d 63 0) && locOk (field d 127 64)
    && swapLenOk (xSwap d) (field d 299 288 + 1)

/-- The index table of an XGATHER or XSCATTER under the steps of a repetition (R202). -/
def indexPlan (d : Nat) (gather : Bool) (srcStep dstStep : Int) : IndexPlan := {
  gather, table := field d 245 224, next := 0, count := field d 287 272 + 1, elem := field d 299 288 + 1, pack := field d 159 128
  swap := xSwap d, src := (field d 47 0 : Nat) + srcStep, dst := (field d 111 64 : Nat) + dstStep }

/-- Is an XGATHER or XSCATTER descriptor's form right (R194, R201, R206). -/
def indexOk (d : Nat) : Bool :=
  onlyBits d (commonBits ++ [(299, 288), (287, 272), (245, 224), (159, 0)]) && locOk (field d 63 0) && locOk (field d 127 64)
    && swapLenOk (xSwap d) (field d 299 288 + 1) && field d 245 224 % 4 == 0

/-- The location of a descriptor's end with nothing but its space and cluster. -/
def xSrc (d : Nat) : Loc := locOf (field d 63 0)
def xDst (d : Nat) : Loc := locOf (field d 127 64)

/-- The faults a descriptor meets before its first packet: its form, its line, the ring as a destination or not granted (R195, R198). -/
def State.xFault (s : State) (i d : Nat) (form : Bool) : Option PitchFault :=
  firstFault [(!form, badDesc), (s.cmplBad i d, (fcAddress, xCmplLine d)), ((xDst d).space == 4, addrFault (xDst d).addr),
    ((xSrc d).space == 4 && !bit (s.obj Key.ringAccessPitchMask) (s.slot i).pitch, addrFault (xSrc d).addr)]

/-- What an XCOPY, XGATHER or XSCATTER descriptor moves under the steps of a repetition. -/
def xMove (d op : Nat) (srcStep dstStep : Int) : Move :=
  let ends : Move := { srcSpace := (xSrc d).space, srcCluster := (xSrc d).cluster, dstSpace := (xDst d).space,
                       dstCluster := (xDst d).cluster }
  if op = 0x60 then { ends with runs := copyRuns d srcStep dstStep }
  else { ends with index := some (indexPlan d (op == 0x61) srcStep dstStep) }

/-- The work of an XCOPY, XGATHER or XSCATTER descriptor: its packets follow. -/
def State.xPlan (s : State) (i d op : Nat) (srcStep dstStep : Int) : Work :=
  match s.xFault i d (if op = 0x60 then copyOk d else indexOk d) with
  | some f => { s, err := some f }
  | none => { s, cmpl := xCmpl d, move := some (xMove d op srcStep dstStep) }

/-- A directly issued XCOPY, XGATHER or XSCATTER. -/
def State.xWork (op : Nat) (s : State) (i d : Nat) : Work :=
  if !directOp d op then { s, err := some badDesc } else s.xPlan i d op 0 0

/-- The transfer engine alone. -/
def xfrOnly (_ : Nat) : List Engine × Bool := ([.xfr], false)

/-- The work of XFILL (R207, R208). -/
def State.xfillWork (s : State) (_ d : Nat) : Work :=
  let space := field d 31 28
  let cl := field d 27 25
  let len := field d 55 32 + 1
  if !onlyBits d [(95, 64), (55, 32), (31, 28), (27, 25), (23, 0)] || decide (2 < space)
      || !(if space = 2 then decide (cl < 6) else cl == 0) then { s, err := some badDesc }
  else { s, move := some { dstSpace := space, dstCluster := cl, fill := some (field d 95 64), runs :=
    (List.range (ceilDiv len 4096)).map (fun k =>
      { src := none, dst := (field d 23 0 + 4096 * k : Nat), len := min 4096 (len - 4096 * k) }) } }

/-! ### Sensor queue reads (R235 to R239) -/

/-- Queue geometry: cluster, address of slot k in the cluster's SRAM, slot bytes (R228). -/
def State.queueCluster (s : State) (q : Nat) : Nat := s.obj (Key.at Key.queueCluster q)
def State.queueSlot (s : State) (q k : Nat) : Nat :=
  ((s.pitch (s.obj (Key.at Key.queuePitch q))).share (s.queueCluster q)).1 + s.obj (Key.at Key.queueSramOffset q)
    + k * s.obj (Key.at Key.slotBytes q)

/-- The visible unclaimed packet with the lowest sequence number in order of commit (R237). -/
def Queue.oldest (q : Queue) : Option QPacket := q.packets.find? (fun p => p.visible && p.claimedBy.isNone)

/-- The header of a packet (R242). -/
def packetHeader (q : Nat) (p : QPacket) (lost : Nat) (flushed : Bool) : List Byte :=
  natLe 32 (p.seq % 2 ^ 32 + p.length % 2 ^ 24 * 2 ^ 32 + p.stamp % 2 ^ 64 * 2 ^ 64 + p.prodFlags % 2 ^ 32 * 2 ^ 128
    + min 65535 lost * 2 ^ 160 + flag p.overlong * 2 ^ 176 + flag flushed * 2 ^ 177 + q * 2 ^ 192)

/-- Slot i claims a packet (R237, R239, R241): LOST_BEFORE and FLUSHED_BEFORE are written at its first claim. -/
def State.claimPacket (s : State) (i q : Nat) (p : QPacket) : State :=
  let r := s.queue q
  let n := s.queueCluster q
  let s1 := if p.everClaimed then s else
    (s.writeSram n (s.queueSlot q p.slot) (packetHeader q p r.lostSince r.flushedSince)).setQueue q
      { r with lostSince := 0, flushedSince := false }
  s1.modQueue q (fun r => { r with
    packets := r.packets.map (fun k => if k.seq = p.seq && k.visible then { k with everClaimed := true, claimedBy := some i } else k)
    reference := s.time
    noticeFired := false })

/-- Free a packet's slot after its copy. -/
def State.freePacket (s : State) (q seq : Nat) : State :=
  s.modQueue q (fun r => { r with packets := r.packets.filter (fun k => !(k.seq == seq && k.visible)) })

/-- Is an XQREAD descriptor's form right (R194, R235, R236). -/
def State.qreadOk (s : State) (d : Nat) : Bool :=
  let q := field d 268 264
  onlyBits d (commonBits ++ [(269, 256), (159, 64)]) && locOk (field d 127 64)
    && field d 159 128 % 64 == 0 && decide (s.obj (Key.at Key.slotBytes q) ≤ field d 159 128)

/-- Is a pitch the consumer of a queue. -/
def State.isConsumer (s : State) (p q : Nat) : Bool := s.obj (Key.at Key.queuePitch q) == p

/-- The work of an XQREAD (R195, R235 to R238): its claims and packets follow. -/
def State.qreadWork (s : State) (i d : Nat) (dstStep : Int) : Work :=
  let q := field d 268 264
  let l := xDst d
  match firstFault [(!s.isConsumer (s.slot i).pitch q, (fcAddress, q)), (!s.qreadOk d, badDesc),
      (s.cmplBad i d, (fcAddress, xCmplLine d)), (l.space == 4, addrFault l.addr)] with
  | some f => { s, err := some f }
  | none => { s, cmpl := xCmpl d, qread := some {
      queue := q, any := bit d 269, left := field d 263 256 + 1, space := l.space, cluster := l.cluster,
      addr := l.addr + dstStep, stride := field d 159 128, swap := xSwap d } }

/-- The work of XQREAD outside a chain. -/
def State.xqreadWork (s : State) (i d : Nat) : Work :=
  if !directOp d 0x64 then { s, err := some badDesc } else s.qreadWork i d 0

/-- Take the tags that a command's further requests need, or wait for them (R39). -/
def State.jobRequests (s : State) (j : Job) (reads writes : List Nat) : State × Job :=
  let p := (s.slot j.slot).pitch
  let (tags, due, s1) := s.takeTags (.engine (coreOfSlot j.slot)) p j.slot j.tags
    (reads.map (fun a => (false, a)) ++ writes.map (fun a => (true, a)))
  let s2 := if due.isEmpty then s1 else s1.bump Key.tagWaits due.length
  let wait := if due.isEmpty then j.wait else .tag ((due.filter (!·.1)).map (·.2)) ((due.filter (·.1)).map (·.2))
  (s2, { j with tags, wait })

/-- Replace the job of a slot on the transfer engine. -/
def State.putXfr (s : State) (j : Job) : State := s.modJob j.slot .xfr (fun _ => j)

/-- An XQREAD that waits on a queue goes on. -/
def State.wakeReader (s : State) (q i : Nat) : State :=
  (s.modQueue q (fun r => { r with stalled := r.stalled.filter (· != i) })).modJob i .xfr (fun j =>
    if j.wait == .queue q && j.qread.isSome then { j with wait := .none } else j)

/-- A packet or a claim of a queue is free, or the queue was enabled: its stalled readers look again (R237, R238, R245). -/
def State.serveQueue (s : State) (q : Nat) : State :=
  if s.obj (Key.at Key.queueEnable q) = 0 then s
  else (s.queue q).stalled.foldl (fun (t : State) i => t.wakeReader q i) s

/-! ### A command's packets, one by one (R134, R210, R211, R217) -/

/-- The lines of a chain's entry rise once its writes are complete (R216, R223). -/
def State.raiseAll (s : State) (i : Nat) (lines : List Nat) : State :=
  lines.foldl (fun (t : State) l => t.applyOperand i (.line l)) s

/-- Is nothing left to form, to write or to wait for. -/
def Job.moved (j : Job) : Bool := j.move.isNone && j.flight.isEmpty && j.qread.isNone && j.wait == .none && j.tags.isEmpty

/-- An entry of a chain with entries behind it is complete: its line rises (R223). -/
def State.endChainEntry (s : State) (i : Nat) : State :=
  match s.jobOf i .xfr with
  | none => s
  | some j =>
    if j.moved && j.chain.isSome && !j.cmplLines.isEmpty then (s.putXfr { j with cmplLines := [] }).raiseAll i j.cmplLines else s

/-- An XQREAD has copied the packet it claims: the slot of the queue is free, and the next delivery follows (R237). -/
def State.endClaim (s : State) (j : Job) : State :=
  match j.move, j.qread with
  | none, some r =>
    match r.claimed with
    | none => s
    | some seq =>
      let on : QRead := { r with claimed := none, left := r.left - 1, addr := r.addr + r.stride, delivered := r.delivered + 1 }
      let j1 : Job := { j with qread := if r.left ≤ 1 then none else some on }
      ((s.putXfr j1).freePacket r.queue seq).serveQueue r.queue
  | _, _ => s

/-- The packet in progress is written, once its reads are answered; it waits where tier B space is missing (R211, R301). -/
def State.landFlight (s : State) (j : Job) : State :=
  let i := j.slot
  let m := s.landPieces i j.flight
  match m.err, m.stall with
  | some f, _ => s.faultSlot i f j.opcode j.cmdPtr
  | none, some a => (s.putXfr { j with wait := .quota a.1 }).stallQuota (s.slot i).pitch a
  | none, none =>
    let (s1, j1) := m.s.jobRequests { j with flight := [], wait := .none } [] m.writes
    ((s1.putXfr j1).endClaim j1).endChainEntry i

/-- Are the reads of the packet in progress answered. -/
def State.readsBack (s : State) (j : Job) : Bool :=
  j.tags.all (fun t => (s.tier.tags.find? (·.tag == t)).elim true (fun e => e.write || e.fabric))

/-- The next packet of a movement is formed, and written at once where it reads no state memory (R210, R211, R217). -/
def State.formNext (s : State) (j : Job) (m : Move) : State :=
  let (mv, left, ps) := s.formPacket j.slot m
  match mv.err with
  | some f => mv.s.faultSlot j.slot f j.opcode j.cmdPtr
  | none =>
    let (s1, j1) := mv.s.jobRequests { j with move := left, flight := ps } mv.reads []
    let s2 := s1.putXfr j1
    if j1.wait == .none && s2.readsBack j1 then s2.landFlight j1 else s2

/-- The runs of a claimed packet: header, then payload under SWAP, in transfer packets of 4,096 B (R237). -/
def claimRuns (a : Nat) (dst : Int) (len swap : Nat) : List Run :=
  { src := some (a : Int), dst, len := 32 } :: (List.range (ceilDiv (len + 32) 4096)).filterMap (fun k =>
    let lo := if k = 0 then 0 else 4096 * k - 32
    let n := min (4096 * (k + 1) - 32) len - lo
    if n = 0 then none else some { src := some ((a + 32 + lo : Nat) : Int), dst := dst + (32 + lo : Nat), len := n, swap })

/-- An XQREAD claims its next packet, at most 4 on one queue, and forms its first transfer packet; in ANY mode it ends with a header
where no packet is left; else it waits (R237, R238). -/
def State.claimNext (s : State) (j : Job) (r : QRead) : State :=
  let i := j.slot
  let q := s.queue r.queue
  let stall := (s.putXfr { j with wait := .queue r.queue }).modQueue r.queue (fun q => { q with
    stalled := q.stalled.filter (· != i) ++ [i] })
  match q.oldest with
  | none =>
    if r.any && decide (0 < r.delivered) then
      let hdr := natLe 32 (q.nextSeq % 2 ^ 32 + r.queue * 2 ^ 192)
      s.landFlight { j with qread := none, flight := [{ space := r.space, cluster := r.cluster, addr := r.addr, bytes := hdr }] }
    else stall
  | some p =>
    if 4 ≤ (q.packets.filter (·.claimedBy.isSome)).length then stall
    else
      let n := s.queueCluster r.queue
      let a := s.queueSlot r.queue p.slot - ((s.pitch (s.slot i).pitch).share n).1
      (s.claimPacket i r.queue p).formNext { j with qread := some { r with claimed := some p.seq } }
        { srcSpace := 2, srcCluster := n, dstSpace := r.space, dstCluster := r.cluster, runs := claimRuns a r.addr p.length r.swap }

/-- Can a transfer cross to a space now (R27): the island of the cluster SRAM, of the tier unit or of the ring is up. -/
def State.crosses (s : State) (space cluster : Nat) : Bool :=
  match space with
  | 2 => s.up (48 + cluster)
  | 3 => s.up 54
  | 4 => s.up 58
  | _ => true

/-- Can the next packet of a transfer command cross, or its packet in progress be written. -/
def State.moveCrosses (s : State) (j : Job) : Bool :=
  if j.flight.isEmpty then
    j.move.elim true (fun m => s.crosses m.srcSpace m.srcCluster) && j.qread.elim true (fun r => s.up (48 + s.queueCluster r.queue))
  else j.flight.all (fun p => s.crosses p.space p.cluster)

/-- A slot's transfer command goes on by one packet: it writes the one in progress, or forms the next, or claims the next packet of
a queue; none where nothing can go on now, or where the island that it crosses to is down (R27). -/
def State.pushMove? (s : State) (i : Nat) : Option State :=
  (s.jobOf i .xfr).bind (fun j =>
    let quota := match j.wait with
      | .quota _ => true
      | _ => false
    if !(j.wait == .none || quota) || !s.readsBack j || !s.moveCrosses j then none
    else if !j.flight.isEmpty then some (s.landFlight j)
    else if !j.running.contains .xfr || quota then none
    else match j.move, j.qread with
      | some m, _ => some (s.formNext j m)
      | none, some r => some (s.claimNext j r)
      | none, none => none)
def State.pushMove (s : State) (i : Nat) : State := (s.pushMove? i).getD s

/-- A slot's transfer command goes on as far as it can, by at most `n` packets. -/
def State.runMoves (i : Nat) : Nat → State → State
  | 0, s => s
  | n + 1, s =>
    match s.pushMove? i with
    | none => s
    | some t => if t == s then s else State.runMoves i n t

/-- Issue a transfer command: its first packet follows at once where the engine is free (R213). -/
def State.issueMove (s : State) (u : SlotRef) (w : CmdWord) (opcode : Nat) (form : Form) (work : State → Nat → Nat → Work) : State :=
  let t := s.issueEngine u w opcode form xfrOnly work
  if (s.jobOf (slotIndex u) .xfr).isNone then t.pushMove (slotIndex u) else t

/-- XCOPY: strided two-level copy (R199, R200). -/
def execXcopy (u : SlotRef) (w : CmdWord) (s : State) : Host.Outcome State Fault Refusal :=
  .next (s.issueMove u w 0x60 .d64 (State.xWork 0x60))

/-- XGATHER: index-table gather (R202, R203). -/
def execXgather (u : SlotRef) (w : CmdWord) (s : State) : Host.Outcome State Fault Refusal :=
  .next (s.issueMove u w 0x61 .d64 (State.xWork 0x61))

/-- XSCATTER: index-table scatter (R202, R203). -/
def execXscatter (u : SlotRef) (w : CmdWord) (s : State) : Host.Outcome State Fault Refusal :=
  .next (s.issueMove u w 0x62 .d64 (State.xWork 0x62))

/-- XFILL: byte j of the range receives byte j mod 4 of PATTERN (R207, R208). -/
def execXfill (u : SlotRef) (w : CmdWord) (s : State) : Host.Outcome State Fault Refusal :=
  .next (s.issueMove u w 0x66 .inline State.xfillWork)

/-- XQREAD: claim and copy packets of a queue in sequence order (R235 to R238). -/
def execXqread (u : SlotRef) (w : CmdWord) (s : State) : Host.Outcome State Fault Refusal :=
  .next (s.issueMove u w 0x64 .d64 State.xqreadWork)

/-- Is a packet of the producer in progress in the queue (R240). -/
def Queue.inProgress (q : Queue) : Bool := q.packets.any (!·.visible)

/-- The flush takes effect (R240): every visible unclaimed packet is discarded and counted; the flushes asked complete. -/
def State.flushQueue (s : State) (q : Nat) : State :=
  let r := s.queue q
  let gone := r.packets.filter (fun p => p.visible && p.claimedBy.isNone)
  let s1 := (s.setQueue q { r with
    packets := r.packets.filter (fun p => !(p.visible && p.claimedBy.isNone))
    flushedSince := true
    flushAsked := []
    noticeFired := false }).bump (Key.at Key.flushedPackets q) gone.length
  r.flushAsked.foldl (fun (t : State) i => t.modJob i .xfr (fun j =>
    if j.wait == .queue q && j.opcode == 0x65 then { j with wait := .none } else j)) s1

/-- The work of XQFLUSH (R209, R240). -/
def State.xqflushWork (s : State) (i d : Nat) : Work :=
  let q := field d 4 0
  if !onlyBits d [(4, 0)] then { s, err := some badDesc }
  else if !s.isConsumer (s.slot i).pitch q then { s, err := some (fcAddress, q) }
  else if (s.queue q).inProgress then
    { s := s.modQueue q (fun r => { r with flushAsked := r.flushAsked ++ [i] }), wait := .queue q }
  else { s := s.flushQueue q }

/-- XQFLUSH: ask for a flush, at once where no packet is in progress (R209, R240). -/
def execXqflush (u : SlotRef) (w : CmdWord) (s : State) : Host.Outcome State Fault Refusal :=
  .next (s.issueEngine u w 0x65 .inline xfrOnly State.xqflushWork)

/-! ### Chains (R220 to R223) -/

/-- The work of XCHAIN at issue (R220). -/
def State.xchainWork (s : State) (_ d : Nat) : Work :=
  if !onlyBits d [(159, 128), (127, 96), (79, 64), (39, 32), (21, 0)] || field d 21 0 % 64 != 0 then { s, err := some badDesc }
  else { s, chain := some {
    listOff := field d 21 0, entries := field d 39 32 + 1, repeats := field d 79 64 + 1,
    srcStep := signed 32 (field d 127 96), dstStep := signed 32 (field d 159 128) } }

/-- XCHAIN: check the descriptor; the entries start one by one (R220, R221). -/
def execXchain (u : SlotRef) (w : CmdWord) (s : State) : Host.Outcome State Fault Refusal :=
  .next (s.issueEngine u w 0x63 .d128 xfrOnly State.xchainWork)

/-- The chain after its current entry: the next entry, the next repetition, or none. -/
def Chain.next (c : Chain) : Option Chain :=
  if c.entry + 1 < c.entries then some { c with entry := c.entry + 1 }
  else if c.rep + 1 < c.repeats then some { c with entry := 0, rep := c.rep + 1 }
  else none

/-- An address of an entry that lies outside its share, mapped range or 48 bits (R221). -/
def State.entryFault (s : State) (i d : Nat) (c : Chain) : Option PitchFault :=
  let at_ := fun (l : Loc) (step : Int) (write : Bool) => s.locFault i { l with addr := l.addr + c.rep * step } 1 write
  (at_ (xDst d) c.dstStep true).or (if xOp d = 0x64 then none else at_ (xSrc d) c.srcStep false)

/-- The work of a chain entry under the steps of its repetition (R221). -/
def State.entryWork (s : State) (i d : Nat) (c : Chain) : Work :=
  let k := if xOp d = 0x64 then s.qreadWork i d (c.rep * c.dstStep) else s.xPlan i d (xOp d) (c.rep * c.srcStep) (c.rep * c.dstStep)
  { k with err := k.err.or (s.entryFault i d c) }

/-- The chain's next entry is read from the list and starts; with WAIT_EN it consumes a pulse of the slot's transfer chain, or waits
for one (R221, R222). -/
def State.startChainEntry (s : State) (j : Job) (c : Chain) : State :=
  let i := j.slot
  let off := c.listOff + 64 * c.entry
  let fault := fun (f : PitchFault) => s.faultSlot i f 0x63 j.cmdPtr
  if s.outside i false off 64 then fault (fcAddress, off)
  else match s.spPoisonFault i off 64 with
    | some f => fault f
    | none =>
      let d := leNat (s.readSp i off 64)
      if !([0x60, 0x61, 0x62, 0x64].contains (xOp d)) then fault (fcDescriptor, off)
      else if xWaitEn d && tabGet (s.slot i).chainPending (xWaitLine d) 0 == 0 then s.putXfr { j with wait := .chainLine (xWaitLine d) }
      else
        let s1 := if xWaitEn d then s.modSlot i (fun x => { x with
            chainPending := tabSet x.chainPending (xWaitLine d) (tabGet x.chainPending (xWaitLine d) 0 - 1) }) else s
        let k := s1.entryWork i d c
        match k.err with
        | some f => k.s.faultSlot i (if f.1 = fcDescriptor then (fcDescriptor, off) else f) 0x63 j.cmdPtr
        | none => (k.s.putXfr { j with wait := .none, qread := k.qread, move := k.move, chain := c.next, cmplLines := k.cmpl }).pushMove i

/-- XCHAIN_ENTRY_START: once the entry before is complete, with its line raised, the chain's next entry starts (R221 to R223). -/
def execXchainEntryStart (u : SlotRef) (s : State) : Host.Outcome State Fault Refusal :=
  let i := slotIndex u
  match s.jobOf i .xfr with
  | none => .next s
  | some j =>
    match j.chain with
    | none => .next s
    | some c =>
      let waits := match j.wait with
        | .none => false
        | .chainLine _ => false
        | _ => true
      if waits || !({ j with wait := .none } : Job).moved || !j.running.contains .xfr then .next s
      else .next ((s.raiseAll i j.cmplLines).startChainEntry { j with cmplLines := [] } c)

end Sys2Proof.Machine
end

