-- ==== Sys2Proof/Machine/Hash.lean ====
section
/-! DEFINITION. SHA-256 (FIPS 180-4) and CRC-32C (Castagnoli), which the spec names (R685, R690, R774, R779). -/

namespace Sys2Proof.Machine

/-- The largest r below 2^n, added to `r`, whose k-th power does not exceed v: bit by bit from the highest. -/
def rootBits (k v : Nat) : Nat → Nat → Nat
  | 0, r => r
  | n + 1, r => rootBits k v n (if (r + 2 ^ n) ^ k ≤ v then r + 2 ^ n else r)

/-- The first 32 bits of the fraction of the k-th root of p, as FIPS 180-4 forms its constants. -/
def rootFraction (k p : Nat) : Nat := rootBits k (p * 2 ^ (32 * k)) 40 0 % 2 ^ 32

/-- The primes below 312 in ascending order: the first 64. -/
def shaPrimes : List Nat :=
  (List.range 312).filter (fun n => decide (2 ≤ n) && (List.range 18).all (fun d => d < 2 || n ≤ d || n % d != 0))

/-- The round constants of SHA-256, from the cube roots of the first 64 primes. -/
def shaK : List Nat := shaPrimes.map (rootFraction 3)

/-- The initial hash value of SHA-256, from the square roots of the first eight. -/
def shaInit : List Nat := (shaPrimes.take 8).map (rootFraction 2)

/-- Rotate a 32-bit word right. -/
def ror32 (x n : Nat) : Nat := x >>> n ||| (x <<< (32 - n)) % 2 ^ 32

/-- The next schedule word from the last sixteen, newest first. -/
def shaSched (w : List Nat) : Nat :=
  let a := nth w 14 0
  let b := nth w 1 0
  ((ror32 b 17 ^^^ ror32 b 19 ^^^ b >>> 10) + nth w 6 0 + (ror32 a 7 ^^^ ror32 a 18 ^^^ a >>> 3) + nth w 15 0) % 2 ^ 32

/-- One round on the eight working words. -/
def shaRound (v : List Nat) (k w : Nat) : List Nat :=
  match v with
  | [a, b, c, d, e, f, g, h] =>
    let t1 := h + (ror32 e 6 ^^^ ror32 e 11 ^^^ ror32 e 25) + ((e &&& f) ^^^ ((e ^^^ 0xFFFFFFFF) &&& g)) + k + w
    let t2 := (ror32 a 2 ^^^ ror32 a 13 ^^^ ror32 a 22) + ((a &&& b) ^^^ (a &&& c) ^^^ (b &&& c))
    [(t1 + t2) % 2 ^ 32, a, b, c, (d + t1) % 2 ^ 32, e, f, g]
  | _ => v

/-- Compress one 64 B block. -/
def shaBlock (h : List Nat) (block : List Byte) : List Nat :=
  let ws := (List.range 16).map (fun i => beNat ((block.drop (4 * i)).take 4))
  let all := ((List.range 48).foldl (fun w _ => shaSched w :: w) ws.reverse).reverse
  let v := (List.zip shaK all).foldl (fun v p => shaRound v p.1 p.2) h
  List.zipWith (fun a b => (a + b) % 2 ^ 32) h v

/-- SHA-256 of a byte string. -/
def sha256 (bs : List Byte) : List Byte :=
  let pad := List.replicate ((119 - bs.length % 64) % 64) (0 : Byte)
  let msg := bs ++ [0x80] ++ pad ++ natBe 8 (8 * bs.length)
  ((List.range (msg.length / 64)).foldl (fun h i => shaBlock h ((msg.drop (64 * i)).take 64)) shaInit).flatMap (natBe 4)

/-- CRC-32C of a byte string: reflected polynomial 0x82F63B78, initial and final value all ones. -/
def crc32c (bs : List Byte) : Nat :=
  (bs.foldl (fun c b => (List.range 8).foldl (fun c _ => c >>> 1 ^^^ (if c % 2 = 1 then 0x82F63B78 else 0)) (c ^^^ b.toNat))
    0xFFFFFFFF) ^^^ 0xFFFFFFFF

end Sys2Proof.Machine
end

