-- ==== Sys2Proof/Machine/Uoa.lean ====
section
/-! DEFINITION. Requests to the object dictionary: roles, sessions, sealed frames, kept responses, proxying, and the form that
every CMD write shares (chapter 16, R768 to R774, R781 to R788, R793, R794). -/

namespace Sys2Proof.Machine

/-! ### STATUS (R785) -/

def stOk := 0x00
def stNoObject := 0x01
def stAccess := 0x02
def stRole := 0x03
def stRange := 0x04
def stLength := 0x05
def stRefused := 0x06
def stBusy := 0x07
def stSequence := 0x08
def stSignature := 0x09
def stSession := 0x0A
def stUnreachable := 0x0B
def stTimeout := 0x0C
def stNvFull := 0x0D
def stOp := 0x0E
def stNoValue := 0x0F
def stInProgress := 0x80

/-! ### Roles (R768 to R772) -/

/-- The role a request carries. -/
inductive Role
  | none
  | tenant (id : Nat)
  | operator
  | integrator
  | vendor
  deriving DecidableEq, Repr

/-- The order of roles (R768). -/
def Role.rank (r : Role) : Nat :=
  match r with
  | .none => 0
  | .tenant _ => 1
  | .operator => 2
  | .integrator => 3
  | .vendor => 4

/-- Who asks: its role, path and session. -/
structure Caller where
  role : Role
  path : Path
  session : Nat := 0
  deriving DecidableEq, Repr

/-- May the caller act on an instance of a tenant (R772): its own tenant, or OPERATOR and above. -/
def Caller.reaches (c : Caller) (tenant : Nat) : Bool :=
  match c.role with
  | .none => false
  | .tenant t => t == tenant
  | _ => true

/-- Is the module in provisioning mode: no INTEGRATOR key is installed (R769). -/
def State.provisioning (s : State) : Bool := (tabFind s.sec.roleKeys 0x80).isNone

/-- Role of a session's role byte (R689, R768). -/
def sessionRole (x : Session) : Role :=
  if x.role = 0x80 then .integrator else if x.role = 0x81 then .operator else .tenant x.tenant

/-- The caller of a request; none where its SESSION names no open session (R783). MC firmware's own requests count as
INTEGRATOR (DEDUCED, log entry 94). -/
def State.callerOf (s : State) (r : Req) : Option Caller :=
  if r.path = .internal then some { role := .integrator, path := r.path }
  else if r.session = 0 then
    some { role := if s.provisioning then .integrator else .none, path := r.path }
  else (s.sec.sessions.find? (·.id == r.session)).map (fun x => { role := sessionRole x, path := r.path, session := r.session })

/-! ### Frames (R782, R783, R827) -/

/-- Queue an outgoing frame of a mailbox: in the response buffer where it is empty, else among the 16 queued (R827). -/
def State.mailboxOut (s : State) (m : Nat) (frame : List Byte) : State :=
  let h := s.host
  if tabGet h.mbRespLen m 0 = 0 then
    { s with host := { h with
      mbResp := tabSet h.mbResp m frame
      mbRespLen := tabSet h.mbRespLen m (BitVec.ofNat 32 frame.length)
      vectors := h.vectors ++ [m] } }
  else if 16 ≤ (tabGet h.mbQueue m []).length then s.bump Key.mailboxDrops
  else { s with host := { h with mbQueue := tabSet h.mbQueue m (tabGet h.mbQueue m [] ++ [frame]) } }

/-- Send a frame on a path as it stands. -/
def State.sendOn (s : State) (path : Path) (frame : List Byte) : State :=
  match path with
  | .mailbox m => s.mailboxOut m.val frame
  | .guyline m =>
    s.emit { kind := .guyline, dstModule := m, srcUnit := { module := s.moduleId }, payload := frame, len := frame.length }
  | .internal => s
  | .usb2 => { s with mgmt := { s.mgmt with responses := s.mgmt.responses ++ [(path, frame)] } }
  | .segment _ =>
    ({ s with mgmt := { s.mgmt with responses := s.mgmt.responses ++ [(path, frame)] } }).bump Key.t1sFramesTx

/-- Is this module the segment manager (R790), or a worker. -/
def State.isManager (s : State) : Bool :=
  s.obj Key.segmentRole == 1 || (s.obj Key.segmentRole == 0 && s.obj Key.plcaNodeId == 0)
def State.isWorker (s : State) : Bool :=
  s.obj Key.segmentRole == 2
    || (s.obj Key.segmentRole == 0 && s.obj Key.plcaNodeId != 0 && s.obj Key.plcaNodeId != 0xFF)

/-- Is the module in a fabric with optics on. -/
def State.opticsOn (s : State) : Bool := s.obj Key.profileOptics == 1

/-- Is the segment between this module and another one down, as manager and worker see it (R19, R792). -/
def State.segmentDownTo (s : State) (module : Nat) : Bool :=
  if s.isManager then (s.mgmt.members.find? (·.module == module)).elim false (fun m => !m.up)
  else s.isWorker && !s.mgmt.segmentUp && s.mgmt.segmentManager == module

/-- The path that a frame takes that is no reply (a reply keeps its request's path, R20): between a manager and a worker over guyline
while the segment is down, where a fabric carries it (R19). -/
def State.framePath (s : State) (path : Path) : Path :=
  match path with
  | .segment m => if s.opticsOn && s.segmentDownTo m then .guyline m else path
  | _ => path

/-- The header fields of a request that its answer echoes. -/
structure Head where
  op : Nat
  index : Nat := 0
  sub : Nat := 0
  param : Nat := 0
  offset : Nat := 0
  deriving DecidableEq, Repr

/-- A frame header (R782): flags, length of the data, and the fields. -/
def frameHeader (flags len session requestId target op status index sub param offset : Nat) : List Byte :=
  [0x01, BitVec.ofNat 8 flags] ++ natLe 2 len ++ natLe 4 session ++ natLe 4 requestId ++ natLe 2 target
    ++ [BitVec.ofNat 8 op, BitVec.ofNat 8 status] ++ natLe 2 index ++ [BitVec.ofNat 8 sub, BitVec.ofNat 8 param]
    ++ natLe 4 offset

/-- XOR of two byte strings. -/
def xorBytes (a b : List Byte) : List Byte := List.zipWith (fun x y => x ^^^ y) a b

/-- The nonce of a sealed frame: the direction's IV salt XORed with the sequence, extended at its most significant end
(R691). -/
def frameNonce (salt : List Byte) (seq : Nat) : List Byte := xorBytes salt (natBe 12 seq)

/-- The additional authenticated data of a frame: its header, with PROXIED and BY_NODE taken as 0 (R783, R795). -/
def frameAad (frame : List Byte) : List Byte :=
  match frame.take 24 with
  | v :: f :: rest => v :: (f &&& 0xE7) :: rest
  | short => short

/-- Build an outgoing frame of a session or of none, sealed in a session (R691, R783). -/
def State.makeFrame (s : State) (session : Nat) (flags requestId target op status index sub param offset : Nat)
    (data : List Byte) : State × List Byte :=
  match s.sec.sessions.find? (·.id == session) with
  | none =>
    (s, frameHeader flags (24 + data.length) session requestId target op status index sub param offset ++ data)
  | some x =>
    let seq := x.seqOut + 1
    let hdr := frameHeader (flags ||| 2) (48 + data.length) session requestId target op status index sub param offset
    let sealed := Config.gcmSeal ((x.keys.drop 32).take 32) (frameNonce ((x.keys.drop 76).take 12) seq) (frameAad hdr) data
    let s1 : State := { s with sec := { s.sec with
      sessions := s.sec.sessions.map (fun y => if y.id = session then { y with seqOut := seq } else y) } }
    (s1, hdr ++ natLe 8 seq ++ sealed)

/-- An unsealed answer that is not kept: a manager's own answers to proxied requests (R794, R795). -/
def State.answerPlain (s : State) (r : Req) (h : Head) (status : Nat) : State :=
  s.sendOn r.path (frameHeader (1 + 8 * flag r.byNode) 24 r.session r.requestId r.target h.op status h.index h.sub h.param h.offset)

/-- Answer a request: the response frame goes out on the request's path and is kept for repeats (R788); unsealed where the
session is none that is open (R783). -/
def State.answer (s : State) (r : Req) (h : Head) (status : Nat) (data : List Byte) (more : Bool) : State :=
  let (s1, frame) := s.makeFrame r.session (1 + 4 * flag more + 8 * flag r.byNode) r.requestId r.target h.op status h.index h.sub
    h.param h.offset data
  let mine := fun (k : Kept) => if r.session = 0 then k.session == 0 && k.path == r.path else k.session == r.session
  let old := s1.mgmt.kept.filter mine
  let drop := if 32 ≤ old.length then old.head? else none
  let k : Kept := { path := r.path, session := r.session, requestId := r.requestId, op := h.op, index := h.index,
                    sub := h.sub, offset := h.offset, stamp := s.time, response := frame }
  let s2 : State := { s1 with mgmt := { s1.mgmt with
    kept := (s1.mgmt.kept.filter (fun k => some k != drop)) ++ [k] } }
  s2.sendOn r.path frame

/-- The kept response of an equal request that arrives within 2 s (R788). -/
def State.keptFor (s : State) (r : Req) (h : Head) : Option Kept :=
  s.mgmt.kept.find? (fun k => (if r.session = 0 then k.session == 0 && k.path == r.path else k.session == r.session)
    && k.requestId == r.requestId && k.op == h.op && k.index == h.index && k.sub == h.sub && k.offset == h.offset
    && decide (s.time < k.stamp + 2000000000))

/-! ### Proxying (R790, R793, R794) -/

/-- Is a request for another module or node (R793). -/
def State.isProxied (s : State) (r : Req) : Bool :=
  if r.byNode then r.target != s.obj Key.plcaNodeId else r.target != 0xFFFF && r.target != s.moduleId

/-- The frame of a request, as it came outside a session. -/
def requestFrame (r : Req) (h : Head) (data : List Byte) : List Byte :=
  frameHeader (8 * flag r.byNode) (24 + data.length) r.session r.requestId r.target h.op 0 h.index h.sub h.param h.offset ++ data

/-- Forward a proxied request's frame with PROXIED set, or answer it where that cannot be done (R793, R794). -/
def State.proxy (s : State) (r : Req) (h : Head) (frame : List Byte) : State :=
  match s.mgmt.members.find? (fun m => if r.byNode then m.node == r.target else m.module == r.target) with
  | none => s.answerPlain r h stUnreachable
  | some m =>
    if !s.isManager then s.answerPlain r h stUnreachable
    else if 16 ≤ (s.mgmt.proxied.filter (·.worker == m.module)).length then s.answerPlain r h stBusy
    else
      let out := frame.take 1 ++ ((frame.drop 1).take 1).map (· ||| 16) ++ frame.drop 2
      let rec_ : Proxied := { worker := m.module, requestId := r.requestId, path := r.path, onSegment := m.up, header := frame.take 24, since := s.time }
      let s1 : State := { s with mgmt := { s.mgmt with proxied := s.mgmt.proxied ++ [rec_] } }
      if m.up then s1.sendOn (.segment m.module) out
      else match s1.emit? { kind := .guyline, dstModule := m.module, srcUnit := { module := s.moduleId }, payload := out,
                            len := out.length } with
        | some s2 => s2
        | none => s.answerPlain r h stUnreachable

/-! ### Requests -/

/-- What serving a request gives: the state, the status, the response data and MORE. -/
abbrev Served := State × Nat × List Byte × Bool

/-- A served request with a status alone. -/
def served (s : State) (status : Nat) : Served := (s, status, [], false)

/-- A UOA frame received on the segment is counted (R802). -/
def State.countSegment (s : State) (path : Path) : State :=
  match path with
  | .segment _ => s.bump Key.t1sFramesRx
  | _ => s

/-- Does the MC run: in ACTIVE and DOZE, unless browned out (R678, R737). -/
def State.mcOn (s : State) : Bool := (s.power.st == .active || s.power.st == .doze) && !s.errors.islandsDown.contains 59

/-- Handle a request, where the MC runs (R783, R787, R788, R793): a repeat is answered from what was kept; a proxied one is
forwarded; else it is served with its caller and answered. -/
def State.request (s0 : State) (r : Req) (h : Head) (data : List Byte) (serve : State → Caller → Served) : State :=
  let s := s0.countSegment r.path
  if !s0.mcOn then s0
  else if s.isProxied r then s.proxy r h (requestFrame r h data)
  else match s.keptFor r h with
    | some k => (s.bump Key.uoaRepeatsAnswered).sendOn r.path k.response
    | none =>
      match s.callerOf r with
      | none => s.answer r h stSession [] false
      | some c =>
        let (s2, st, bs, more) := serve (s.bump Key.uoaRequests) c
        s2.answer r h st bs more

/-- The action of a CMD object: the state and STATUS that a write of its value gives. -/
abbrev CmdAct := State → Caller → List Byte → State × Nat

/-- Serve a write of a CMD object (R766, R768 to R773, R787, R873): `min` the least rank of role that reaches it. -/
def State.serveCmd (s : State) (c : Caller) (key min : Nat) (v : List Byte) (act : CmdAct) : State × Nat :=
  match objRow key with
  | none => (s, stNoObject)
  | some row =>
    if c.role.rank < min then (s, stRole)
    else if row.ty != .domain && row.ty != .string && v.length != max 1 (row.ty.width / 8) then (s, stLength)
    else if row.ty == .domain && row.size != 0 && v.length != row.size then (s, stLength)
    else if row.ty == .bool && 1 < leNat v then (s, stRange)
    else if row.ty == .bool && leNat v == 0 then (s, stOk)
    else if s.mgmt.inProgress.any (·.2 == key) then (s, stBusy)
    else act s c v

/-- A CMD answered IN_PROGRESS runs on for its request (R787). -/
def State.noteProgress (s : State) (r : Req) (key status : Nat) : State :=
  if status = stInProgress then { s with mgmt := { s.mgmt with inProgress := s.mgmt.inProgress ++ [(r, key)] } } else s

/-- A write of a CMD object as a command of the table. -/
def State.runCmd (s : State) (r : Req) (key min : Nat) (v : List Byte) (act : CmdAct) : State :=
  s.request r { op := 2, index := key / 256, sub := key % 256 } v (fun s c =>
    let (s1, st) := s.serveCmd c key min v act
    served (s1.noteProgress r key st) st)

/-- Is a scalar value permitted by its object's row: its range, its multiple, or one of its extra values. -/
def ObjRow.permits (row : ObjRow) (v : Nat) : Bool :=
  row.also.contains v || (decide (row.lo ≤ v) && decide (v ≤ row.hi) && (row.mult ≤ 1 || v % row.mult == 0))

/-- Is a value one that an object permits on this ordering code: FlashDailyBudget goes to 4 × its default (R296). -/
def State.permits (s : State) (row : ObjRow) (v : Nat) : Bool :=
  row.permits v && (row.key != Key.flashDailyBudget || decide (v ≤ 4 * factoryValue s.mb s.profile row.key))

/-- Serve a write of a scalar object (R766, R767, R771): `act` makes the change the owning chapter states. -/
def State.serveScalar (s : State) (c : Caller) (key min : Nat) (v : List Byte) (act : State → Caller → Nat → State × Nat) :
    State × Nat :=
  match objRow key with
  | none => (s, stNoObject)
  | some row =>
    if c.role.rank < min then (s, stRole)
    else if v.length != max 1 (row.ty.width / 8) then (s, stLength)
    else if (row.ty == .bool && 1 < leNat v) || !s.permits row (leNat v) then (s, stRange)
    else act s c (leNat v)

/-- A write of a scalar object as a command of the table. -/
def State.runScalar (s : State) (r : Req) (key min : Nat) (v : List Byte) (act : State → Caller → Nat → State × Nat) : State :=
  s.request r { op := 2, index := key / 256, sub := key % 256 } v (fun s c =>
    let (s1, st) := s.serveScalar c key min v act
    served s1 st)

/-- Ranks for `min`: any caller, TENANT, OPERATOR, INTEGRATOR, VENDOR. -/
def rkAny := 0
def rkTenant := 1
def rkOperator := 2
def rkIntegrator := 3
def rkVendor := 4

/-! ### Vendor-signed writes (R774) -/

/-- Fields of the 448 B envelope that ends a WRITE_SIGNED value. -/
def envelopeOk (serial nonce index sub : Nat) (value env : List Byte) : Bool :=
  leNat (env.take 8) == serial && leNat ((env.drop 8).take 16) == nonce && leNat ((env.drop 24).take 2) == index
    && leNat ((env.drop 26).take 1) == sub && leNat ((env.drop 27).take 1) == 0 && leNat ((env.drop 28).take 4) == value.length
    && (env.drop 32).take 32 == sha256 value
    && Config.pssVerify Config.signingDigest (env.take 64) ((env.drop 64).take 384)

/-- VendorNonce is drawn anew. -/
def State.redrawNonce (s : State) : State :=
  let s1 := s.fresh.2
  { s1 with sec := { s1.sec with vendorNonce := Config.freeNat s.freeCtr % 2 ^ 128 } }

/-- Open a WRITE_SIGNED value: the value and the state with the VendorNonce drawn anew, or the STATUS that refuses it (R774). -/
def State.openSigned (s : State) (key : Nat) (bytes : List Byte) : Except Nat (State × List Byte) :=
  let value := bytes.take (bytes.length - 448)
  if bytes.length < 448 then .error stLength
  else if !envelopeOk Config.dieSerial s.sec.vendorNonce (key / 256) (key % 256) value (bytes.drop (bytes.length - 448)) then
    .error stSignature
  else .ok (s.redrawNonce, value)

/-- Serve a WRITE_SIGNED frame of a VENDOR command. -/
def State.serveSigned (s : State) (c : Caller) (key : Nat) (bytes : List Byte) (act : CmdAct) : State × Nat :=
  match s.openSigned key bytes with
  | .error st => (s, st)
  | .ok (s1, value) => s1.serveCmd { c with role := .vendor } key rkVendor value act

/-- A VENDOR command of the table: its value followed by the envelope. -/
def State.runSigned (s : State) (r : Req) (key : Nat) (bytes : List Byte) (act : CmdAct) : State :=
  s.request r { op := 4, index := key / 256, sub := key % 256 } bytes (fun s c =>
    let (s1, st) := s.serveSigned c key bytes act
    served s1 st)

/-- A NOTIFY frame to a requester (R787, R796). -/
def State.notify (s : State) (path : Path) (session requestId param status : Nat) (index sub : Nat) (data : List Byte) : State :=
  let (s1, frame) := s.makeFrame session 0 requestId 0xFFFF 0x10 status index sub param 0 data
  s1.sendOn (s.framePath path) frame

end Sys2Proof.Machine
end

