-- ==== Sys2Proof/Machine/Requests.lean ====
section
/-! DEFINITION. The returns of requests to state memory: read data and commit acknowledgements, the tags they free, and the
requests that waited for one (R39, R217, R218, R226). -/

namespace Sys2Proof.Machine

/-- Let the jobs of a core that wait for tags take those that are free (R39). -/
def State.serveCoreTags (s : State) (c : Nat) : State :=
  (s.core c).jobs.foldl (fun (t : State) j =>
    match j.wait with
    | .tag reads writes =>
      match j.engines.head? with
      | none => t
      | some e =>
        let (tags, due, t1) := t.takeTags (.engine c) (t.slot j.slot).pitch j.slot j.tags
          (reads.map (fun a => (false, a)) ++ writes.map (fun a => (true, a)))
        let wait := if due.isEmpty then .none
          else JobWait.tag ((due.filter (!·.1)).map (·.2)) ((due.filter (·.1)).map (·.2))
        t1.modJob j.slot e (fun j => { j with tags, wait })
    | _ => t) s

/-- Let every waiting job take free tags and send the packets that waited for one, in core order. -/
def State.serveTags (s : State) : State :=
  (s.cores.map (·.1)).foldl (fun (t : State) c =>
    let t := if (t.core c).jobs.any (fun j => match j.wait with | .tag _ _ => true | _ => false) then t.serveCoreTags c else t
    ((t.core c).jobs.filter (fun j => !j.sends.isEmpty)).foldl (fun (t : State) j => t.pushSends j.slot) t) s

/-- The job of a slot that holds a tag. -/
def State.jobOfTag (s : State) (slot tag : Nat) : Option Job :=
  (s.core (coreOfSlot slot)).jobs.find? (fun j => j.slot == slot && j.tags.contains tag)

/-- A tag of a job has returned: it leaves the job. -/
def State.returnTag (s : State) (j : Job) (tag : Nat) : State :=
  match j.engines.head? with
  | none => s
  | some e => s.modJob j.slot e (fun j => { j with tags := j.tags.filter (· != tag) })

/-- A command whose answers are back goes on: its packet in progress is written, its first step begins, the entry of a chain ends with
its line (R211, R223), and a FENCE, PARK or STOP of its slot may be met. -/
def State.afterReturn (s : State) (j : Job) : State :=
  let i := j.slot
  match j.engines.head?.bind (s.jobOf i) with
  | none => s
  | some k =>
    let s1 := if !k.flight.isEmpty && k.wait == .none && s.readsBack k then s.landFlight k else s.beginAll i k.engines
    let s2 := s1.endChainEntry i
    if (s2.slot i).st = .teardown then s2 else s2.settle i

/-- Mark the 64 B line at an offset of a page as poisoned (R656, R663). -/
def State.poisonAt (s : State) (g : Page) (off : Nat) : State :=
  s.modPage g.id (fun g => { g with poison := tabSet g.poison (off / 64) fcEccUncorr })

/-- A tile of a tier C page fails to read after seven retries: its flash copy is marked unreadable, in the page and in the set's
committed image where it is the same copy, and counted (R293). -/
def State.flashFail (s : State) (g : Page) (t : Nat) : State :=
  if !g.inFlash t || g.unreadable.contains t then s
  else
    let mark := fun (g : Page) => { g with unreadable := g.unreadable ++ [t] }
    let put := fun (o : Page) => if o.id = g.id ∧ !o.unreadable.contains t then mark o else o
    let sets := s.tier.sets.map (fun u => if u.commitSeq ≤ s.newestSeq g.id t then u else { u with committedPages := u.committedPages.map put })
    ({ s with tier := { s.tier with sets := sets } }).modPage g.id mark

/-- The slot whose command waits at a state address for tier B space, if the request is a slot's (R301). -/
def State.quotaSlot (s : State) (p a : Nat) : Option Nat :=
  (s.pitch p).slots.find? (fun i => (s.slot i).hold == .quota a
    || (s.core (coreOfSlot i)).jobs.any (fun j => j.slot == i && j.wait == .quota a))

/-- QUOTA_STALL_TIMEOUT: a request of a pitch that has waited QuotaStallUs under STALL tears the pitch down (R301). -/
def execQuotaStallTimeout (pitch : Nat) (s : State) : Host.Outcome State Fault Refusal :=
  let late := fun (w : Stalled) => w.pitch == pitch
    && w.since.elim false (fun t => decide (t + 1000 * s.obj (Key.at Key.quotaStallUs pitch) ≤ s.time))
  match s.tier.stalled.find? late with
  | none => .next s
  | some w => .next (match s.quotaSlot pitch w.addr with
    | some i => s.faultSlot i (fcQuota, w.addr) 0 (s.slot i).streamPtr
    | none => s.faultPitch pitch fcQuota w.addr)

end Sys2Proof.Machine
end

