-- ==== Sys2Proof/Machine/Queues.lean ====
section
/-! DEFINITION. Sensor queues: what producers do, enabling and disabling, flushes and stale-tail notices (R228 to R246). -/

namespace Sys2Proof.Machine

/-! ### Producing (R231 to R234) -/

/-- The slot a producer takes at the start of a packet (R234), and the packet it overwrites there. -/
def State.pickSlot (s : State) (q : Nat) : Nat × Option QPacket :=
  let r := s.queue q
  let n := s.obj (Key.at Key.slotsPerBank q)
  let free := fun (k : Nat) => !r.packets.any (·.slot == k)
  let bank := fun (b : Nat) => (List.range n).map (· + b * n)
  let above := (bank r.bank).filter (fun k => free k && r.lastSlot.elim true (fun l => l / n != r.bank || decide (l < k)))
  match above.head?, ((bank (1 - r.bank)).filter free).head?, ((bank r.bank).filter free).head? with
  | some k, _, _ => (k, none)
  | none, some k, _ => (k, none)
  | none, none, some k => (k, none)
  | none, none, none => (r.oldest.elim 0 (·.slot), r.oldest)

/-- Start a packet: its slot, or none where the queue is disabled, which loses it (R234, R245). -/
def State.startPacket (s : State) (q : Nat) : State × Option Nat :=
  if s.obj (Key.at Key.queueEnable q) = 0 then (s.bump (Key.at Key.lostPackets q), none)
  else
    let (k, cut) := s.pickSlot q
    let n := s.obj (Key.at Key.slotsPerBank q)
    let s1 := match cut with
      | none => s
      | some p => (s.modQueue q (fun r => { r with
          packets := r.packets.filter (fun x => !(x.slot == p.slot)), lostSince := r.lostSince + 1 })).bump
            (Key.at Key.lostPackets q)
    let p : QPacket := { slot := k, seq := 0, stamp := 0, prodFlags := 0, length := 0, overlong := false, visible := false }
    (s1.modQueue q (fun r => { r with packets := r.packets ++ [p], lastSlot := some k, bank := k / n }), some k)

/-- Write payload bytes of a packet in progress at an offset of its payload; what passes the slot is cut (R233). -/
def State.putPayload (s : State) (q k off : Nat) (bs : List Byte) : State :=
  let room := s.obj (Key.at Key.slotBytes q) - 32 - off
  s.writeSram (s.queueCluster q) (s.queueSlot q k + 32 + off) (bs.take room)

/-- A packet of the producer is no longer in progress: a flush that waited for it takes effect (R240). -/
def State.packetBoundary (s : State) (q : Nat) : State :=
  if (s.queue q).flushAsked.isEmpty || (s.queue q).inProgress then s else s.flushQueue q

/-- The readers that stalled on a queue look again, and go on where they can (R237, R238, R245). -/
def State.serveReaders (s : State) (q : Nat) : State := (s.queue q).stalled.foldl State.pushMove (s.serveQueue q)

/-- Is the packet in a slot of a queue in progress still: the queue was not disabled since it began (R245). -/
def Queue.writing (r : Queue) (k : Nat) : Bool := r.packets.any (fun p => p.slot == k && !p.visible)

/-- The packet in progress in a slot is no more. -/
def State.endPacket (s : State) (q k : Nat) : State :=
  s.modQueue q (fun r => { r with packets := r.packets.filter (fun x => !(x.slot == k && !x.visible)) })

/-- The packet in a slot becomes visible with the next sequence number; its commit line is raised by the producer's island, a flush that
waited takes effect, and stalled readers go on (R231, R233, R238, R240, R242). On a queue disabled since it is lost (R245). -/
def State.commitPacket (s : State) (src q k stamp prodFlags length : Nat) : State :=
  let r := s.queue q
  let room := s.obj (Key.at Key.slotBytes q) - 32
  let p : QPacket := { slot := k, seq := r.nextSeq % 2 ^ 32, stamp, prodFlags, length := min length room,
                       overlong := decide (room < length), visible := true, commitStamp := s.time }
  if !r.writing k || s.obj (Key.at Key.queueEnable q) = 0 then
    ((s.endPacket q k).bump (Key.at Key.lostPackets q)).packetBoundary q
  else
    let s1 := (s.callCluster (s.queueCluster q)).writeSram (s.queueCluster q) (s.queueSlot q k) (packetHeader q p 0 false)
    let s2 := s1.setQueue q { r with
      packets := r.packets.filter (fun x => !(x.slot == k)) ++ [p], nextSeq := r.nextSeq + 1 }
    ((s2.pulse (s.queueCluster q) (128 + 2 * q) none src).packetBoundary q).serveReaders q

/-- A packet marked bad before commit: its slot returns to free (R232). -/
def State.rewindPacket (s : State) (q k : Nat) : State := ((s.endPacket q k).bump (Key.at Key.rewoundPackets q)).packetBoundary q

/-- A whole packet in one burst of the producer's island (R240). -/
def State.burstPacket (s : State) (src q stamp prodFlags : Nat) (payload : List Byte) : State :=
  match s.startPacket q with
  | (s1, none) => s1
  | (s1, some k) => (s1.putPayload q k 0 payload).commitPacket src q k stamp prodFlags payload.length

/-! ### Objects and events -/

/-- Is the queue's configuration such that it may be enabled (R243, R244). -/
def State.queueFits (s : State) (q : Nat) : Bool :=
  let n := s.obj (Key.at Key.slotsPerBank q)
  let b := s.obj (Key.at Key.slotBytes q)
  let len := ((s.pitch (s.obj (Key.at Key.queuePitch q))).share (s.queueCluster q)).2
  decide (4 ≤ n) && decide (n ≤ 256) && decide (128 ≤ b) && decide (b ≤ 2097152) && b % 64 == 0
    && decide (s.obj (Key.at Key.queueSramOffset q) + 2 * n * b ≤ len)

/-- Disable a queue (R245): its visible unclaimed packets are discarded into FlushedPackets; claimed ones finish their reads. -/
def State.disableQueue (s : State) (q : Nat) : State :=
  let r := s.queue q
  let gone := r.packets.filter (fun p => p.visible && p.claimedBy.isNone)
  ((s.setQueue q { r with packets := r.packets.filter (fun p => !(p.visible && p.claimedBy.isNone)) }).bump (Key.at Key.flushedPackets q) gone.length).setObj (Key.at Key.queueEnable q) 0

/-- Enable a queue (R244): empty, its counters at 0; a flush that waited takes effect (R240), and readers that stalled on it go on. -/
def State.enableQueue (s : State) (q : Nat) : State :=
  let s1 := ((s.setObj (Key.at Key.lostPackets q) 0).setObj (Key.at Key.flushedPackets q) 0).setObj (Key.at Key.rewoundPackets q) 0
  let s2 := s1.setQueue q { stalled := (s.queue q).stalled, flushAsked := (s.queue q).flushAsked, reference := s.time }
  ((s2.setObj (Key.at Key.queueEnable q) 1).packetBoundary q).serveReaders q

/-- A write of QueueEnable (R243 to R245). -/
def State.writeQueueEnable (q : Nat) (s : State) (_ : Caller) (v : Nat) : State × Nat :=
  let on := s.obj (Key.at Key.queueEnable q) == 1
  if v = 0 then (if on then s.disableQueue q else s, stOk)
  else if on then (s, stOk)
  else if !s.queueFits q then (s, stRefused)
  else (s.enableQueue q, stOk)

/-- QUEUE_ENABLE: a write of 1 to QueueEnable (R244). -/
def execQueueEnable (r : Req) (queue : Fin 32) (s : State) : Host.Outcome State Fault Refusal :=
  .next (s.runScalar r (Key.at Key.queueEnable queue.val) rkOperator [1] (State.writeQueueEnable queue.val))

/-- QUEUE_DISABLE: a write of 0 to QueueEnable (R245). -/
def execQueueDisable (r : Req) (queue : Fin 32) (s : State) : Host.Outcome State Fault Refusal :=
  .next (s.runScalar r (Key.at Key.queueEnable queue.val) rkOperator [0] (State.writeQueueEnable queue.val))

/-- QUEUE_FLUSH_EFFECT: at a packet boundary of the producer, the flush that was asked takes effect (R240). -/
def execQueueFlushEffect (queue : Fin 32) (s : State) : Host.Outcome State Fault Refusal := .next (s.packetBoundary queue.val)

/-- Is a queue's stale-tail notice due: it holds a visible unclaimed packet, and StaleTailNs have passed since the later of the last
claim, or the enable, and that packet's commit (R51, R241). -/
def State.staleDue (s : State) (q : Nat) : Bool :=
  let r := s.queue q
  r.oldest.elim false (fun p => decide (max r.reference p.commitStamp + s.obj (Key.at Key.staleTailNs q) ≤ s.time))

/-- STALE_TAIL_NOTICE: a queue raises its stale line, once until the next claim (R229, R241). -/
def execStaleTailNotice (queue : Fin 32) (s : State) : Host.Outcome State Fault Refusal :=
  let q := queue.val
  if !s.staleDue q || (s.queue q).noticeFired || s.obj (Key.at Key.queueEnable q) == 0 then .next s
  else .next ((s.modQueue q (fun r => { r with noticeFired := true })).pulse (s.queueCluster q) (129 + 2 * q))

end Sys2Proof.Machine
end

