-- ==== Sys2Proof/Machine/Matrix.lean ====
section
/-! DEFINITION. The matrix engine: MMA, ACC_ZERO and ACC_MOVE (R157 to R169). -/

namespace Sys2Proof.Machine

/-- One multiply-add of a cell: the product of two bf16 operands, rounded only where it leaves the FP32 range, added to
the sum with one rounding (R61). -/
def cellMac (a b acc : Word) : Num :=
  let p := f32Mul a b
  let r := f32Add p.bits acc
  { bits := r.bits, fl := opConds [a, b, acc] r.bits ||| (p.fl &&& condOvf) }

/-- A cell's sum over pairs of operands, in ascending order of reduction index (R61). -/
def cellSum (acc : Word) (m : Met) : List (Word × Word) → Word × Met
  | [] => (acc, m)
  | (a, b) :: rest =>
    let r := cellMac a b acc
    cellSum r.bits (m.add r) rest

/-- An operand element as the cells take it: FP32 narrowed to bf16, a narrow code expanded, bf16 as it stands (R166). -/
def cellOperand (f : Fmt) (n : Num) : Num :=
  match f with
  | .fp32 =>
    let h := toBf16 n.bits
    { bits := ofBf16 h.bits.toNat, fl := h.fl ||| condIf (isNan32 n.bits) condNanIn ||| condIf (isInf32 n.bits) condInfIn }
  | _ => n

/-- ENGINE of a descriptor: the engines named, and whether either serves (R164, R168). -/
def matEngines (e : Nat) : List Engine × Bool :=
  match e with
  | 0 => ([.m0], false)
  | 1 => ([.m1], false)
  | 2 => ([.m0, .m1], true)
  | _ => ([.m0, .m1], false)

/-- Element of a matrix operand by logical row and column, from its stored rows (R165). -/
def matElem (t : Bool) (rows : List (List Num)) (r c : Nat) : Num := if t then elemAt rows c r else elemAt rows r c

/-- An operand's stored rows as the cells take them: `rows` stored rows of `n` elements. -/
def State.loadCells (s : State) (i : Nat) (o : Opnd) (rows n : Nat) : List (List Num) :=
  (s.loadRows i o rows n).map (·.map (cellOperand o.format))

/-- The engine of output tile t: with ENGINE 0b11, engine 0 computes the even-numbered tiles and engine 1 the odd-numbered (R168). -/
def tileEngine (engine t : Nat) : Option Engine := if engine = 3 then some (if t % 2 = 0 then .m0 else .m1) else none

/-- One cell over the chunk of 512 reduction indices that starts at `lo`, from what the cell holds: its sum and what it met; an index
without operands is skipped (R61, R157, R422). -/
def cellChunk (start : Word) (ps : List (Option (Num × Num))) (lo : Nat) : Word × Met :=
  let here := ((ps.drop lo).take 512).filterMap id
  let r := cellSum start {} (here.map (fun e => (e.1.bits, e.2.bits)))
  (r.1, here.foldl (fun m e => (m.add e.1).add e.2) r.2)

/-- What a cell of a block holds before the command, the block's first tile at `tile` and `cols` tiles to a row (R108, R167). -/
def State.oldCell (s : State) (i tile cols r c : Nat) : Word :=
  BitVec.ofNat 32 (leNat (s.readAcc i (4096 * (tile + r / 32 * cols + c / 32) + 4 * (32 * (r % 32) + c % 32)) 4))

/-- The tile steps of a block of m × n cells over k reduction indices (R157 to R159, R167): tile by tile in ascending order, each
tile's chunks in ascending order. A step loads its tile, or begins its cells at `start` with the tile's first chunk, and stores it;
`at_` is a cell's operands. -/
def State.tileSteps (s : State) (i engine tile m n k : Nat) (start : Nat → Nat → Word)
    (at_ : Nat → Nat → List (Option (Num × Num))) : List Step :=
  let cols := ceilDiv n 32
  (List.range (ceilDiv m 32 * cols)).flatMap (fun t => (List.range (ceilDiv k 512)).map (fun q =>
    let from_ := fun r c => if q = 0 then start r c else s.oldCell i tile cols r c
    let r0 := t / cols * 32
    let c0 := t % cols * 32
    let parts := (List.range (min 32 (m - r0))).map (fun r =>
      let cells := (List.range (min 32 (n - c0))).map (fun c => cellChunk (from_ (r0 + r) (c0 + c)) (at_ (r0 + r) (c0 + c)) (512 * q))
      let met := (cells.map (·.2)).foldl Met.join {}
      ({ writes := [(true, 4096 * (tile + t) + 128 * r, packCodes .fp32 (cells.map (·.1.toNat)))], fl := met.fl, sat := met.sat } : Step))
    parts.foldl Step.join { on := tileEngine engine t }))

/-- Is an MMA operand's form right: scratchpad, permitted format, words, multiples of 64 B (R166). FP32 weights are accepted (DESIGN
CHOICE, log entry 120). -/
def Opnd.mmaOk (o : Opnd) : Bool :=
  !o.inAcc && o.fmtIn [.fp32, .bf16, .int8, .e4m3, .int4] && o.wordsOk && o.off % 64 == 0 && o.stride % 64 == 0

/-- The work of an MMA (R158 to R168). -/
def State.mmaWork (s : State) (i d : Nat) : Work :=
  let x := s.slot i
  let a := x.opnd (field d 31 0) (field d 63 32) (field d 95 64)
  let b := x.opnd (field d 127 96) (field d 159 128) (field d 191 160)
  let m := field d 200 192
  let n := field d 209 201
  let k := field d 240 224
  let tile := field d 262 256
  let mode := field d 264 263
  let ranges := [(31, 0), (63, 32), (95, 64), (127, 96), (159, 128), (191, 160), (200, 192), (209, 201), (240, 224), (262, 256),
    (264, 263), (266, 265)]
  let (ar, an) := if a.trans then (k, m) else (m, k)
  let (br, bn) := if b.trans then (n, k) else (k, n)
  let tiles := ceilDiv m 32 * ceilDiv n 32
  match firstFault [
      (!onlyBits d ranges || !a.mmaOk || !b.mmaOk || decide (1 < mode) || decide (m = 0) || decide (256 < m) || decide (n = 0)
        || decide (256 < n) || decide (k = 0) || decide (65536 < k), badDesc),
      (decide (x.accTiles < tile + tiles), (fcAddress, 4096 * (tile + tiles - 1)))] with
  | some f => { s, err := some f }
  | none =>
    match (s.sourceFault i a ar an).or (s.sourceFault i b br bn) with
    | some f => { s, err := some f }
    | none =>
      let ra := s.loadCells i a ar an
      let rb := s.loadCells i b br bn
      let pair := fun r c => (List.range k).map (fun q => some (matElem a.trans ra r q, matElem b.trans rb q c))
      match (if mode = 1 then s.spacePoison i true (4096 * tile) (4096 * tiles) else none) with
      | some f => { s, err := some f }
      | none =>
        let start := fun r c => if mode = 1 then s.oldCell i tile (ceilDiv n 32) r c else 0
        { s, todo := s.tileSteps i (field d 266 265) tile m n k start pair }

/-- MMA: matrix multiply-accumulate into accumulator tiles (R158 to R168). -/
def execMma (u : SlotRef) (w : CmdWord) (s : State) : Host.Outcome State Fault Refusal :=
  .next (s.issueEngine u w 0x20 .d64 (fun d => matEngines (field d 266 265)) State.mmaWork)

/-- Engine of an inline accumulator command: bit 24 of its ARGS (R169). -/
def accEngine (d : Nat) : List Engine × Bool := ([if bit d 24 then .m1 else .m0], false)

/-- The work of ACC_ZERO: each tile is a step (R169). -/
def State.accZeroWork (s : State) (i d : Nat) : Work :=
  let base := field d 6 0
  let n := field d 14 8 + 1
  if !onlyBits d [(6, 0), (14, 8), (24, 24)] then { s, err := some badDesc }
  else if (s.slot i).accTiles < base + n then { s, err := some (fcAddress, 4096 * (base + n - 1)) }
  else { s, todo := (List.range n).map (fun t => { writes := [(true, 4096 * (base + t), List.replicate 4096 0)] }) }

/-- ACC_ZERO: clear tiles BASE to BASE + COUNT_M1 to +0 (R169). -/
def execAccZero (u : SlotRef) (w : CmdWord) (s : State) : Host.Outcome State Fault Refusal :=
  .next (s.issueEngine u w 0x21 .inline accEngine State.accZeroWork)

/-- The work of ACC_MOVE: each tile is a step, and every tile is as it was before the command (R169). -/
def State.accMoveWork (s : State) (i d : Nat) : Work :=
  let src := field d 6 0
  let n := field d 14 8 + 1
  let dst := field d 22 16
  if !onlyBits d [(6, 0), (14, 8), (22, 16), (24, 24)] then { s, err := some badDesc }
  else if (s.slot i).accTiles < src + n then { s, err := some (fcAddress, 4096 * (src + n - 1)) }
  else if (s.slot i).accTiles < dst + n then { s, err := some (fcAddress, 4096 * (dst + n - 1)) }
  else match s.spacePoison i true (4096 * src) (4096 * n) with
    | some f => { s, err := some f }
    | none => { s, todo := (List.range n).map (fun t => { writes := [(true, 4096 * (dst + t), s.readAcc i (4096 * (src + t)) 4096)] }) }

/-- ACC_MOVE: copy COUNT_M1 + 1 tiles from SRC to DST, overlaps as through a temporary copy (R169). -/
def execAccMove (u : SlotRef) (w : CmdWord) (s : State) : Host.Outcome State Fault Refusal :=
  .next (s.issueEngine u w 0x22 .inline accEngine State.accMoveWork)

end Sys2Proof.Machine
end

