-- ==== Sys2Proof/Machine/Tier.lean ====
section
/-! DEFINITION. The memory tier unit and the flash controller: extents, pins, migrations, state sets, checkpoints and the
flash budget (R247 to R312). -/

namespace Sys2Proof.Machine

/-- A page with no migration in progress that holds a retired frame moves whole to other frames of its class (R674, R680); a tier A
page's own frames of tier B hold no data. -/
def State.relocate (s : State) (id : Nat) : State :=
  match s.page id with
  | none => s
  | some g =>
    if g.tier == .c || g.migration.isSome || s.framesClear g.frameB g.tiles then s
    else match s.freeFrameB g.codeClass g.tiles with
      | none => s
      | some f => if g.tier = .a then s.modPage id (fun g => { g with frameB := f }) else s.startMigration id .b 0 f

/-! ### Extents (R249, R250) -/

/-- An extent record: its pitch and the extent, with the nonce to assign (R249, R704). -/
def extentOf (v : List Byte) (nonce : Nat) : Nat × Extent :=
  let d := leNat v
  (field d 4 0, {
    number := field d 13 8, base := field d 111 64, length := (field d 186 160 + 1) * 2097152,
    stateSet := field d 255 224, discard := bit d 211, excl := field d 210 208, pin := field d 207 206,
    initTier := field d 205 204, codeClass := field d 203 202, maxLog2 := field d 201 198, minLog2 := field d 197 194, nonce })

/-- The record of an extent (ExtentRecord). -/
def extentRecord (p : Nat) (x : Extent) : List Byte :=
  natLe 32 (p + x.number * 2 ^ 8 + x.base * 2 ^ 64 + (x.length / 2097152 - 1) * 2 ^ 160 + x.minLog2 * 2 ^ 194
    + x.maxLog2 * 2 ^ 198 + x.codeClass * 2 ^ 202 + x.initTier * 2 ^ 204 + x.pin * 2 ^ 206 + x.excl * 2 ^ 208
    + flag x.discard * 2 ^ 211 + x.stateSet * 2 ^ 224)

/-- Do two extents overlap. -/
def Extent.overlaps (x y : Extent) : Bool := decide (x.base < y.base + y.length) && decide (y.base < x.base + x.length)

/-- Does a pin name an excluded tier. -/
def pinExcluded (pin excl : Nat) : Bool := pin != 0 && bit excl (pin - 1)

/-- A set without extents recorded, and mapped nowhere yet, becomes attached to the pitch that defines its first extent (R304, R310). -/
def StateSet.gain (t : StateSet) (p : Nat) : StateSet :=
  if t.attached.isNone && t.extents.isEmpty then { t with attached := some p } else t

/-- A pitch gains an extent; its nonce is used up (R249, R704). -/
def State.addExtent (s : State) (p : Nat) (x : Extent) : State :=
  { s.setPitch p { s.pitch p with extents := (s.pitch p).extents ++ [x] } with
    sec := { s.sec with extentNonce := s.sec.extentNonce + 1, storeDirty := true }
    tier := { s.tier with sets := s.tier.sets.map (fun t => if t.id = x.stateSet then t.gain p else t) } }

/-- ExtentDefine (R249, R250). -/
def State.doExtentDefine (s : State) (_ : Caller) (v : List Byte) : State × Nat :=
  let d := leNat v
  let (p, x) := extentOf v s.sec.extentNonce
  let r := s.pitch p
  if !onlyBits d [(4, 0), (13, 8), (111, 64), (186, 160), (211, 194), (255, 224)] || 2 ≤ x.initTier || x.codeClass = 3 then
    (s, stRange)
  else if x.maxLog2 < x.minLog2 || 9 < x.maxLog2 || x.excl = 7 || pinExcluded x.pin x.excl || bit x.excl x.initTier
      || x.base % 2097152 != 0 || r.extents.any x.overlaps || 2 ^ 48 < x.base + x.length
      || (x.stateSet != 0 && !s.tier.sets.any (fun t => t.id == x.stateSet && t.tenant == tenantOfTag r.tenantTag))
      || r.st == .free || r.extents.any (·.number == x.number) then (s, stRefused)
  else (s.addExtent p x, stOk)

def execExtentDefine (r : Req) (v : List Byte) (s : State) : Host.Outcome State Fault Refusal :=
  .next (s.runCmd r Key.extentDefine rkOperator v State.doExtentDefine)

/-- A pitch loses an extent and its pages (R254). -/
def State.removeExtent (s : State) (p : Nat) (x : Extent) : State :=
  (s.freePages (fun g => g.owner == some p && x.holds g.addr)).modPitch p (fun r => { r with
    extents := r.extents.filter (·.number != x.number) })

/-- ExtentRemove: the extent and its pages (R254). -/
def State.doExtentRemove (s : State) (_ : Caller) (v : List Byte) : State × Nat :=
  let d := leNat v
  let p := field d 12 8
  let e := field d 5 0
  if !onlyBits d [(12, 8), (5, 0)] then (s, stRange)
  else match (s.pitch p).extents.find? (·.number == e) with
    | none => (s, stRefused)
    | some x => (s.removeExtent p x, stOk)

def execExtentRemove (r : Req) (v : List Byte) (s : State) : Host.Outcome State Fault Refusal :=
  .next (s.runCmd r Key.extentRemove rkOperator v State.doExtentRemove)

/-- Has a page a tile in an address range of a pitch. -/
def Page.inRange (g : Page) (p a n : Nat) : Bool :=
  g.owner == some p && decide (g.addr < a + n) && decide (a < g.addr + g.size)

/-- Abandon the migration that new pins and exclusions contradict; a promotion from tier C stays (R281). -/
def Page.repin (g : Page) (pin excl : Nat) : Page :=
  let bad (m : Migration) : Bool := g.tier != .c && ((match m.dest with | .a => bit excl 0 | .b => bit excl 1 | .c => bit excl 2)
    || (pin != 0 && (match m.dest with | .a => pin != 1 | .b => pin != 2 | .c => pin != 3)))
  { g with pin, excl, migration := g.migration.filter (fun m => !bad m) }

/-- The pages of a range take a pin and exclusions, and each begins the move they require (R271, R281). -/
def State.pinPages (s : State) (p a n pin excl : Nat) : State :=
  let hits := s.tier.pages.filter (·.inRange p a n)
  let s1 := s.countAborts (fun g => g.inRange p a n && g.migration.isSome && (g.repin pin excl).migration.isNone)
  let s2 : State := { s1 with tier := { s1.tier with pages := s1.tier.pages.map (fun g =>
    if g.inRange p a n then g.repin pin excl else g) } }
  (hits.map (·.id)).foldl State.enforcePin s2

/-- Do pages of a pitch find frames in tier A together: each takes its own before the next is placed (R272, R871). -/
def State.findFrames (p : Nat) : List Page → State → Bool
  | [], _ => true
  | g :: gs, s =>
    match s.placeA p g.size .firmware with
    | none => false
    | some (n, f) => State.findFrames p gs (s.modPage g.id (fun g => { g with tier := .a, home := n, frameA := f, migration := none }))

/-- PagePin (R271, R272, R281). -/
def State.doPagePin (s : State) (_ : Caller) (v : List Byte) : State × Nat :=
  let d := leNat v
  let p := field d 4 0
  let a := field d 111 64
  let n := field d 175 128
  let pin := field d 177 176
  let excl := field d 180 178
  let hits := s.tier.pages.filter (·.inRange p a n)
  let toA := hits.filter (fun g => g.tier != .a && pin == 1)
  let bytes := toA.foldl (fun k g => k + g.size) 0
  if !onlyBits d [(4, 0), (111, 64), (175, 128), (177, 176), (180, 178)] || n % 4096 != 0 then (s, stRange)
  else if pinExcluded pin excl || excl = 7 then (s, stRefused)
  else if s.obj (Key.at Key.tierALimitBytes p) < s.tierBytes p .a + bytes && !toA.isEmpty then (s, stRefused)
  else if !s.findFrames p toA then (s, stRefused)
  else (s.pinPages p a n pin excl, stOk)

def execPagePin (r : Req) (v : List Byte) (s : State) : Host.Outcome State Fault Refusal :=
  .next (s.runCmd r Key.pagePin rkOperator v State.doPagePin)

/-- PageFree: every page with a tile in the range (R254). -/
def State.doPageFree (s : State) (_ : Caller) (v : List Byte) : State × Nat :=
  let d := leNat v
  let p := field d 4 0
  let a := field d 111 64
  let n := field d 175 128
  if !onlyBits d [(4, 0), (111, 64), (175, 128)] || n % 4096 != 0 then (s, stRange)
  else (s.freePages (·.inRange p a n), stOk)

def execPageFree (r : Req) (v : List Byte) (s : State) : Host.Outcome State Fault Refusal :=
  .next (s.runCmd r Key.pageFree rkOperator v State.doPageFree)

/-! ### Heat and migration (R266 to R281) -/

/-- The heat of the pages of tier A, or of tiers B and C, halves, and their aborted migrations become eligible (R266, R270). -/
def State.halveHeat (s : State) (bc : Bool) : State :=
  { s with tier := { s.tier with pages := s.tier.pages.map (fun g =>
    if (g.tier == .a) != bc then { g with heat := g.heat / 2, aborted := false } else g) } }

/-- HEAT_HALVING: at a multiple of its period, the heat of pages in tier A, or in tiers B and C, halves; aborted pages become eligible; promotions that wait and are
still due go on; cold pages leave tier A while its free space is low, and tier B while its is (R266 to R268, R270, R276). -/
def execHeatHalving (bc : Bool) (s : State) : Host.Outcome State Fault Refusal :=
  let timer := if bc then tmHeatBC else tmHeatA
  if !s.windowBegun timer (1000 * s.obj (if bc then Key.heatPeriodBCUs else Key.heatPeriodAUs)) then .next s
  else
    let s1 := s.mark timer
    .next (if bc then (s1.halveHeat true).demoteB.resumeA else ((s1.halveHeat false).enforceAll.drainA).resumeA)

/-- Read requests to a page that have not returned (R278), and whether a write to it has not committed (R277). -/
def State.readsOut (s : State) (g : Page) : List Nat :=
  (s.tier.tags.filter (fun e => !e.write && !e.fabric && e.slot != noSlot && g.covers e.pitch e.addr)).map (·.tag)
def State.writesOut (s : State) (g : Page) : Bool :=
  s.tier.tags.any (fun e => e.write && !e.fabric && e.slot != noSlot && g.covers e.pitch e.addr)

/-- The source frames of a switched migration: released at once, or with the last read issued before the switch (R278). -/
def State.release (s : State) (g : Page) (cluster : Option Nat) (frame : Nat) : State :=
  if (s.readsOut g).isEmpty then s
  else { s with tier := { s.tier with
    leaving := s.tier.leaving ++ [{ cluster, frame, size := g.size, cls := g.codeClass, tags := s.readsOut g }] } }

/-- The page's entry is rewritten (R277): its tier and frames, and the key of a move within tier B. -/
def Page.switched (g : Page) (m : Migration) : Page :=
  match m.dest with
  | .a => { g with tier := .a, migration := none, home := m.cluster, frameA := m.frame }
  | .b =>
    if g.tier = .a then { g with tier := .b, migration := none }
    else (m.rekey.elim g g.underKey |> fun h => { h with migration := none, frameB := m.frame })
  | .c => (m.rekey.elim g g.underKey |> fun h => { h with tier := .c, migration := none, cleanCopy := [], dirty := [], frameB := 0 })

/-- The switch (R277, R278): the entry names the destination, the source frames are released, and the migration's tag is free. -/
def State.switchPage (s : State) (g : Page) (m : Migration) : State :=
  let s1 := match m.dest, g.tier with
    | .a, _ => s
    | .c, .c => s
    | .b, .a => s.release g (some g.home) g.frameA
    | _, _ => s.release g none g.frameB
  let s2 := (s1.modPage g.id (fun g => g.switched m)).freeTag m.tag
  if m.dest = .a then s2.bump Key.promotions
  else if m.dest = g.tier then s2
  else s2.bump Key.demotions

/-- One step of a migration between tiers A and B, or within tier B (R274, R276, R277): the next tile in ascending order is copied;
then the tiles marked by writes, in up to three passes; then, once every write issued before has committed, the entry is switched. A
page with marked tiles after the third pass ends its migration as an abort. -/
def State.stepMove (s : State) (g : Page) (m : Migration) : State :=
  match (List.range g.tiles).find? (fun t => !m.done.contains t) with
  | some t => s.modPage g.id (fun g => { g with migration := some { m with done := m.done ++ [t] } })
  | none =>
    if m.marked.isEmpty then (if s.writesOut g then s else s.switchPage g m)
    else if 3 ≤ m.passes then (s.abandon g.id).modPage g.id (fun g => { g with aborted := true })
    else s.modPage g.id (fun g => { g with migration := some { m with marked := [], passes := m.passes + 1 } })

/-- One step of a demotion to tier C (R274, R279, R297): the next tile without a valid clean copy is written, in ascending order, the
first with the journal record that names them all; once none is left, the companion block of a KV page follows and the entry is
switched (R327). It waits while the flash balance does not permit it. -/
def State.stepDown (s : State) (g : Page) (m : Migration) : State :=
  match g.uncopied with
  | t :: ts =>
    if !s.mayDemote then s
    else
      let s1 := if m.done.isEmpty then (s.placeTiles g (t :: ts)).chargeRecord else s
      (s1.programTile g t).modPage g.id (fun g => { g with
        cleanCopy := g.cleanCopy ++ [t], dirty := g.dirty.filter (· != t), migration := some { m with done := m.done ++ [t] } })
  | [] =>
    if s.writesOut g then s
    else (s.programTiles g ((List.range (s.companionTiles g)).map (· + g.tiles))).switchPage g m

/-- One step of the re-key of a page of tier C (R717): the next tile, or a KV page's companion block, is programmed anew in the new
entry's stream; then the page's KEY_INDEX is switched. A new key starts no journal record. -/
def State.stepRekey (s : State) (g : Page) (m : Migration) (k : Nat × Nat) : State :=
  let h := g.underKey k
  match (List.range (g.tiles + s.companionTiles g)).find? (fun t => !m.done.contains t) with
  | some t =>
    let s1 := if m.done.isEmpty then s.placeTiles h (List.range (g.tiles + s.companionTiles g)) else s
    (s1.programTile h t).modPage g.id (fun g => { g with migration := some { m with done := m.done ++ [t] } })
  | none => s.switchPage g m

/-- One step of a page's migration; a promotion from tier C goes on by the tiles that arrive (R280). A page whose key has expired ends
its migration as an abort. -/
def State.stepMigration (s : State) (page : Nat) : State :=
  match s.page page with
  | none => s
  | some g =>
    match g.migration with
    | none => s
    | some m =>
      if !s.keyLive g then s.abandon page
      else if g.tier = .c then (if m.dest = .c then m.rekey.elim s (s.stepRekey g m) else s)
      else if m.dest = .c then s.stepDown g m
      else s.stepMove g m

/-- The sweep of the re-keys in progress (R717): pages of tiers B and C under an old entry begin their move to its new one, within their
tier, in the order of the model's page numbers. -/
def State.sweep (s : State) : State :=
  (s.sec.keys.filter (fun e => e.2.st == .rekeyOld && !e.2.due && (s.tenant e.2.tenant).st == .active)).foldl (fun (t : State) e =>
    (t.tier.pages.filter (fun g => g.keyIndex == e.1 && g.tier != .a && g.migration.isNone)).foldl (fun (t : State) g =>
      if g.tier = .c then t.startMigration g.id .c 0 0 (some (e.2.pair, g.epoch))
      else match t.freeFrameB g.codeClass g.tiles with
        | none => t
        | some f => t.startMigration g.id .b 0 f (some (e.2.pair, g.epoch))) t) s

/-- After a step of a page's migration: the page moves on as its pin, its exclusions or a retired frame require (R281, R680), tier B
demotes on (R270), promotions that wait for tier A frames go on (R267), and so does the sweep of a re-key (R717). -/
def State.afterStep (s : State) (page : Nat) : State := (((s.enforcePin page).relocate page).demoteB).resumeA.sweep

/-- MIGRATION_SWITCH: a page's migration goes on by one step: a tile, a pass over marked tiles, or its switch (R274 to R279). -/
def execMigrationSwitch (page : Nat) (s : State) : Host.Outcome State Fault Refusal := .next ((s.stepMigration page).afterStep page)

/-- PROMOTION_TILE_ARRIVE: the next tile of a promotion from tier C becomes authoritative in tier B, an unreadable one as poison; the
last makes the page a tier B page, which then moves as its pin, its exclusions or a retired frame require (R274, R280, R281, R293). -/
def execPromotionTileArrive (page tile : Nat) (readable : Bool) (s : State) : Host.Outcome State Fault Refusal :=
  match s.page page with
  | none => .next s
  | some g =>
    if g.nextTile ≠ some tile then .next s
    else
      let h := g.arrive tile readable
      if h = g then .next s
      else
        let s1 := (s.modPage page (fun _ => h)).flashRetries g tile 2 readable none
        .next (if h.tier = .b then ((s1.freeTag (g.migration.elim 0 (·.tag))).bump Key.promotions).afterStep page else s1)

/-! ### State sets and checkpoints (R304 to R312, R376, R377) -/

/-- Pages of a state set. -/
def State.setPages (s : State) (id : Nat) : List Page := s.tier.pages.filter (·.stateSet == id)

/-- The extents, layouts and sequences of a set: those that no pitch maps, and those that pitches map (R304, R310). -/
def State.setParts (s : State) (t : StateSet) : List Extent × List KvLayout × List KvSeq :=
  let ps := s.pitches.map (fun e => e.2.setParts t.id)
  (t.extents ++ ps.flatMap (·.1), t.layouts ++ ps.flatMap (·.2.1), t.seqs ++ ps.flatMap (·.2.2))

def State.modSet (s : State) (id : Nat) (f : StateSet → StateSet) : State :=
  { s with tier := { s.tier with sets := s.tier.sets.map (fun t => if t.id = id then f t else t) } }

/-- Start a checkpoint: what it will hold is fixed line by line at its commit (R305, R306); LEN_L is as now (R376). -/
def State.startCheckpoint (s : State) (id : Nat) (commanded : Bool) : State :=
  match s.tier.sets.find? (·.id == id) with
  | none => s
  | some t =>
    let (_, _, qs) := s.setParts t
    let s1 := s.modSet id (fun t => { t with
      inProgress := true, commanded, taken := [], pendingPages := s.setPages id, pendingSeqs := qs.map (fun q => { q with assigned := [] }) })
    { s1 with tier := { s1.tier with pages := s1.tier.pages.map (fun g => if g.stateSet = id then { g with dirty := [] } else g) } }

/-- PERIODIC_CHECKPOINT: a set's checkpoint starts at a multiple of its interval, or is skipped and counted while one is in
progress or the balance is at its floor (R297, R307). -/
def execPeriodicCheckpoint (set : Nat) (s : State) : Host.Outcome State Fault Refusal :=
  match s.tier.sets.find? (·.id == set) with
  | none => .next s
  | some t =>
    let n := s.time / (1000000000 * t.interval)
    if !bit t.policy 0 || decide (n < t.next) then .next s
    else
      let s1 := s.modSet set (fun t => { t with next := n + 1 })
      if t.inProgress || s.tier.balance ≤ -(s.obj Key.flashDailyBudget : Int) then .next (s1.bump Key.checkpointsSkipped)
      else .next (s1.startCheckpoint set false)

/-- The committed image of a page: in tier C, heat 0, unmapped (R308). -/
def Page.image (g : Page) (data : Mem) (poison : Tab Nat) : Page :=
  { g with owner := none, tier := .c, heat := 0, migration := none, wantsA := none, data, poison, dirty := [], cleanCopy := [], handle := none }

/-- The images that a checkpoint of a set commits, and the counter of free values after them: of each page whose key lives, its lines
as they were taken (R306); of a state page what it held at the start or what it holds now, whole (R404). -/
def State.checkpointImages (s : State) (t : StateSet) : List Page × Nat :=
  t.pendingPages.foldl (fun (acc : List Page × Nat) old =>
    if !s.keyLive old then (acc.1 ++ (t.committedPages.filter (·.id == old.id)), acc.2)
    else if old.handle.isSome then
      let pick := if Config.freeBool acc.2 then (s.page old.id).getD old else old
      (acc.1 ++ [old.image pick.data pick.poison], acc.2 + 1)
    else (acc.1 ++ [old.image old.data old.poison], acc.2)) ([], s.freeCtr)

/-- Tiles that a checkpoint of a set writes: the dirty ones of its pages and the companion blocks of those that are KV pages (R305,
R376). -/
def State.pageTiles (s : State) (g : Page) : List Nat :=
  if g.dirty.isEmpty then [] else g.dirty ++ (List.range (s.companionTiles g)).map (· + g.tiles)
def State.checkpointTiles (s : State) (t : StateSet) : Nat := t.pendingPages.foldl (fun n g => n + (s.pageTiles g).length) 0

/-- A checkpoint's tiles are programmed in their pages' streams, under a tag of the tier unit, then the commit record (R224, R292, R305). -/
def State.programCheckpoint (s : State) (t : StateSet) : State :=
  (((t.pendingPages.filter s.keyLive).foldl (fun (u : State) g =>
    u.programTiles g (u.pageTiles g)) s).passTag .tierUnit).chargeRecord

/-- A checkpoint of a set takes effect whole (R305, R308, R376). -/
def State.commitCheckpoint (s : State) (t : StateSet) : State :=
  let (xs, ls, _) := s.setParts t
  let (imgs, ctr) := s.checkpointImages t
  let s0 := s.programCheckpoint t
  let s1 := s0.modSet t.id (fun t => { t with
    inProgress := false, commanded := false, taken := [], pendingPages := [], pendingSeqs := [], lastCommit := s.time, commitSeq := s0.tier.flashSeq,
    committedPages := imgs, committedExtents := xs, committedLayouts := ls, committedSeqs := t.pendingSeqs })
  let clean := fun (g : Page) => (t.pendingPages.find? (·.id == g.id)).elim [] (fun o =>
    o.dirty.filter (fun k => !g.dirty.contains k))
  let s2 : State := { s1 with
    freeCtr := ctr
    tier := { s1.tier with pages := s1.tier.pages.map (fun g =>
      if g.stateSet = t.id && g.tier != .c then { g with cleanCopy := distinct (g.cleanCopy ++ clean g) } else g) } }
  s2.bump Key.checkpointsCommitted

/-- CHECKPOINT_COMMIT: the commit record is valid and the checkpoint takes effect whole (R305, R308, R376); it waits while tier C has no
room for its tiles (R259). -/
def execCheckpointCommit (set : Nat) (s : State) : Host.Outcome State Fault Refusal :=
  match s.tier.sets.find? (·.id == set) with
  | none => .next s
  | some t => if t.inProgress && decide (4096 * s.checkpointTiles t ≤ s.tierCFree) then .next (s.commitCheckpoint t) else .next s

/-- A state set is added (R304). -/
def State.addSet (s : State) (t : StateSet) : State := { s with tier := { s.tier with sets := s.tier.sets ++ [t] } }

/-- A state set's extents, layouts, sequences and pages become a pitch's (R310, R377). -/
def State.attachSet (s : State) (t : StateSet) (p : Nat) : State :=
  let r := s.pitch p
  let s1 := s.setPitch p { r with
    extents := r.extents ++ t.extents, layouts := r.layouts ++ t.layouts, seqs := r.seqs ++ t.seqs }
  let s2 := s1.modSet t.id (fun t => { t with attached := some p, extents := [], layouts := [], seqs := [] })
  { s2 with tier := { s2.tier with pages := s2.tier.pages.map (fun g => if g.stateSet = t.id then { g with owner := some p } else g) } }

/-- StateSetCreate (R304, R311). -/
def State.doStateSetCreate (s : State) (c : Caller) (v : List Byte) : State × Nat :=
  let d := leNat v
  let id := field d 31 0
  let tenant := field d 37 32
  let iv := field d 127 96
  if !c.reaches tenant then (s, stRole)
  else if !onlyBits d [(31, 0), (37, 32), (65, 64), (127, 96)] || id = 0 || iv < 10 || 86400 < iv then (s, stRange)
  else if s.tier.sets.any (·.id == id) || 4096 ≤ s.tier.sets.length then (s, stRefused)
  else (s.addSet { id, tenant, policy := field d 65 64, interval := iv, next := s.time / (1000000000 * iv) + 1 }, stOk)

def execStateSetCreate (r : Req) (v : List Byte) (s : State) : Host.Outcome State Fault Refusal :=
  .next (s.runCmd r Key.stateSetCreate rkTenant v State.doStateSetCreate)

/-- Delete a set: its pages and tier C tiles go with it, and the extents it holds leave their pitch (R311). -/
def State.deleteSet (s : State) (id : Nat) : State :=
  let s1 := (s.detachSet id).freePages (·.stateSet == id)
  { s1 with tier := { s1.tier with sets := s1.tier.sets.filter (·.id != id) } }

/-- StateSetDelete (R311, R312). -/
def State.doStateSetDelete (s : State) (c : Caller) (v : List Byte) : State × Nat :=
  match s.tier.sets.find? (·.id == leNat v) with
  | none => (s, stRefused)
  | some t =>
    if !c.reaches t.tenant then (s, stRole)
    else if t.inProgress then (s, stRefused)
    else (s.deleteSet t.id, stOk)

def execStateSetDelete (r : Req) (v : List Byte) (s : State) : Host.Outcome State Fault Refusal :=
  .next (s.runCmd r Key.stateSetDelete rkTenant v State.doStateSetDelete)

/-- StateSetAttach: all or nothing (R310, R312, R377). -/
def State.doStateSetAttach (s : State) (c : Caller) (v : List Byte) : State × Nat :=
  let d := leNat v
  let p := field d 36 32
  let r := s.pitch p
  if !onlyBits d [(31, 0), (36, 32)] then (s, stRange)
  else match s.tier.sets.find? (·.id == field d 31 0) with
    | none => (s, stRefused)
    | some t =>
      if !c.reaches t.tenant then (s, stRole)
      else if t.inProgress || t.attached.isSome || r.st == .free || tenantOfTag r.tenantTag != t.tenant
          || t.extents.any (fun x => r.extents.any x.overlaps) || t.extents.any (fun x => r.extents.any (·.number == x.number))
          || t.layouts.any (fun l => r.layouts.any (·.number == l.number)) then (s, stRefused)
      else (s.attachSet t p, stOk)

def execStateSetAttach (r : Req) (v : List Byte) (s : State) : Host.Outcome State Fault Refusal :=
  .next (s.runCmd r Key.stateSetAttach rkTenant v State.doStateSetAttach)

/-- CheckpointNow: start a commanded checkpoint, refused while one is in progress (R307, R312). -/
def State.doCheckpointNow (s : State) (c : Caller) (v : List Byte) : State × Nat :=
  match s.tier.sets.find? (·.id == leNat v) with
  | none => (s, stRefused)
  | some t =>
    if !c.reaches t.tenant then (s, stRole)
    else if t.inProgress then (s, stRefused)
    else (s.startCheckpoint t.id true, stInProgress)

def execCheckpointNow (r : Req) (v : List Byte) (s : State) : Host.Outcome State Fault Refusal :=
  .next (s.runCmd r Key.checkpointNow rkTenant v State.doCheckpointNow)

/-! ### Flash (R292 to R299, R676) -/

/-- Credit one budget day, stopping at three (R297, R299). -/
def State.creditDay (s : State) : State :=
  let b : Int := s.obj Key.flashDailyBudget
  { s with tier := { s.tier with balance := min (3 * b) (s.tier.balance + b), lastBudgetDay := s.tier.lastBudgetDay + 1 } }

/-- BUDGET_DAY_START: a day that has begun and was not yet credited is credited, while the MC runs with flash powered (R299), and demotions and pins that waited for
the balance go on (R297). -/
def execBudgetDayStart (s : State) : Host.Outcome State Fault Refusal :=
  if s.time / 86400000000000 ≤ s.tier.lastBudgetDay || !(s.power.st == .active || s.power.st == .doze)
      || s.errors.islandsDown.contains 59 then .next s
  else .next ((s.creditDay.setObj Key.flashBytesToday 0).demoteB.enforceAll)

/-- A flash block is retired, with the free value drawn that says how many tiles move (R297, R676). -/
def State.retireBlock (s : State) (loc tiles : Nat) : State :=
  let s1 := s.fresh.2
  let s2 : State := { s1 with tier := { s1.tier with retiredBlocks := s1.tier.retiredBlocks ++ [loc] } }
  (((s2.chargeTiles tiles).bump Key.flashGcBytes (4096 * tiles)).bump Key.flashBlocksRetired).logEvent
    { kind := 5, outcome := ocRetired, location := loc }

/-- FLASH_PROGRAM_FAIL: the block is retired, its valid tiles move elsewhere, and the retirement is logged (R676); how many
tiles move is open, and they are charged (R297). -/
def execFlashProgramFail (channel die plane block : Nat) (s : State) : Host.Outcome State Fault Refusal :=
  let loc := channel % 8 * 2 ^ 30 + die % 2 * 2 ^ 29 + plane % 4 * 2 ^ 27 + block % 8192 * 2 ^ 14
  if s.tier.retiredBlocks.contains loc then .next s
  else .next (s.retireBlock loc (Config.freeNat s.freeCtr % (Config.flashBlockBytes / 4096 + 1)))

/-- JOURNAL_REPLAY: the replay at boot completes and state requests are served (R295). -/
def execJournalReplay (durationMs : Nat) (s : State) : Host.Outcome State Fault Refusal :=
  if s.tier.journalReplayed then .next s
  else .next (({ s with tier := { s.tier with journalReplayed := true } }).setObj Key.lastRecoveryMs durationMs)

end Sys2Proof.Machine
end

