-- ==== Sys2Proof/Machine/KvOps.lean ====
section
/-! DEFINITION. The KV store: layouts, sequences, spans, pages, and the arithmetic its commands share (R313 to R348). -/

namespace Sys2Proof.Machine

/-! ### Layouts (R313, R314) -/

/-- The index layers of a layout (R313). -/
def KvLayout.indexCount (l : KvLayout) : Nat := l.get 66 64
def KvLayout.indexLayer (l : KvLayout) (i : Nat) : Nat := l.get (8 * i + 103) (8 * i + 96)

def State.layoutOf (s : State) (p n : Nat) : Option KvLayout := (s.pitch p).layouts.find? (·.number == n)

/-- KvLayoutDefine (R313, R315). -/
def State.doKvLayoutDefine (s : State) (_ : Caller) (v : List Byte) : State × Nat :=
  let l : KvLayout := { number := field (leNat v) 10 8, record := v }
  let p := l.get 4 0
  let r := s.pitch p
  let idx := (List.range l.indexCount).map l.indexLayer
  if !onlyBits (leNat v) [(175, 128), (127, 96), (66, 64), (63, 56), (51, 49), (48, 48), (47, 45), (44, 40), (39, 32), (21, 16),
      (10, 8), (4, 0)] || 4 < l.indexCount || l.get 63 56 == 0 || l.get 175 128 % 64 != 0 then (s, stRange)
  else if !([1, 2, 4, 8, 16, 32] : List Nat).contains l.heads || !([1, 3, 4] : List Nat).contains (l.get 51 49) || idx.any (fun i => decide (l.layers ≤ i))
      || (distinct idx).length != idx.length || r.st == .free || r.layouts.any (·.number == l.number)
      || r.layouts.any (fun k => k.get 21 16 == l.get 21 16) then (s, stRefused)
  else match r.extents.find? (·.number == l.get 21 16) with
    | none => (s, stRefused)
    | some x =>
      if 4096 * 2 ^ x.minLog2 < l.tokenBytes then (s, stRefused)
      else (s.setPitch p { r with layouts := r.layouts ++ [l] }, stOk)

def execKvLayoutDefine (r : Req) (v : List Byte) (s : State) : Host.Outcome State Fault Refusal :=
  .next (s.runCmd r Key.kvLayoutDefine rkOperator v State.doKvLayoutDefine)

/-- KvLayoutRemove: only a layout without sequences (R316). -/
def State.doKvLayoutRemove (s : State) (_ : Caller) (v : List Byte) : State × Nat :=
  let d := leNat v
  let p := field d 12 8
  let n := field d 2 0
  let r := s.pitch p
  if !onlyBits d [(12, 8), (2, 0)] then (s, stRange)
  else if r.seqs.any (·.layout == n) || !r.layouts.any (·.number == n) then (s, stRefused)
  else (s.setPitch p { r with layouts := r.layouts.filter (·.number != n) }, stOk)

def execKvLayoutRemove (r : Req) (v : List Byte) (s : State) : Host.Outcome State Fault Refusal :=
  .next (s.runCmd r Key.kvLayoutRemove rkOperator v State.doKvLayoutRemove)

/-! ### Sequences (R318 to R320) -/

/-- Sequences in the module (R318): of pitches and of detached state sets. -/
def State.kvSequences (s : State) : Nat :=
  s.pitches.foldl (fun n e => n + e.2.seqs.length) 0
    + s.tier.sets.foldl (fun n t => n + if t.attached.isNone then t.seqs.length else 0) 0

/-- A sequence of a pitch, in use; and one that commands may name: not being dropped (R319, R320). -/
def State.seqInUse (s : State) (p l n : Nat) : Option KvSeq :=
  (s.pitch p).seqs.find? (fun q => q.layout == l && q.number == n)
def State.seqOf (s : State) (p l n : Nat) : Option KvSeq := (s.seqInUse p l n).filter (!·.dropping)
def State.modSeq (s : State) (p l n : Nat) (f : KvSeq → KvSeq) : State :=
  s.modPitch p (fun r => { r with seqs := r.seqs.map (fun q => if q.layout = l ∧ q.number = n then f q else q) })

/-- Pitch, layout and sequence of the 8 B value of KvSeqCreate and KvSeqDrop; none where other bits are set (R9). -/
def seqNames (v : List Byte) : Option (Nat × Nat × Nat) :=
  let d := leNat v
  if onlyBits d [(4, 0), (10, 8), (31, 16)] then some (field d 4 0, field d 10 8, field d 31 16) else none

/-- KvSeqCreate (R318); a TENANT reaches its own pitches (R772). -/
def State.doKvSeqCreate (s : State) (c : Caller) (v : List Byte) : State × Nat :=
  match seqNames v with
  | none => (s, stRange)
  | some (p, l, n) =>
    if !c.reaches (tenantOfTag (s.pitch p).tenantTag) then (s, stRole)
    else if (s.layoutOf p l).isNone || (s.seqInUse p l n).isSome || 262144 ≤ s.kvSequences then (s, stRefused)
    else (s.modPitch p (fun r => { r with seqs := r.seqs ++ [{ layout := l, number := n }] }), stOk)

def execKvSeqCreate (r : Req) (v : List Byte) (s : State) : Host.Outcome State Fault Refusal :=
  .next (s.runCmd r Key.kvSeqCreate rkTenant v State.doKvSeqCreate)

/-- KvSeqDrop: commands issued after it fault (R319); once every command issued before it that names the sequence has completed, its
pages and sketches are freed and it is removed (R320). -/
def State.doKvSeqDrop (s : State) (c : Caller) (v : List Byte) : State × Nat :=
  match seqNames v with
  | none => (s, stRange)
  | some (p, l, n) =>
    if !c.reaches (tenantOfTag (s.pitch p).tenantTag) then (s, stRole)
    else if (s.seqOf p l n).isNone then (s, stRefused)
    else ((s.modSeq p l n (fun q => { q with dropping := true })).finishDrops p, stOk)

def execKvSeqDrop (r : Req) (v : List Byte) (s : State) : Host.Outcome State Fault Refusal :=
  .next (s.runCmd r Key.kvSeqDrop rkTenant v State.doKvSeqDrop)

/-! ### Spans and pages (R321 to R326) -/

/-- The next position to be assigned to a layer (R334). -/
def KvSeq.next (q : KvSeq) (layer : Nat) : Nat := max (tabGet q.assigned layer 0) (q.len layer)

/-- The highest position assigned to any layer (R339). -/
def KvSeq.top (q : KvSeq) (layers : Nat) : Nat := (List.range layers).foldl (fun m l => max m (q.next l)) 0

/-- Spans with their numbers. -/
def KvSeq.numbered (q : KvSeq) : List (Nat × KvSpan) := (List.range q.spans.length).zip q.spans

/-- First token of the lowest span that is not closed (R353): the end of the last span where all are. -/
def KvSeq.selPos (q : KvSeq) (layers : Nat) : Nat :=
  match q.spans.find? (fun sp => !q.closed layers sp) with
  | some sp => sp.first
  | none => q.spans.getLast?.elim 0 (·.stop)

/-- Page size of span k and the tokens it holds (R321). -/
def spanLog2 (x : Extent) (k : Nat) : Nat := min (x.minLog2 + k) x.maxLog2
def KvLayout.spanTokens (l : KvLayout) (x : Extent) (k : Nat) : Nat := 4096 * 2 ^ spanLog2 x k / l.tokenBytes

/-- The page of span k of a sequence for a layer, if it exists (R328, R373). -/
def State.spanPage (s : State) (p : Nat) (q : KvSeq) (k : Nat) (sp : KvSpan) (layer : Nat) : Option Page :=
  (tabFind sp.pages layer).bind (fun a => (s.pageAt p a).filter (fun g =>
    g.kv && g.addr == a && g.layout == q.layout && g.seq == q.number && g.span == k && g.layer == layer))

/-- Row of a token of a head in a page of T tokens (R325). -/
def kvRow (side heads tokens h t : Nat) : Nat := (side * heads + h) * tokens + t

/-- The lowest aligned block of an extent that overlaps no page (R322 leaves the choice of address open). -/
def State.freeKvBlock (s : State) (p : Nat) (x : Extent) (size : Nat) : Option Nat :=
  let used := (s.tier.pages.filter (fun g => g.owner == some p && x.holds g.addr)).map (fun g => (g.addr, g.size))
  let used := sortBy (·.1) used
  let a := used.foldl (fun a u => if u.1 < a + size ∧ a < u.1 + u.2 then ceilDiv (u.1 + u.2) size * size else a)
    (ceilDiv x.base size * size)
  if a + size ≤ x.base + x.length then some a else none

/-- Fix the end of a span at a position; one that lies above it is left empty there (R336, R339, R713). -/
def KvSpan.fixAt (sp : KvSpan) (pos : Nat) : KvSpan :=
  if sp.stop ≤ pos then sp else { sp with first := min sp.first pos, count := pos - min sp.first pos, fixed := true }
def KvSeq.fixEnd (q : KvSeq) (pos : Nat) : KvSeq := { q with spans := q.spans.map (·.fixAt pos) }

/-- The roll of a sequence at the first KVAPP after a day-key boundary (R339): the span that holds the next position above all that are
assigned ends at P, the highest position assigned with the `n` tokens this KVAPP brings to `layer`; `epoch` is the epoch of the
tenant's WRITE entry. -/
def KvSeq.roll (q : KvSeq) (layers layer n epoch : Nat) : KvSeq :=
  match q.spans.find? (fun sp => decide (q.top layers < sp.stop)) with
  | none => q
  | some sp =>
    if sp.fixed || epoch ≤ sp.epoch then q
    else q.fixEnd (max (q.top layers) (min (q.next layer + n) sp.stop))

/-- What appending leaves. -/
structure Append where
  s : State
  err : Option PitchFault := none
  stall : Option (Nat × Waits) := none
  met : Met := {}
  writes : List Nat := []
  deriving DecidableEq, Repr

/-- The span that holds a position, made at the end of the last one where none does (R321, R323). -/
def State.spanFor (s : State) (p : Nat) (l : KvLayout) (x : Extent) (q : KvSeq) (pos : Nat) : State × Nat × KvSpan :=
  match q.numbered.find? (fun e => decide (e.2.first ≤ pos) && decide (pos < e.2.stop)) with
  | some (k, sp) => (s, k, sp)
  | none =>
    let k := q.spans.length
    let (ki, ep) := s.newPageKey p x
    let sp : KvSpan := { first := q.spans.getLast?.elim 0 (·.stop), count := l.spanTokens x k, keyIndex := ki, epoch := ep }
    (s.modSeq p l.number q.number (fun q => { q with spans := q.spans ++ [sp] }), k, sp)

/-- The page of span k for a layer, allocated at the span's first token (R322) with the span's key (R340). -/
def State.pageForSpan (s : State) (p : Nat) (l : KvLayout) (x : Extent) (q : KvSeq) (k layer : Nat) (sp : KvSpan) (rq : Requester) :
    State × Option AllocStop :=
  match s.spanPage p q k sp layer with
  | some _ => (s, none)
  | none =>
    let size := 4096 * 2 ^ spanLog2 x k
    match s.freeKvBlock p x size with
    | none => (s, some (.fault (fcQuota, x.base)))
    | some a =>
      match s.allocPage p a (spanLog2 x k) rq (fun g => { g with
          kv := true, keyIndex := sp.keyIndex, epoch := sp.epoch, layout := l.number, seq := q.number, layer, span := k }) with
      | (s1, some e) => (s1, some e)
      | (s1, none) => (s1.modSeq p l.number q.number (fun q => { q with spans := (q.numbered.map (fun e =>
          if e.1 = k then { e.2 with pages := tabSet e.2.pages layer a } else e.2)) }), none)

/-- Write one row of a token: codes at R325's place, its scale in the companion block (R331). -/
def Append.row (m : Append) (p : Nat) (l : KvLayout) (addr tokens : Nat) (rq : Requester) (side h t : Nat) (xs : List Word) :
    Append :=
  if m.err.isSome || m.stall.isSome then m
  else
    let e := encodeRow l.fmt xs
    let row := kvRow side l.heads tokens h t
    let a := addr + row * l.rowBytes
    match m.s.writeState p a (packCodes l.fmt e.codes) rq with
    | (s1, some (.fault f)) => { m with s := s1, err := some f }
    | (s1, some (.stall b w)) => { m with s := s1, stall := some (b, w) }
    | (s1, none) =>
      let s2 := match s1.pageAt p a with
        | some g => s1.modPage g.id (fun g => { g with companion := memWrite g.companion (2 * row) (natLe 2 e.scale) })
        | none => s1
      { m with s := s2, met := m.met.join ⟨condIf (e.sat != 0) condSat, e.sat⟩,
               writes := distinct (m.writes ++ (requests (a / 4096 * 4096) 1).map (·.1)) }

/-- Append one token of a layer to a sequence: 2H rows, keys then values (R330, R331, R713). -/
def Append.token (m : Append) (p : Nat) (l : KvLayout) (x : Extent) (n layer : Nat) (rq : Requester) (rows : List (List Num)) :
    Append :=
  if m.err.isSome || m.stall.isSome then m
  else match m.s.seqOf p l.number n with
    | none => { m with err := some (fcAddress, n) }
    | some q =>
      let pos := q.next layer
      if 2 ^ 32 - 1 < pos + 1 then { m with err := some (fcAddress, pos) }
      else
        let (s1, k, sp) := m.s.spanFor p l x q pos
        let done := fun (t : State) => t.modSeq p l.number n (fun q => { q with assigned := tabSet q.assigned layer (pos + 1) })
        if !s1.entryLive sp.keyIndex sp.epoch then
          { m with s := done (s1.bump (Key.at Key.expiredWrites (tenantOfTag (s1.pitch p).tenantTag))) }
        else match s1.pageForSpan p l x q k layer sp rq with
          | (s2, some (.fault f)) => { m with s := s2, err := some f }
          | (s2, some (.stall b w)) => { m with s := s2, stall := some (b, w) }
          | (s2, none) =>
            let addr := ((s2.seqOf p l.number n).bind (fun q => q.spans[k]?)).elim 0 (fun sp => tabGet sp.pages layer 0)
            let tokens := l.spanTokens x k
            let m1 := (List.range (2 * l.heads)).foldl (fun (m : Append) r =>
              m.row p l addr tokens rq (r / l.heads) (r % l.heads) (pos - sp.first) ((nth rows r []).map (·.bits))) { m with s := s2 }
            { m1 with s := done m1.s }

/-! ### Gang lists (R329) -/

/-- The sequences that a list of 32-bit entries names; a fault where it leaves the share, is poisoned, or an entry's upper
half is not 0. -/
def State.gangList (s : State) (i off n : Nat) : Except PitchFault (List Nat) :=
  if s.outside i false off (4 * n) then .error (fcAddress, off)
  else match s.spPoisonFault i off (4 * n) with
    | some f => .error f
    | none =>
      let es := (List.range n).map (fun k => leNat (s.readSp i (off + 4 * k) 4))
      if es.any (fun e => decide (65536 ≤ e)) then .error badDesc else .ok es

/-! ### Arithmetic (R343, R351, R364) -/

/-- A sum of products in ascending order from +0. -/
def dotSum (ps : List (Word × Word)) : Word × Met := cellSum 0 {} ps

/-- Square root, rounded to nearest even (the spec states no rounding for the distance of R343). -/
def f32Sqrt (a : Word) : Num :=
  match f32Value a with
  | .nan => numOf [a] nan32
  | .inf s => numOf [a] (if s then nan32 else 0x7F800000)
  | .fin s m e =>
    if m = 0 then numOf [a] a
    else if s then numOf [a] nan32
    else
      let (m', e') := if e % 2 = 0 then (m, e) else (2 * m, e - 1)
      let v := m' * 2 ^ 160
      let r := isqrt 96 v
      numOf [a] (f32Of (.fin false (2 * r + (if r * r = v then 0 else 1)) (e' / 2 - 81)))

/-- A value with what its computation met. -/
abbrev Val := Word × Met

def Val.of (n : Num) : Val := (n.bits, ⟨n.fl, n.sat⟩)

/-- The projection Pᵀk of a row: 64 sums over its elements (R343). -/
def projectRow (proj : List (List Word)) (k : List Word) : List Val :=
  (List.range 64).map (fun e => dotSum ((proj.map (fun r => nth r e 0)).zip k))

/-- Sum of squares and its root. -/
def norm32 (xs : List Word) : Val :=
  let (ss, m) := dotSum (xs.map (fun x => (x, x)))
  let r := f32Sqrt ss
  (r.bits, m.add r)

/-- Join what values met. -/
def metOf (vs : List Val) : Met := vs.foldl (fun m v => m.join v.2) {}

/-- What a KV read has done so far: its requests, the page tiles it has requested, and the pages it holds references to (R369, R372). -/
structure KvRead where
  s : State
  err : Option PitchFault := none
  met : Met := {}
  reads : List Nat := []
  tiles : List Nat := []
  pages : List Nat := []
  deriving DecidableEq, Repr

/-- Read bytes of state memory for a KV command: one request for each tile that the command needs, the first time (R369). -/
def KvRead.bytes (m : KvRead) (i a n : Nat) : KvRead × List Byte :=
  (requests a n).foldl (fun (acc : KvRead × List Byte) c =>
    let (m, bs) := acc
    if m.err.isSome then acc
    else
      let tile := c.1 / 4096 * 4096
      let (s1, more, f) := m.s.readTile (m.s.slot i).pitch c.1 c.2 (.core (coreOfSlot i))
      if m.tiles.contains tile then ({ m with err := f }, bs ++ more)
      else ({ m with s := s1, err := f, reads := m.reads ++ [c.1], tiles := m.tiles ++ [tile] }, bs ++ more)) (m, [])

/-- A command's first request to a page takes a reference to it and fetches its companion block with it (R369, R372). -/
def KvRead.openPage (m : KvRead) (g : Page) : KvRead :=
  if m.pages.contains g.id then m else { m with pages := m.pages ++ [g.id], reads := m.reads ++ [g.addr] }

/-- Projection matrix of index layer i: D rows of 64 bf16 elements (R342). -/
def KvRead.projection (m : KvRead) (i : Nat) (l : KvLayout) (k : Nat) : KvRead × List (List Word) :=
  let (m1, bs) := m.bytes i (l.get 175 128 + k * l.dim * 128) (l.dim * 128)
  (m1, (List.range l.dim).map (fun d => (List.range 64).map (fun e => ofBf16 (codeAt .bf16 (bs.drop (128 * d)) e))))

/-- All projection matrices of a layout. -/
def KvRead.projections (m : KvRead) (i : Nat) (l : KvLayout) : KvRead × List (List (List Word)) :=
  (List.range l.indexCount).foldl (fun (acc : KvRead × List (List (List Word))) k =>
    let (m, ps) := acc
    let (m1, pm) := m.projection i l k
    (m1, ps ++ [pm])) (m, [])

/-- Rows of tokens t0 … t0 + n − 1 of a head in a page, expanded to bf16 (R79, R325, R326). -/
def KvRead.rows (m : KvRead) (i : Nat) (l : KvLayout) (g : Page) (side h t0 n : Nat) : KvRead × List (List Num) :=
  let tokens := g.size / l.tokenBytes
  let row := kvRow side l.heads tokens h t0
  let (m1, bs) := (m.openPage g).bytes i (g.addr + row * l.rowBytes) (n * l.rowBytes)
  (m1, (List.range n).map (fun t =>
    decodeRow l.fmt l.dim (leNat (memRead g.companion (2 * (row + t)) 2)) ((bs.drop (t * l.rowBytes)).take l.rowBytes)))

/-- The page of a span for a layer, where a KV command may read it (R373). -/
def State.readablePage (s : State) (p : Nat) (q : KvSeq) (k : Nat) (sp : KvSpan) (layer : Nat) : Option Page :=
  (s.spanPage p q k sp layer).filter s.keyLive

/-! ### KVSKETCH (R341 to R347) -/

/-- The 132 B entry of one index layer and head: centroid, radius, zero (R341, R343). -/
def sketchEntry (proj : List (List Word)) (keys : List (List Num)) : List Byte × Met :=
  let ps := keys.map (fun k => projectRow proj (k.map (·.bits)))
  let tokens : Word := f32Of (.fin false keys.length 0)
  let mean : List Val := (List.range 64).map (fun e =>
    let col := ps.map (fun p => (nth p e (0, {})).1)
    let sum := col.foldl (fun (a : Val) x => let r := f32Add a.1 x; (r.bits, a.2.add r)) ((0 : Word), ({} : Met))
    let q := f32Div sum.1 tokens
    (q.bits, sum.2.add q))
  let dists : List Val := ps.map (fun p =>
    let diffs := (List.range 64).map (fun e => f32Sub (nth p e (0, {})).1 (nth mean e (0, {})).1)
    let n := norm32 (diffs.map (·.bits))
    (n.1, diffs.foldl Met.add n.2))
  let far := dists.foldl (fun (a : Val) d => let r := f32Max a.1 d.1; (r.bits, a.2.add r)) ((0 : Word), ({} : Met))
  let cent := mean.map (fun v => toBf16 v.1)
  let rad := toBf16 far.1
  (packCodes .bf16 (cent.map (·.bits.toNat)) ++ natLe 2 rad.bits.toNat ++ [0, 0],
    (((ps.map metOf).foldl Met.join (metOf mean)).join ((metOf dists).join far.2)).join ((cent.foldl Met.add {}).add rad))

/-- The sketch of one span; none where a page it needs is missing or expired (R373). -/
def KvRead.sketch (m : KvRead) (i : Nat) (l : KvLayout) (projs : List (List (List Word))) (q : KvSeq) (k : Nat) (sp : KvSpan) :
    KvRead × Option (List Byte) :=
  let p := (m.s.slot i).pitch
  let missing := ((List.range l.indexCount).filter (fun x => (m.s.readablePage p q k sp (l.indexLayer x)).isNone)).length
  if missing != 0 then ({ m with s := m.s.bump Key.kvExpiredSkips missing }, none)
  else
    let (m1, bs) := (List.range (l.indexCount * l.heads)).foldl (fun (acc : KvRead × List Byte) j =>
      let (m, bs) := acc
      match m.s.readablePage p q k sp (l.indexLayer (j / l.heads)) with
      | none => (m, bs)
      | some g =>
        let (m1, keys) := m.rows i l g 0 (j % l.heads) 0 sp.count
        let (e, met) := sketchEntry (nth projs (j / l.heads) []) keys
        ({ m1 with met := m1.met.join ((rowsMet keys).join met) }, bs ++ e)) (m, [])
    (m1, if m1.err.isSome then none else some bs)

/-- The work of KVSKETCH. -/
def State.kvSketchWork (s : State) (i d : Nat) : Work :=
  let p := (s.slot i).pitch
  let n := field d 15 0
  match s.layoutOf p (field d 18 16) with
  | none => { s, err := some badDesc }
  | some l =>
    if !onlyBits d [(71, 64), (55, 32), (18, 16), (15, 0)] || l.indexCount = 0 then { s, err := some badDesc }
    else match s.seqOf p l.number n with
      | none => { s, err := some (fcAddress, n) }
      | some q =>
        let ks := ((List.range (field d 71 64 + 1)).map (· + field d 55 32)).filter (fun k =>
          (q.spans[k]?).elim false (fun sp => q.closed l.layers sp && !sp.freed))
        let (m0, projs) := ({ s } : KvRead).projections i l
        let m := ks.foldl (fun (m : KvRead) k =>
          if m.err.isSome then m
          else match q.spans[k]? with
            | none => m
            | some sp =>
              match m.sketch i l projs q k sp with
              | (m1, none) => m1
              | (m1, some bs) => { m1 with s := m1.s.modSeq p l.number n (fun q => { q with sketches := tabSet q.sketches k bs }) }) m0
        { s := m.s, err := m.err, met := m.met, reads := m.reads, seqs := [(l.number, n)], pages := m.pages }

/-- KVSKETCH: the sketches of closed spans (R343, R346). -/
def execKvsketch (u : SlotRef) (w : CmdWord) (s : State) : Host.Outcome State Fault Refusal :=
  .next (s.issueEngine u w 0x95 .d64 (fun _ => ([.vec], false)) State.kvSketchWork)

/-! ### Freeing (R254, R374) -/

/-- Has the expiry of a page's entry come to its end: its key is not usable, and the entry is FENCED no more (R374, step 5 of R711). -/
def State.expired (s : State) (g : Page) : Bool :=
  let k := tabGet s.sec.keys g.keyIndex {}
  !s.keyLive g && !(k.st == .fenced && k.epoch == g.epoch)

/-- LAZY_PAGE_FREE: a page whose entry has expired is freed with its companion and sketch (R374). -/
def execLazyPageFree (page : Nat) (s : State) : Host.Outcome State Fault Refusal :=
  match s.page page with
  | none => .next s
  | some g => .next (if s.expired g then s.freePage page else s)

end Sys2Proof.Machine
end

