-- ==== Sys2Proof/Machine/Vector.lean ====
section
/-! DEFINITION. The vector engine: opcodes 0x40 to 0x56 (R170 to R179). -/

namespace Sys2Proof.Machine

/-- A source of a vector command: its operand and its broadcast mode (R175). -/
structure VecSrc where
  o : Opnd
  bcast : Nat
  deriving DecidableEq, Repr

/-- Stored rows and elements per stored row of a source, for ROWS × ROW_LEN elements (R175). -/
def VecSrc.shape (v : VecSrc) (rows len : Nat) : Nat × Nat :=
  match v.bcast with
  | 0 => (rows, len)
  | 1 => (rows, 1)
  | 2 => (1, len)
  | _ => (0, 0)

/-- The three sources of a vector descriptor (R174). -/
def Slot.vecSrcs (x : Slot) (d : Nat) : List VecSrc := [
  { o := x.opnd (field d 31 0) (field d 63 32) (field d 95 64), bcast := 0 },
  { o := x.opnd (field d 127 96) (field d 159 128) 0, bcast := field d 315 314 },
  { o := x.opnd (field d 191 160) (field d 223 192) 0, bcast := field d 317 316 }]

/-- Is every row start of an operand of `rows` rows aligned to its element (R177). -/
def Opnd.aligned (o : Opnd) (rows : Nat) : Bool :=
  o.off % o.format.align == 0 && (decide (rows ≤ 1) || o.stride % o.format.align == 0)

/-- Is the form of source `k` right (R161, R175, R176, R177): `word` its operand word. A format other than FP32 is accepted in the
accumulator share too (DESIGN CHOICE, log entry 120). -/
def VecSrc.formOk (v : VecSrc) (k rows len word : Nat) : Bool :=
  if v.bcast = 3 then word == 0 && v.o.strideWord == 0
  else !v.o.trans && v.o.wordsOk && v.o.aligned (v.shape rows len).1
    && v.o.fmtIn (if k = 0 then [.fp32, .bf16, .int8, .e4m3, .int4] else [.fp32, .bf16])

/-- The layout of a vector command: its source count, and its destination's rows and row length. -/
structure VecForm where
  srcs : Nat
  dst : Nat → Nat → Nat × Nat
  subop : Bool := false
  /-- destination row j takes element j of every source row -/
  turned : Bool := false

/-- The shapes of R170, R178: element-wise with n sources, a reduction, a transpose. -/
def vecElem (n : Nat) (subop : Bool := false) : VecForm := { srcs := n, dst := fun r l => (r, l), subop }
def vecReduce : VecForm := { srcs := 1, dst := fun r _ => (r, 1) }
def vecTransposed : VecForm := { srcs := 1, dst := fun r l => (l, r), turned := true }

/-- Is the descriptor's form right (R174 to R177): the words and broadcast fields of unused sources are 0. -/
def Slot.vecFormOk (x : Slot) (d : Nat) (f : VecForm) (dst : Opnd) : Bool :=
  let rows := field d 300 288
  let len := field d 313 301
  let (dr, dl) := f.dst rows len
  let words := [field d 31 0, field d 127 96, field d 191 160]
  let used := (x.vecSrcs d).take f.srcs
  let subop := field d 321 318
  onlyBits d [(321, 0), (383, 352)]
    && decide (1 ≤ rows) && decide (rows ≤ 4096) && decide (1 ≤ len) && decide (len ≤ 4096)
    && (if f.subop then decide (subop < 4) else subop == 0)
    && (decide (2 ≤ f.srcs) || (field d 127 96 == 0 && field d 159 128 == 0 && field d 315 314 == 0))
    && (decide (3 ≤ f.srcs) || (field d 191 160 == 0 && field d 223 192 == 0 && field d 317 316 == 0))
    && (List.range used.length).all (fun k => ((used[k]?).elim false (fun v => v.formOk k rows len (nth words k 0))))
    && !dst.trans && dst.fmtIn [.fp32, .bf16] && dst.wordsOk && dst.aligned dr
    && decide (dst.format.rowBytes dl ≤ dst.stride)

/-- The elements of a source, by row and column (R175). -/
def State.vecRead (s : State) (i : Nat) (v : VecSrc) (rows len : Nat) : List (List Num) :=
  s.loadRows i v.o (v.shape rows len).1 (v.shape rows len).2

/-- One element of a source under its broadcast mode (R175). -/
def VecSrc.pick (v : VecSrc) (vals : List (List Num)) (imm : Word) (r c : Nat) : Word :=
  match v.bcast with
  | 0 => (elemAt vals r c).bits
  | 1 => (elemAt vals r 0).bits
  | 2 => (elemAt vals 0 c).bits
  | _ => imm

/-- What a vector command computes from its sources: the destination's rows, with the conditions met. -/
abbrev VecFn := (rows len : Nat) → (subop : Nat) → (src : Nat → Nat → Nat → Word) → List (List Num)

/-- What the loads of a source meet for destination row r (R97, R175). -/
def VecSrc.rowMet (v : VecSrc) (vals : List (List Num)) (turned : Bool) (r : Nat) : Met :=
  if v.bcast = 3 then {}
  else if turned then numsMet (vals.map (fun row => nth row r { bits := 0 }))
  else numsMet (nth vals (if v.bcast = 2 then 0 else r) [])

/-- Elements per core cycle of an opcode (R170). -/
def vecRate (opcode : Nat) : Nat :=
  if opcode ≤ 0x48 || (decide (0x53 ≤ opcode) && decide (opcode ≤ 0x55)) then 64
  else if opcode ≤ 0x4D then 16
  else if opcode = 0x56 then 32
  else 8

/-- Destination rows of a step of at most 512 cycles; how the rows divide among steps is the model's choice (R179, log entry 126). -/
def stepRows (opcode len : Nat) : Nat := max 1 (512 / ceilDiv len (vecRate opcode))

/-- Element-wise functions of one, two and three sources. -/
def map1 (g : Word → Num) : VecFn := fun rows len _ src =>
  (List.range rows).map (fun r => (List.range len).map (fun c => g (src 0 r c)))
def map2 (g : Word → Word → Num) : VecFn := fun rows len _ src =>
  (List.range rows).map (fun r => (List.range len).map (fun c => g (src 0 r c) (src 1 r c)))
def map3 (g : Word → Word → Word → Num) : VecFn := fun rows len _ src =>
  (List.range rows).map (fun r => (List.range len).map (fun c => g (src 0 r c) (src 1 r c) (src 2 r c)))
/-- Reductions: one element per row (R178). -/
def mapRow (g : List Word → Num) : VecFn := fun rows len _ src =>
  (List.range rows).map (fun r => [g ((List.range len).map (fun c => src 0 r c))])

/-- The comparison of SUBOP (R171): one with a NaN holds only for not equal. -/
def vecCompare (subop : Nat) (a b : Word) : Num :=
  let h := match subop with
    | 0 => f32Eq a b
    | 1 => !f32Eq a b
    | 2 => f32Lt a b
    | _ => f32Le a b
  numOf [a, b] (if h then 0x3F800000 else 0)

/-- The rows of VCMP. -/
def compareRows : VecFn := fun rows len subop src =>
  (List.range rows).map (fun r => (List.range len).map (fun c => vecCompare subop (src 0 r c) (src 1 r c)))

/-- One element of VSEL, and of VCVT. -/
def selectElem (a b c : Word) : Num := numOf [a, b, c] (canon (if isZero32 a then c else b))
def convertElem (a : Word) : Num := numOf [a] (canon a)

/-- One addition with what it met. -/
def sumStep (add : Word → Word → Num) (a : Num) (x : Word) : Num :=
  let r := add a.bits x
  { r with fl := r.fl ||| a.fl }

/-- Add neighbours pairwise (R173). -/
def pairUp : List Num → List Num
  | a :: b :: rest =>
    let r := f32Add a.bits b.bits
    { r with fl := r.fl ||| a.fl ||| b.fl } :: pairUp rest
  | xs => xs

/-- Reduce a row in the fixed order of R173: 64 lanes, each from +0 (DESIGN CHOICE, log entry 124), then the pairwise tree of six
levels. -/
def laneReduce (add : Word → Word → Num) (xs : List Word) : Num :=
  let lane := fun l => ((List.range (ceilDiv (xs.length - l) 64)).map (fun k => nth xs (l + 64 * k) 0)).foldl (sumStep add) { bits := 0 }
  nth ((List.range 6).foldl (fun ys _ => pairUp ys) ((List.range 64).map lane)) 0 { bits := 0 }

/-- The maximum of a row (R64, R65). -/
def rowMax : List Word → Num
  | [] => { bits := 0 }
  | a :: rest => rest.foldl (sumStep f32Max) (numOf [a] (canon a))

/-- Add the square of an element, with one rounding. -/
def addSquare (t a : Word) : Num := f32Fma a a t

/-- The rows of VTRANS. -/
def transposeRows : VecFn := fun rows len _ src =>
  (List.range len).map (fun c => (List.range rows).map (fun r => numOf [src 0 r c] (canon (src 0 r c))))

/-- The layout and the function of each opcode of the vector engine (R170 to R173, R178). -/
def vecOp (opcode : Nat) : VecForm × VecFn :=
  match opcode with
  | 0x40 => (vecElem 2, map2 f32Add)
  | 0x41 => (vecElem 2, map2 f32Sub)
  | 0x42 => (vecElem 2, map2 f32Mul)
  | 0x43 => (vecElem 3, map3 f32Fma)
  | 0x44 => (vecElem 2, map2 f32Max)
  | 0x45 => (vecElem 2, map2 f32Min)
  | 0x46 => (vecElem 2 true, compareRows)
  | 0x47 => (vecElem 3, map3 selectElem)
  | 0x48 => (vecElem 1, map1 convertElem)
  | 0x49 => (vecElem 1, map1 (transcendental 0x49))
  | 0x4A => (vecElem 1, map1 (transcendental 0x4A))
  | 0x4B => (vecElem 1, map1 (transcendental 0x4B))
  | 0x4C => (vecElem 1, map1 (transcendental 0x4C))
  | 0x4D => (vecElem 1, map1 (transcendental 0x4D))
  | 0x4E => (vecElem 2, map2 f32Div)
  | 0x4F => (vecElem 1, map1 (transcendental 0x4F))
  | 0x50 => (vecElem 1, map1 (transcendental 0x50))
  | 0x51 => (vecElem 1, map1 (transcendental 0x51))
  | 0x52 => (vecElem 1, map1 (transcendental 0x52))
  | 0x53 => (vecReduce, mapRow (laneReduce f32Add))
  | 0x54 => (vecReduce, mapRow rowMax)
  | 0x55 => (vecReduce, mapRow (laneReduce addSquare))
  | _ => (vecTransposed, transposeRows)

/-- The work of a vector command: its steps, each of which stores whole destination rows. -/
def State.vecWork (opcode : Nat) (s : State) (i d : Nat) : Work :=
  let (f, fn) := vecOp opcode
  let x := s.slot i
  let rows := field d 300 288
  let len := field d 313 301
  let dst := x.opnd (field d 255 224) (field d 287 256) 0
  let (dr, dl) := f.dst rows len
  let used := (x.vecSrcs d).take f.srcs
  if !x.vecFormOk d f dst then { s, err := some badDesc }
  else
    let srcFault := used.findSome? (fun v =>
      if v.bcast = 3 then none else s.sourceFault i v.o (v.shape rows len).1 (v.shape rows len).2)
    match srcFault with
    | some e => { s, err := some e }
    | none =>
      if s.outside i dst.inAcc dst.off (spanOf dr dst.stride (dst.format.rowBytes dl)) then
        { s, err := some (fcAddress, dst.off) }
      else
        let vals := used.map (fun v => (v, s.vecRead i v rows len))
        let imm : Word := BitVec.ofNat 32 (field d 383 352)
        let src := fun k r c => ((vals[k]?).elim 0 (fun v => v.1.pick v.2 imm r c))
        let out := fn rows len (field d 321 318) src
        { s, todo := joinSteps (stepRows opcode (if f.turned then rows else len)) ((List.range dr).map (fun r =>
            dst.storeStep r ((nth out r []).map (·.bits))
              ((vals.map (fun v => v.1.rowMet v.2 f.turned r)).foldl Met.join (numsMet (nth out r []))))) }

/-- Issue a vector command. -/
def State.vector (s : State) (u : SlotRef) (w : CmdWord) (opcode : Nat) :
    Host.Outcome State Fault Refusal :=
  .next (s.issueEngine u w opcode .d64 (fun _ => ([.vec], false)) (State.vecWork opcode))

/-- VADD: A + B. -/
def execVadd (u : SlotRef) (w : CmdWord) (s : State) : Host.Outcome State Fault Refusal :=
  s.vector u w 0x40

/-- VSUB: A − B. -/
def execVsub (u : SlotRef) (w : CmdWord) (s : State) : Host.Outcome State Fault Refusal :=
  s.vector u w 0x41

/-- VMUL: A × B. -/
def execVmul (u : SlotRef) (w : CmdWord) (s : State) : Host.Outcome State Fault Refusal :=
  s.vector u w 0x42

/-- VFMA: A × B + C with one rounding. -/
def execVfma (u : SlotRef) (w : CmdWord) (s : State) : Host.Outcome State Fault Refusal :=
  s.vector u w 0x43

/-- VMAX: the maximum (R64, R65). -/
def execVmax (u : SlotRef) (w : CmdWord) (s : State) : Host.Outcome State Fault Refusal :=
  s.vector u w 0x44

/-- VMIN: the minimum (R64, R65). -/
def execVmin (u : SlotRef) (w : CmdWord) (s : State) : Host.Outcome State Fault Refusal :=
  s.vector u w 0x45

/-- VCMP: 1.0 where the comparison holds, else +0 (R171). -/
def execVcmp (u : SlotRef) (w : CmdWord) (s : State) : Host.Outcome State Fault Refusal :=
  s.vector u w 0x46

/-- VSEL: B where A is not zero, else C; a NaN in A counts as non-zero (R171). -/
def execVsel (u : SlotRef) (w : CmdWord) (s : State) : Host.Outcome State Fault Refusal :=
  s.vector u w 0x47

/-- VCVT: A in the destination format. -/
def execVcvt (u : SlotRef) (w : CmdWord) (s : State) : Host.Outcome State Fault Refusal :=
  s.vector u w 0x48

/-- VEXP: e^A. -/
def execVexp (u : SlotRef) (w : CmdWord) (s : State) : Host.Outcome State Fault Refusal :=
  s.vector u w 0x49

/-- VEXP2: 2^A. -/
def execVexp2 (u : SlotRef) (w : CmdWord) (s : State) : Host.Outcome State Fault Refusal :=
  s.vector u w 0x4A

/-- VLOG2: log2 A. -/
def execVlog2 (u : SlotRef) (w : CmdWord) (s : State) : Host.Outcome State Fault Refusal :=
  s.vector u w 0x4B

/-- VRCP: 1 / A. -/
def execVrcp (u : SlotRef) (w : CmdWord) (s : State) : Host.Outcome State Fault Refusal :=
  s.vector u w 0x4C

/-- VRSQRT: 1 / √A. -/
def execVrsqrt (u : SlotRef) (w : CmdWord) (s : State) : Host.Outcome State Fault Refusal :=
  s.vector u w 0x4D

/-- VDIV: A / B. -/
def execVdiv (u : SlotRef) (w : CmdWord) (s : State) : Host.Outcome State Fault Refusal :=
  s.vector u w 0x4E

/-- VTANH: tanh A. -/
def execVtanh (u : SlotRef) (w : CmdWord) (s : State) : Host.Outcome State Fault Refusal :=
  s.vector u w 0x4F

/-- VSIGM: 1 / (1 + e^−A). -/
def execVsigm (u : SlotRef) (w : CmdWord) (s : State) : Host.Outcome State Fault Refusal :=
  s.vector u w 0x50

/-- VSILU: A / (1 + e^−A). -/
def execVsilu (u : SlotRef) (w : CmdWord) (s : State) : Host.Outcome State Fault Refusal :=
  s.vector u w 0x51

/-- VGELU. -/
def execVgelu (u : SlotRef) (w : CmdWord) (s : State) : Host.Outcome State Fault Refusal :=
  s.vector u w 0x52

/-- VRSUM: the sum of each row (R173). -/
def execVrsum (u : SlotRef) (w : CmdWord) (s : State) : Host.Outcome State Fault Refusal :=
  s.vector u w 0x53

/-- VRMAX: the maximum of each row. -/
def execVrmax (u : SlotRef) (w : CmdWord) (s : State) : Host.Outcome State Fault Refusal :=
  s.vector u w 0x54

/-- VRSSQ: the sum of squares of each row, each added with one rounding (R173). -/
def execVrssq (u : SlotRef) (w : CmdWord) (s : State) : Host.Outcome State Fault Refusal :=
  s.vector u w 0x55

/-- VTRANS: destination row j holds element j of every source row (R178). -/
def execVtrans (u : SlotRef) (w : CmdWord) (s : State) : Host.Outcome State Fault Refusal :=
  s.vector u w 0x56

end Sys2Proof.Machine
end

