-- ==== Sys2Proof/Machine/Kv.lean ====
section
/-! DEFINITION. The KV commands of the stream: KVAPP, KVSCORE, KVSEL, KVATTN and KVPREF (R329 to R373). -/

namespace Sys2Proof.Machine

/-- The tiles a KV or recurrent command works in hold what the spec leaves open once it ends: free contents. -/
def State.freeTiles (s : State) (i tile n : Nat) : State :=
  let (k, s1) := s.fresh
  s1.writeAcc i (4096 * tile) (fitBytes (4096 * n) (Config.freeBytes k (4096 * n)))

/-! ### KVAPP (R329 to R340) -/

/-- Bring each sequence past a day-key boundary, where this KVAPP is its first after one (R339); an extent under the
standing key does not roll. -/
def State.rollSeqs (s : State) (p : Nat) (l : KvLayout) (x : Extent) (layer : Nat) (names : List Nat) : State :=
  let (_, ep) := s.newPageKey p x
  (distinct names).foldl (fun (t : State) n =>
    t.modSeq p l.number n (fun q => q.roll l.layers layer (names.filter (· == n)).length ep)) s

/-- Conditions that the elements of a KVAPP's source rows meet: NaN and infinite operands of the encoding, beside those of loading them
(R98). -/
def sourceMet (rows : List (List Num)) : Met :=
  rows.foldl (fun m r => r.foldl (fun m x => (m.add x).add (numOf [x.bits] x.bits)) m) {}

/-- The work of KVAPP. -/
def State.kvAppWork (s : State) (i d : Nat) : Work :=
  let x := s.slot i
  let p := x.pitch
  let o := x.opnd (field d 31 0) (field d 63 32) 0
  let gang := bit d 114
  let count := field d 113 102 + 1
  let layer := field d 127 120
  match s.layoutOf p (field d 130 128) with
  | none => { s, err := some badDesc }
  | some l =>
    if !onlyBits d [(130, 128), (127, 120), (114, 114), (113, 102), (101, 80), (79, 64), (63, 0)] || l.layers ≤ layer || o.trans
        || !o.fmtIn [.fp32, .bf16] || !o.wordsOk || !o.aligned (2 * l.heads * count) || (gang && field d 79 64 != 0)
        || (gang && field d 101 80 % 4 != 0) then
      { s, err := some badDesc }
    else
      let names := if gang then s.gangList i (field d 101 80) count else .ok (List.replicate count (field d 79 64))
      match names with
      | .error f => { s, err := some f }
      | .ok names =>
        match names.find? (fun n => (s.seqOf p l.number n).isNone), (s.pitch p).extents.find? (·.number == l.get 21 16) with
        | some n, _ => { s, err := some (fcAddress, n) }
        | none, none => { s, err := some badDesc }
        | none, some e =>
          match s.sourceFault i o (2 * l.heads * count) l.dim with
          | some f => { s, err := some f }
          | none =>
            let rows := s.loadRows i o (2 * l.heads * count) l.dim
            let m := ((List.range count).zip names).foldl (fun (m : Append) jn =>
              m.token p l e jn.2 layer (.core (coreOfSlot i)) ((rows.drop (2 * l.heads * jn.1)).take (2 * l.heads)))
              { s := s.rollSeqs p l e layer names }
            { s := m.s, err := m.err, stall := m.stall, met := (sourceMet rows).join m.met, writes := m.writes,
              seqs := (distinct names).map (fun n => (l.number, n))
              onDone := (distinct names).map (fun n =>
                .kvLength p l.number n layer ((m.s.seqOf p l.number n).elim 0 (fun q => q.next layer))) }

/-- KVAPP: append quantised tokens (R331). -/
def execKvapp (u : SlotRef) (w : CmdWord) (s : State) : Host.Outcome State Fault Refusal :=
  .next (s.issueEngine u w 0x90 .d64 (fun _ => ([.vec, .xfr], false)) State.kvAppWork)

/-! ### KVSCORE (R349 to R354) -/

/-- Is a query operand's form right: FP32 or bf16, TRANS 0, scratchpad, 64 B multiples (R166, R349). -/
def Opnd.queryOk (o : Opnd) : Bool :=
  !o.trans && !o.inAcc && o.fmtIn [.fp32, .bf16] && o.wordsOk && o.off % 64 == 0 && o.stride % 64 == 0

/-- The entry of one index layer and head in a sketch: centroid and radius as FP32. -/
def entryOf (sketch : List Byte) (k : Nat) : List Word × Word :=
  let e := sketch.drop (132 * k)
  ((List.range 64).map (fun i => ofBf16 (codeAt .bf16 e i)), ofBf16 (codeAt .bf16 e 64))

/-- The score of one query against an entry: q'·c + ‖q'‖ × r (R351). -/
def entryScore (qp : List Word) (e : List Word × Word) : Val :=
  let (dp, m1) := dotSum (qp.zip e.1)
  let (nm, m2) := norm32 qp
  let t := f32Mul nm e.2
  let r := f32Add dp t.bits
  (r.bits, ((m1.join m2).add t).add r)

/-- The score of a span with a sketch: the sum over index layers and heads of the largest value over the head's queries
(R351). `qs` are the projected queries by index layer and query head. -/
def spanScore (l : KvLayout) (qs : List (List (List Word))) (sketch : List Byte) : Val :=
  (List.range (l.indexCount * l.heads)).foldl (fun (acc : Val) j =>
    let q := nth qs (j / l.heads) []
    let vs := (List.range l.group).map (fun g => entryScore (nth q (j % l.heads * l.group + g) []) (entryOf sketch j))
    let best := rowMax (vs.map (·.1))
    let r := f32Add acc.1 best.bits
    (r.bits, ((acc.2.join (metOf vs)).add best).add r)) ((0 : Word), ({} : Met))

/-- The sketches that scoring a sequence reads: a request for each, at its span's first page (R369). -/
def KvSeq.sketchReads (q : KvSeq) (layers : Nat) : List Nat :=
  (q.numbered.filter (fun e => decide (q.baseSpan ≤ e.1) && q.closed layers e.2 && (tabFind q.sketches e.1).isSome)).filterMap
    (fun e => e.2.pages.head?.map (·.2))

/-- Score area of one member: header and scores (R352, R353); the count of unsketched spans. -/
def State.scoreArea (s : State) (l : KvLayout) (q : KvSeq) (qs : List (List (List Word))) : List Byte × Met × Nat :=
  let ks := (q.numbered.filter (fun e => decide (q.baseSpan ≤ e.1) && q.closed l.layers e.2))
  let live := fun (sp : KvSpan) => !sp.freed && s.entryLive sp.keyIndex sp.epoch
  let vs : List (Val × Nat) := ks.map (fun e =>
    if !live e.2 then ((0xFF800000, {}), 0)
    else match tabFind q.sketches e.1 with
      | none => ((0x7F800000, {}), 1)
      | some sk => (spanScore l qs sk, 0))
  (natLe 4 q.baseSpan ++ natLe 4 ks.length ++ natLe 8 (q.selPos l.layers % 2 ^ 32)
      ++ packCodes .fp32 (vs.map (fun v => v.1.1.toNat)),
    metOf (vs.map (·.1)), (vs.map (·.2)).foldl (· + ·) 0)

/-- The work of KVSCORE. -/
def State.kvScoreWork (s : State) (i d : Nat) : Work :=
  let x := s.slot i
  let p := x.pitch
  let o := x.opnd (field d 31 0) (field d 63 32) 0
  let members := field d 94 86 + 1
  let off := field d 149 128
  let stride := field d 223 192
  match s.layoutOf p (field d 98 96) with
  | none => { s, err := some badDesc }
  | some l =>
    let gh := l.group * l.heads
    let tile := field d 230 224
    if !onlyBits d [(230, 192), (149, 128), (98, 96), (94, 0)] || 256 < members || l.indexCount = 0 || !o.queryOk || off % 64 != 0
        || stride % 64 != 0 then { s, err := some badDesc }
    else if x.accTiles < tile + 8 then { s, err := some (fcAddress, 4096 * (tile + 7)) }
    else match s.gangList i (field d 85 64) members with
      | .error f => { s, err := some f }
      | .ok names =>
        match names.find? (fun n => (s.seqOf p l.number n).isNone), s.sourceFault i o (members * l.indexCount * gh) l.dim with
        | some n, _ => { s, err := some (fcAddress, n) }
        | none, some f => { s, err := some f }
        | none, none =>
          let rows := s.loadCells i o (members * l.indexCount * gh) l.dim
          let (m0, projs) := ({ s } : KvRead).projections i l
          let m := ((List.range members).zip names).foldl (fun (m : KvRead) mn =>
            match m.err, m.s.seqOf p l.number mn.2 with
            | none, some q =>
              let proj := (List.range l.indexCount).map (fun k => (List.range gh).map (fun g =>
                projectRow (nth projs k []) ((nth rows ((mn.1 * l.indexCount + k) * gh + g) []).map (·.bits))))
              let (bs, met, plain) := m.s.scoreArea l q (proj.map (·.map (·.map (·.1))))
              let at_ := off + mn.1 * stride
              if stride < bs.length || m.s.outside i false at_ bs.length then { m with err := some (fcAddress, at_) }
              else { m with
                reads := m.reads ++ q.sketchReads l.layers
                s := (m.s.writeSp i at_ bs).bump Key.kvUnsketchedScores plain
                met := (proj.foldl (fun a qs => qs.foldl (fun a vs => a.join (metOf vs)) a) m.met).join met }
            | _, _ => m) m0
          { s := m.s.freeTiles i tile 8, err := m.err, met := (rowsMet rows).join m.met, reads := m.reads,
            seqs := names.map (fun n => (l.number, n)), pages := m.pages }

/-- KVSCORE: score the closed spans of each member (R351). -/
def execKvscore (u : SlotRef) (w : CmdWord) (s : State) : Host.Outcome State Fault Refusal :=
  .next (s.issueEngine u w 0x91 .d128 (fun _ => ([.m0], false)) State.kvScoreWork)

/-! ### KVSEL (R355 to R358) -/

/-- The spans a member's selection takes (R356): `cands` are (span, tokens, score) left after the window, in descending
order of score, the higher span number first among equals. -/
def takeSpans (nMax budget : Nat) : List (Nat × Nat × Word) → Nat → List Nat → List Nat
  | [], _, acc => acc
  | c :: cs, total, acc =>
    if nMax ≤ acc.length then acc
    else if budget != 0 && decide (budget < total + c.2.1) then takeSpans nMax budget cs total acc
    else takeSpans nMax budget cs (total + c.2.1) (acc ++ [c.1])

/-- Descending order of score, higher span first among equal scores. -/
def scoreBefore (a b : Nat × Nat × Word) : Bool := f32Lt b.2.2 a.2.2 || (f32Eq a.2.2 b.2.2 && decide (b.1 < a.1))

def insertScore (c : Nat × Nat × Word) : List (Nat × Nat × Word) → List (Nat × Nat × Word)
  | [] => [c]
  | x :: xs => if scoreBefore c x then c :: x :: xs else x :: insertScore c xs

/-- Selection area of a member from its score area (R356, R357). -/
def selectionOf (q : KvSeq) (header : List Byte) (scores : List Word) (window nMax budget : Nat) : List Byte :=
  let base := leNat (header.take 4)
  let selPos := leNat ((header.drop 8).take 4)
  let cands := ((List.range scores.length).zip scores).filterMap (fun e =>
    (q.spans[base + e.1]?).bind (fun sp =>
      if selPos - window ≤ sp.first || isNan32 e.2 || e.2 == 0xFF800000 then none else some (base + e.1, sp.count, e.2)))
  let sel := sortBy id (takeSpans nMax budget (cands.foldl (fun acc c => insertScore c acc) []) 0 [])
  natLe 4 selPos ++ natLe 12 sel.length ++ sel.flatMap (natLe 4)

/-- The work of KVSEL. -/
def State.kvSelWork (s : State) (i d : Nat) : Work :=
  let p := (s.slot i).pitch
  let nMax := field d 167 160 + 1
  let selStride := field d 159 128
  let stride := field d 127 96
  let members := field d 94 86 + 1
  match s.layoutOf p (field d 218 216) with
  | none => { s, err := some badDesc }
  | some l =>
    if !onlyBits d [(218, 128), (127, 96), (94, 64), (53, 32), (21, 0)] || 256 < members || selStride % 64 != 0
        || selStride < 16 + 4 * nMax || stride % 64 != 0 || field d 53 32 % 64 != 0 || field d 21 0 % 64 != 0 then
      { s, err := some badDesc }
    else match s.gangList i (field d 85 64) members with
      | .error f => { s, err := some f }
      | .ok names =>
        ((List.range members).zip names).foldl (fun (w : Work) mn =>
          let a := field d 21 0 + mn.1 * stride
          let b := field d 53 32 + mn.1 * selStride
          match w.err, w.s.seqOf p l.number mn.2 with
          | some _, _ => w
          | none, none => { w with err := some (fcAddress, mn.2) }
          | none, some q =>
            if w.s.outside i false a 16 then { w with err := some (fcAddress, a) }
            else match w.s.spPoisonFault i a 16 with
              | some f => { w with err := some f }
              | none =>
                let hdr := w.s.readSp i a 16
                let n := leNat ((hdr.drop 4).take 4)
                if w.s.outside i false a (16 + 4 * n) then { w with err := some (fcAddress, a) }
                else match w.s.spPoisonFault i a (16 + 4 * n) with
                  | some f => { w with err := some f }
                  | none =>
                    let bs := w.s.readSp i (a + 16) (4 * n)
                    let scores := (List.range n).map (fun k => BitVec.ofNat 32 (codeAt .fp32 bs k))
                    let out := selectionOf q hdr scores (field d 183 168) nMax (field d 215 184)
                    if w.s.outside i false b out.length then { w with err := some (fcAddress, b) }
                    else { w with s := w.s.writeSp i b out }) ({ s, seqs := names.map (fun n => (l.number, n)) } : Work)

/-- KVSEL: choose spans per member (R356). -/
def execKvsel (u : SlotRef) (w : CmdWord) (s : State) : Host.Outcome State Fault Refusal :=
  .next (s.issueEngine u w 0x92 .d64 (fun _ => ([.vec], false)) State.kvSelWork)

/-! ### KVATTN and KVPREF (R359 to R373) -/

/-- One block: its sequence, its span and the positions [from, to) (R363). -/
structure KvBlock where
  seq : KvSeq
  number : Nat
  span : KvSpan
  lo : Nat
  hi : Nat
  deriving DecidableEq, Repr

/-- Positions of a span that are attended (R361): the whole span where it is selected, else those from `w`. -/
def spanRange (sp : KvSpan) (whole : Bool) (w top : Nat) : Nat × Nat :=
  (if whole then sp.first else max w sp.first, min sp.stop top)

/-- Blocks of at most 256 positions of a span's attended positions (R363). -/
def blocksOf (q : KvSeq) (e : Nat × KvSpan) (r : Nat × Nat) : List KvBlock :=
  (List.range (ceilDiv (r.2 - r.1) 256)).map (fun k =>
    { seq := q, number := e.1, span := e.2, lo := r.1 + 256 * k, hi := min r.2 (r.1 + 256 * (k + 1)) })

/-- The blocks of a member's attended set, in ascending order of first position (R361, R363). -/
def attendedBlocks (q : KvSeq) (mode window snap selPos : Nat) (sel : List Nat) (top : Nat) : List KvBlock :=
  let w := match mode with
    | 2 => 0
    | 1 => snap - window
    | _ => min snap selPos - window
  q.numbered.flatMap (fun e => blocksOf q e (spanRange e.2 (mode == 0 && sel.contains e.1) w (min snap top)))

/-- The online softmax of one query row (R364). -/
structure Soft where
  m : Word := 0xFF800000
  l : Word := 0
  acc : List Word
  seen : Bool := false
  met : Met := {}
  deriving DecidableEq, Repr

/-- One block of the online softmax (R364): exp as VEXP, weights narrowed to bf16 for the matrix engine. The initial m is an operand of
the first block's maximum, and so sets INF_IN (DESIGN CHOICE, log entry 122). -/
def Soft.block (a : Soft) (scale : Word) (q : List Word) (keys vals : List (List Word)) : Soft :=
  if keys.isEmpty then a
  else
    let dots := keys.map (fun k => dotSum (q.zip k))
    let ss := dots.map (fun v => f32Mul scale v.1)
    let big := rowMax (ss.map (·.bits))
    let mNew := f32Max a.m big.bits
    let diff := f32Sub a.m mNew.bits
    let c : Num := if a.m = 0xFF800000 then { bits := 0 } else transcendental 0x49 diff.bits
    let ds := ss.map (fun v => f32Sub v.bits mNew.bits)
    let es := ds.map (fun v => transcendental 0x49 v.bits)
    let sum := laneReduce f32Add (es.map (·.bits))
    let lc := f32Mul a.l c.bits
    let l := f32Add lc.bits sum.bits
    let hs := es.map (fun e => toBf16 e.bits)
    let ws := hs.map (fun h => ofBf16 h.bits.toNat)
    let accs := (List.range a.acc.length).map (fun k =>
      let x := f32Mul (nth a.acc k 0) c.bits
      let (y, m) := dotSum (ws.zip (vals.map (fun v => nth v k 0)))
      let z := f32Add x.bits y
      ((z.bits, (m.add x).add z) : Val))
    let nums := ss ++ ds ++ es ++ hs ++ [big, mNew, c, sum, lc, l] ++ (if a.m = 0xFF800000 then [] else [diff])
    { m := mNew.bits, l := l.bits, acc := accs.map (·.1), seen := true,
      met := (nums.foldl Met.add (a.met.join (metOf dots))).join (metOf accs) }

/-- The output row: acc / l, or +0 where nothing was attended (R364, R365). -/
def Soft.out (a : Soft) : List Word × Met :=
  if a.seen then
    let qs := a.acc.map (fun x => f32Div x a.l)
    (qs.map (·.bits), qs.foldl Met.add a.met)
  else (a.acc.map (fun _ => 0), {})

/-- What an attention command has done so far: its reads and the softmax of each query row of the member. -/
structure Attend where
  r : KvRead
  rows : List Soft
  deriving DecidableEq, Repr

/-- The page of a block for a layer, where it may be read (R373). -/
def State.blockPage (s : State) (p : Nat) (b : KvBlock) (layer : Nat) : Option Page := s.readablePage p b.seq b.number b.span layer

/-- One block against every query row of a member (R364, R366): row j × G × H + g belongs to KV head g / G; `limit j` is
the first position that query token j does not attend. -/
def Attend.block (a : Attend) (i : Nat) (l : KvLayout) (layer : Nat) (scale : Word) (qs : List (List Word))
    (limit : Nat → Nat) (b : KvBlock) : Attend :=
  if a.r.err.isSome then a
  else match a.r.s.blockPage (a.r.s.slot i).pitch b layer with
    | none => a
    | some g =>
      let gh := l.group * l.heads
      (List.range l.heads).foldl (fun (a : Attend) h =>
        let (r1, ks) := a.r.rows i l g 0 h (b.lo - b.span.first) (b.hi - b.lo)
        let (r2, vs) := r1.rows i l g 1 h (b.lo - b.span.first) (b.hi - b.lo)
        if r2.err.isSome then { a with r := r2 }
        else
          let k := ks.map (·.map (·.bits))
          let v := vs.map (·.map (·.bits))
          let rows := ((List.range a.rows.length).zip a.rows).map (fun jr =>
            if jr.1 % gh / l.group = h then
              let n := min (b.hi - b.lo) (limit (jr.1 / gh) - b.lo)
              jr.2.block scale (nth qs jr.1 []) (k.take n) (v.take n)
            else jr.2)
          { r := { r2 with met := r2.met.join ((rowsMet ks).join (rowsMet vs)) }, rows }) a

/-- One member, or the sequence of KVPREF: its blocks, the conditions of the query rows that attend to something (R365, R366), the skipped pages counted once each (R373), its output rows from
`row` on. -/
def State.attend (s : State) (w : Work) (i : Nat) (l : KvLayout) (layer : Nat) (scale : Word) (cells : List (List Num))
    (out : Opnd) (row : Nat) (limit : Nat → Nat) (blocks : List KvBlock) : Work :=
  let p := (s.slot i).pitch
  let absent := (distinct ((blocks.filter (fun b => (w.s.blockPage p b layer).isNone)).map (·.number))).length
  let s1 := if absent = 0 then w.s else w.s.bump Key.kvExpiredSkips absent
  let qs := cells.map (·.map (·.bits))
  let a := blocks.foldl (fun (a : Attend) b => a.block i l layer scale qs limit b)
    { r := { s := s1, tiles := w.tiles, pages := w.pages }, rows := qs.map (fun _ => { acc := List.replicate l.dim 0 }) }
  match a.r.err with
  | some f => { w with s := a.r.s, err := some f }
  | none =>
    let outs := a.rows.map Soft.out
    let stores := ((List.range outs.length).zip outs).map (fun ro => out.storeStep (row + ro.1) ro.2.1 ro.2.2)
    let asked := ((List.zip cells a.rows).filter (·.2.seen)).map (·.1)
    { w with
      s := a.r.s, met := (w.met.join (rowsMet asked)).join a.r.met, reads := w.reads ++ a.r.reads, pages := a.r.pages
      tiles := a.r.tiles, todo := w.todo ++ joinSteps 32 stores }

/-- A selection area as attention reads it: SEL_POS and the selected spans (R357). -/
def State.selection (s : State) (i off : Nat) : Except PitchFault (Nat × List Nat) :=
  if s.outside i false off 16 then .error (fcAddress, off)
  else
    let hdr := s.readSp i off 16
    let n := leNat ((hdr.drop 4).take 2)
    if s.outside i false off (16 + 4 * n) then .error (fcAddress, off)
    else match s.spPoisonFault i off (16 + 4 * n) with
      | some f => .error f
      | none => .ok (leNat (hdr.take 4), (List.range n).map (fun k => leNat (s.readSp i (off + 16 + 4 * k) 4)))

/-- Is an output operand's form right (R176, R177). -/
def Opnd.outOk (o : Opnd) (rows n : Nat) : Bool :=
  !o.trans && o.fmtIn [.fp32, .bf16] && o.wordsOk && o.aligned rows && decide (o.format.rowBytes n ≤ o.stride)

/-- The common part of KVATTN and KVPREF (R359, R367): `toks` query tokens of each of the sequences `names`. -/
def State.attention (s : State) (i d : Nat) (l : KvLayout) (names : List Nat) (toks qpos : Nat) (prefill : Bool) : Work :=
  let x := s.slot i
  let p := x.pitch
  let gh := l.group * l.heads
  let rows := names.length * toks * gh
  let q := x.opnd (field d 31 0) (field d 63 32) 0
  let o := x.opnd (field d 95 64) (field d 127 96) 0
  let layer := field d 247 240
  let mode := field d 252 251
  let tile := field d 294 288
  if l.layers ≤ layer || mode = 3 || !q.queryOk || !o.outOk rows l.dim
      || (mode == 0 && (field d 181 160 % 64 != 0 || (!prefill && field d 223 192 % 64 != 0))) then { s, err := some badDesc }
  else if x.accTiles < tile + 32 then { s, err := some (fcAddress, 4096 * (tile + 31)) }
  else match names.find? (fun n => (s.seqOf p l.number n).isNone), s.sourceFault i q rows l.dim with
    | some n, _ => { s, err := some (fcAddress, n) }
    | none, some f => { s, err := some f }
    | none, none =>
      if s.outside i o.inAcc o.off (spanOf rows o.stride (o.format.rowBytes l.dim)) then { s, err := some (fcAddress, o.off) }
      else
        let cells := s.loadCells i q rows l.dim
        let w := ((List.range names.length).zip names).foldl (fun (w : Work) mn =>
          match w.err, s.seqOf p l.number mn.2 with
          | none, some sq =>
            let snap := sq.len layer
            let sel := if mode = 0 then w.s.selection i (field d 181 160 + (if prefill then 0 else mn.1 * field d 223 192))
              else .ok (snap, [])
            match sel with
            | .error f => { w with err := some f }
            | .ok (selPos, ks) =>
              if prefill && decide (snap < qpos + toks) then { w with err := some (fcAddress, qpos) }
              else
                let s1 := if mode == 0 && !prefill && decide (selPos + l.get 63 56 < snap) then w.s.bump Key.kvStaleSelections
                  else w.s
                let top := if prefill then qpos + toks else snap
                s.attend { w with s := s1 } i l layer (BitVec.ofNat 32 (field d 287 256))
                  ((cells.drop (mn.1 * toks * gh)).take (toks * gh)) o (mn.1 * toks * gh)
                  (fun j => if prefill then qpos + j + 1 else snap)
                  (attendedBlocks sq mode (field d 239 224) snap selPos ks top)
          | _, _ => w) ({ s, seqs := names.map (fun n => (l.number, n)) } : Work)
        { w with s := w.s.freeTiles i tile 32 }

/-- The work of KVATTN. -/
def State.kvAttnWork (s : State) (i d : Nat) : Work :=
  let members := field d 158 150 + 1
  match s.layoutOf (s.slot i).pitch (field d 250 248) with
  | none => { s, err := some badDesc }
  | some l =>
    if !onlyBits d [(294, 256), (252, 192), (181, 160), (158, 128), (127, 0)] || 256 < members then { s, err := some badDesc }
    else match s.gangList i (field d 149 128) members with
      | .error f => { s, err := some f }
      | .ok names => s.attention i d l names 1 0 false

/-- KVATTN: attention of one query token per member (R361 to R366). -/
def execKvattn (u : SlotRef) (w : CmdWord) (s : State) : Host.Outcome State Fault Refusal :=
  .next (s.issueEngine u w 0x93 .d128 (fun _ => ([.m0, .m1, .vec], false)) State.kvAttnWork)

/-- The work of KVPREF. -/
def State.kvPrefWork (s : State) (i d : Nat) : Work :=
  match s.layoutOf (s.slot i).pitch (field d 250 248) with
  | none => { s, err := some badDesc }
  | some l =>
    if !onlyBits d [(351, 320), (294, 256), (252, 192), (181, 160), (155, 128), (127, 0)] then { s, err := some badDesc }
    else s.attention i d l [field d 143 128] (field d 155 144 + 1) (field d 351 320) true

/-- KVPREF: attention of a chunk of query tokens of one sequence (R367, R368). -/
def execKvpref (u : SlotRef) (w : CmdWord) (s : State) : Host.Outcome State Fault Refusal :=
  .next (s.issueEngine u w 0x94 .d128 (fun _ => ([.m0, .m1, .vec], false)) State.kvPrefWork)

end Sys2Proof.Machine
end

