-- ==== Sys2Proof/Machine/Recurrent.lean ====
section
/-! DEFINITION. Recurrent state: handles, RPROJ, RCELL, RSCAN, RCKPT and RSWAP (R379 to R413). A chunk takes its handle's hold
and copies the page at once, runs its steps when it completes or is stopped, and writes the page back then. -/

namespace Sys2Proof.Machine

/-! ### Handles and state pages (R384 to R388) -/

def State.handle (s : State) (h : Nat) : Handle := tabGet s.tier.handles h {}
def State.setHandle (s : State) (h : Nat) (v : Handle) : State :=
  { s with tier := { s.tier with handles := tabSet s.tier.handles h v } }
def State.modHandle (s : State) (h : Nat) (f : Handle → Handle) : State := s.setHandle h (f (s.handle h))

/-- Bytes of one FP32 array, offset of vector v in the page, and of its compensation words (R387). -/
def Handle.arr (h : Handle) : Nat := 64 * ceilDiv (4 * h.elems) 64
def Handle.vecOff (h : Handle) (v : Nat) : Nat := 64 + v * h.arr * (1 + flag h.comp)
def Handle.compOff (h : Handle) (v : Nat) : Nat := h.vecOff v + h.arr
def Handle.pageBytes (h : Handle) : Nat := 64 + h.vectors * h.arr * (1 + flag h.comp)

/-- The 64 B header of a state page (R386). -/
def Handle.header (h : Handle) (index steps stamp : Nat) : List Byte :=
  natLe 64 (steps % 2 ^ 64 + stamp % 2 ^ 64 * 2 ^ 64 + h.elems * 2 ^ 128 + h.vectors * 2 ^ 148 + flag h.comp * 2 ^ 150
    + h.generation.toNat * 2 ^ 152 + index * 2 ^ 168)

/-- The checks of a command that names a handle (R388). -/
def State.handleFault (s : State) (p h gen : Nat) : Option PitchFault :=
  let x := s.handle h
  if x.st = .free then some (fcHandle, h)
  else if x.pitch ≠ p then some (fcAddress, h)
  else if x.generation.toNat ≠ gen then some (fcHandle, h)
  else none

/-- The smallest page size of an extent that holds a number of bytes (R385). -/
def Extent.sizeFor (x : Extent) (bytes : Nat) : Option Nat :=
  (List.range 10).find? (fun k => decide (x.minLog2 ≤ k) && decide (k ≤ x.maxLog2) && decide (bytes ≤ 4096 * 2 ^ k))

/-- Allocate a page for a handle at a state address (R253, R385). -/
def State.allocHandlePage (s : State) (p a h : Nat) (bytes : Nat) (rq : Requester) : State × Option AllocStop :=
  match (s.extentAt p a).bind (·.sizeFor bytes) with
  | none => (s, some (.fault (if (s.extentAt p a).isNone then fcAddress else fcDescriptor, a)))
  | some k =>
    s.allocPage p a k rq (fun g => { g with handle := some h })

/-- A handle is bound: its page is allocated and takes its header (R385, R386); none where the page cannot be. -/
def State.bindHandle (s : State) (n : Nat) (h : Handle) : Option State :=
  match s.allocHandlePage h.pitch h.page n h.pageBytes .firmware with
  | (_, some _) => none
  | (s1, none) =>
    match (s1.setHandle n h).writeState h.pitch h.page (h.header n 0 0) .firmware with
    | (s2, none) => some s2
    | (_, some _) => none

/-- StateHandleBind (R385); ELEMS is 1 to 262,144 (R386). -/
def State.doStateHandleBind (s : State) (c : Caller) (v : List Byte) : State × Nat :=
  let d := leNat v
  let n := field d 11 0
  let p := field d 20 16
  let a := field d 111 64
  let h : Handle := { s.handle n with
    st := .bound, pitch := p, page := a, comp := bit d 24, vectors := field d 26 25, elems := field d 50 32, steps := 0 }
  if !onlyBits d [(11, 0), (20, 16), (24, 24), (26, 25), (50, 32), (111, 64)] then (s, stRange)
  else if !c.reaches (tenantOfTag (s.pitch p).tenantTag) then (s, stRole)
  else if (s.handle n).st ≠ .free || (s.pitch p).st = .free || h.vectors = 0 || 2 < h.vectors || h.elems = 0 || 262144 < h.elems then (s, stRefused)
  else match s.bindHandle n h with
    | none => (s, stRefused)
    | some s1 => (s1, stOk)

def execStateHandleBind (r : Req) (v : List Byte) (s : State) : Host.Outcome State Fault Refusal :=
  .next (s.runCmd r Key.stateHandleBind rkTenant v State.doStateHandleBind)

/-! ### Cells (R379 to R383) -/

/-- Gate products and carried vectors of a cell; 0 gates for the reserved code. -/
def cellGates (c : Nat) : Nat :=
  match c with
  | 0 => 1
  | 1 => 3
  | 2 => 4
  | _ => 0
def cellVectors (c : Nat) : Nat := if c = 2 then 2 else 1

/-- Feature index of gate g of hidden element k (R381). -/
def featureOf (gates g k : Nat) : Nat := (k / 32 * gates + g) * 32 + k % 32

/-- The linear update of R383: new value and compensation word. -/
def linUpdate (comp : Bool) (a x r b : Word) : Num × Num :=
  if comp then
    let e := ((f32Value a).mul ((f32Value x).add (f32Value r))).add (f32Value b)
    let x' := numOf [a, x, r, b] (f32Of e)
    (x', numOf [x'.bits] (f32Of (e.add (f32Value x'.bits).neg)))
  else (f32Fma a x b, { bits := r })

/-- One gate's terms: projection, matrix product, recurrent bias. -/
structure GateIn where
  p : Word
  prod : Word
  rb : Option Word
  deriving DecidableEq, Repr

/-- Product and bias, and the pre-activation P + product + rb (R380). -/
def GateIn.inner (g : GateIn) : Num :=
  match g.rb with
  | none => { bits := g.prod }
  | some b => f32Add g.prod b
def GateIn.z (g : GateIn) : List Num :=
  let t := f32Add g.p g.prod
  match g.rb with
  | none => [t]
  | some b => [t, f32Add t.bits b]

/-- One element of a cell: its new vectors and compensation words, and every value computed (R379, R383). -/
structure CellElem where
  vals : List Word
  comps : List Word
  nums : List Num
  deriving DecidableEq, Repr

/-- Activate: the pre-activation's values and the function's result. -/
def GateIn.act (op : Nat) (g : GateIn) : List Num × Word :=
  let zs := g.z
  let r := transcendental op ((zs.getLast?.map (·.bits)).getD 0)
  (zs ++ [r], r.bits)

def sigmOp := 0x50
def tanhOp := 0x4F
def one32 : Word := 0x3F800000

/-- The update of one element (R379): old vectors and compensation words by vector; those of a vector that is not compensated are
kept at +0 (R387). -/
def cellElem (cell : Nat) (comp : Bool) (gs : List GateIn) (v0 v1 r0 r1 : Word) : CellElem :=
  let g := fun k => nth gs k { p := 0, prod := 0, rb := none }
  match cell with
  | 0 =>
    let (ns, h) := (g 0).act tanhOp
    { vals := [h], comps := [0], nums := ns }
  | 1 =>
    let (n1, r) := (g 0).act sigmOp
    let (n2, u) := (g 1).act sigmOp
    let inner := (g 2).inner
    let ri := f32Mul r inner.bits
    let pre := f32Add (g 2).p ri.bits
    let n := transcendental tanhOp pre.bits
    let w := f32Sub one32 u
    let b := f32Mul w.bits n.bits
    let (h, c) := linUpdate comp u v0 r0 b.bits
    { vals := [h.bits], comps := [c.bits], nums := n1 ++ n2 ++ [inner, ri, pre, n, w, b, h, c] }
  | _ =>
    let (n1, i) := (g 0).act sigmOp
    let (n2, f) := (g 1).act sigmOp
    let (n3, gg) := (g 2).act tanhOp
    let (n4, o) := (g 3).act sigmOp
    let b := f32Mul i gg
    let (c, r) := linUpdate comp f v1 r1 b.bits
    let tc := transcendental tanhOp c.bits
    let h := f32Mul o tc.bits
    { vals := [h.bits, c.bits], comps := [0, r.bits], nums := n1 ++ n2 ++ n3 ++ n4 ++ [b, c, r, tc, h] }

/-- The carried vectors and compensation words, by vector. -/
structure Carried where
  vals : List (List Word)
  comps : List (List Word)
  deriving DecidableEq, Repr

/-- The working state at WORK_OFF: the page body (R387, R391). -/
def State.carried (s : State) (i work : Nat) (h : Handle) : Carried :=
  let arr := fun off => (List.range h.elems).map (fun k => BitVec.ofNat 32 (leNat (s.readSp i (work + off - 64 + 4 * k) 4)))
  { vals := (List.range h.vectors).map (fun v => arr (h.vecOff v))
    comps := (List.range h.vectors).map (fun v => if h.comp then arr (h.compOff v) else List.replicate h.elems 0) }

/-- The body bytes of carried vectors. -/
def Carried.bytes (c : Carried) (h : Handle) : List Byte :=
  let arr := fun (xs : List Word) => fitBytes h.arr (packCodes .fp32 (xs.map (·.toNat)))
  (List.range h.vectors).flatMap (fun v => arr (nth c.vals v []) ++ (if h.comp then arr (nth c.comps v []) else []))

/-- Write the working state, and write the page: header and body (R393). -/
def State.putCarried (s : State) (i work : Nat) (h : Handle) (c : Carried) : State := s.writeSp i work (c.bytes h)
def State.writePage (s : State) (i idx a steps : Nat) (c : Carried) : State × Option AllocStop :=
  let h := s.handle idx
  (s.passTag (.engine (coreOfSlot i))).writeState h.pitch a (h.header idx steps s.time ++ c.bytes h) (.core (coreOfSlot i))

/-! ### RPROJ (R389, R390) -/

/-- The work of RPROJ. -/
def State.rprojWork (s : State) (i d : Nat) : Work :=
  let x := s.slot i
  let a := x.opnd (field d 31 0) (field d 63 32) (field d 95 64)
  let b := x.opnd (field d 127 96) (field d 159 128) (field d 191 160)
  let o := x.opnd (field d 223 192) (field d 255 224) 0
  let g := cellGates (field d 332 331)
  let steps := field d 330 319 + 1
  let batch := field d 318 311 + 1
  let hid := field d 310 300 + 1
  let k := field d 299 288 + 1
  let m := steps * batch
  let n := g * hid
  let tile := field d 341 335
  let off := field d 277 256
  let ranges := [(341, 319), (318, 288), (278, 256), (255, 0)]
  let (ar, an) := if a.trans then (k, m) else (m, k)
  match firstFault [
      (!onlyBits d ranges || g == 0 || decide (steps < 16) || decide (hid < 32) || decide (2048 < hid) || hid % 32 != 0
        || !a.mmaOk || !b.mmaOk || !b.trans || !o.outOk m n || off % 64 != 0, badDesc),
      (decide (x.accTiles < tile + 8), (fcAddress, 4096 * (tile + 7))),
      (bit d 278 && s.outside i false off (4 * n), (fcAddress, off)),
      (s.outside i o.inAcc o.off (spanOf m o.stride (o.format.rowBytes n)), (fcAddress, o.off))] with
  | some f => { s, err := some f }
  | none =>
    match ((s.sourceFault i a ar an).or (s.sourceFault i b n k)).or (if bit d 278 then s.spPoisonFault i off (4 * n) else none) with
    | some f => { s, err := some f }
    | none =>
      let ra := s.loadCells i a ar an
      let rb := s.loadCells i b n k
      let bias := fun c => BitVec.ofNat 32 (leNat (s.readSp i (off + 4 * c) 4))
      let rows := (List.range m).map (fun r =>
        let out := (List.range n).map (fun c =>
          let (p, pm) := dotSum ((List.range k).map (fun q => ((matElem a.trans ra r q).bits, (elemAt rb c q).bits)))
          if bit d 278 then
            let t := f32Add p (bias c)
            (t.bits, pm.add t)
          else (p, pm))
        o.storeStep r (out.map (·.1)) (metOf out))
      { s := s.freeTiles i tile 8, met := (rowsMet ra).join (rowsMet rb), todo := joinSteps 32 rows }

/-- RPROJ: input projection of a chunk (R390). -/
def execRproj (u : SlotRef) (w : CmdWord) (s : State) : Host.Outcome State Fault Refusal :=
  .next (s.issueEngine u w 0xA1 .d128 (fun d => matEngines (field d 334 333)) State.rprojWork)

/-! ### Chunks: RCELL and RSCAN -/

/-- What running steps of a chunk left. -/
structure ChunkRun where
  s : State
  c : Carried
  met : Met := {}
  err : Option PitchFault := none
  stall : Option (Nat × Waits) := none
  deriving DecidableEq, Repr

/-- The fields of an RCELL descriptor. -/
structure CellDesc where
  u : Opnd
  p : Opnd
  y : Opnd
  cell : Nat
  steps : Nat
  batch : Nat
  hid : Nat
  work : Nat
  rb : Option Nat
  yEn : Bool
  every : Nat
  ckpt : Nat
  tile : Nat
  deriving DecidableEq, Repr

def Slot.cellDesc (x : Slot) (d : Nat) : CellDesc := {
  u := x.opnd (field d 31 0) (field d 63 32) (field d 95 64), p := x.opnd (field d 127 96) (field d 159 128) 0,
  y := x.opnd (field d 191 160) (field d 223 192) 0, cell := field d 340 339, steps := field d 338 327 + 1,
  batch := field d 326 319 + 1, hid := field d 318 308 + 1, work := field d 245 224,
  rb := if bit d 278 then some (field d 277 256) else none, yEn := bit d 279, every := field d 367 352, ckpt := field d 415 368,
  tile := field d 350 344 }

/-- One step of a cell over every batch row (R380, R396). -/
def State.cellStep (s : State) (i : Nat) (k : CellDesc) (h : Handle) (us : List (List Num)) (t : Nat) (c : Carried) :
    Carried × Met :=
  let g := cellGates k.cell
  let v := fun n => nth c.vals n []
  let r := fun n => nth c.comps n []
  let elems := (List.range k.batch).flatMap (fun b =>
    let hat := ((v 0).drop (b * k.hid) |>.take k.hid).map toBf16
    let hw := hat.map (fun n => ofBf16 n.bits.toNat)
    let ps := s.loadRow i k.p (t * k.batch + b) (g * k.hid)
    (List.range k.hid).map (fun e =>
      let ins := (List.range g).map (fun gate =>
        let n := featureOf g gate e
        let (prod, m) := dotSum (((nth us n []).map (·.bits)).zip hw)
        (({ p := (nth ps n { bits := 0 }).bits, prod, rb := k.rb.map (fun off => BitVec.ofNat 32 (leNat (s.readSp i (off + 4 * n) 4))) }
          : GateIn), m))
      let j := b * k.hid + e
      let x := cellElem k.cell h.comp (ins.map (·.1)) (nth (v 0) j 0) (nth (v 1) j 0) (nth (r 0) j 0) (nth (r 1) j 0)
      (x, ((ins.map (·.2)).foldl Met.join (rowsMet [x.nums, hat])).join (rowsMet [ps]))))
  ({ vals := (List.range h.vectors).map (fun n => elems.map (fun x => nth x.1.vals n 0))
     comps := (List.range h.vectors).map (fun n => elems.map (fun x => nth x.1.comps n 0)) },
   elems.foldl (fun m x => m.join x.2) {})

/-- Run steps [from, to) of an RCELL, `ran` steps after those that STEPS counts, with the rows of Y and the periodic checkpoints (R396, R402). -/
def State.runCell (s : State) (i idx : Nat) (k : CellDesc) (ran lo hi : Nat) : ChunkRun :=
  let h := s.handle idx
  let us := s.loadCells i k.u (cellGates k.cell * k.hid) k.hid
  (List.range (hi - lo)).foldl (fun (r : ChunkRun) n =>
    if r.err.isSome || r.stall.isSome then r
    else
      let t := lo + n
      let (c, m) := r.s.cellStep i k h us t r.c
      let (s1, ym) := if k.yEn then (List.range k.batch).foldl (fun (sm : State × Met) b =>
          let (s', km) := sm.1.storeRow i k.y (t * k.batch + b) ((nth c.vals 0 []).drop (b * k.hid) |>.take k.hid)
          (s', sm.2.join km)) (r.s, {}) else (r.s, {})
      let count := h.steps + ran + n + 1
      let r1 : ChunkRun := { s := s1, c, met := r.met.join (m.join ym) }
      if k.every != 0 && count % k.every == 0 then
        match s1.writePage i idx k.ckpt count c with
        | (s2, none) => { r1 with s := s2 }
        | (s2, some (.fault f)) => { r1 with s := s2, err := some f }
        | (s2, some (.stall a w)) => { r1 with s := s2, stall := some (a, w) }
      else r1) { s, c := s.carried i k.work h, met := rowsMet us }

/-- The fields of an RSCAN descriptor. -/
structure ScanDesc where
  a : Opnd
  b : Opnd
  y : Opnd
  steps : Nat
  work : Nat
  yEn : Bool
  deriving DecidableEq, Repr

def Slot.scanDesc (x : Slot) (d : Nat) : ScanDesc := {
  a := x.opnd (field d 31 0) (field d 63 32) 0, b := x.opnd (field d 95 64) (field d 127 96) 0,
  y := x.opnd (field d 159 128) (field d 191 160) 0, steps := field d 255 244 + 1, work := field d 213 192, yEn := bit d 214 }

/-- The local scan of one element over a segment: (lp, lq) of each step (R398). -/
def localScan : List (Word × Word) → Word → Word → List (Num × Num)
  | [], _, _ => []
  | (a, b) :: rest, p, q =>
    let p' := f32Mul p a
    let q' := f32Fma a q b
    (p', q') :: localScan rest p'.bits q'.bits

/-- One segment of one element: its outputs, the new carry and compensation word (R398). -/
def scanSegment (comp : Bool) (abs : List (Word × Word)) (carry r : Word) : List Num × Num × Num × List Num :=
  let ls := localScan abs one32 0
  let ys := ls.map (fun l => f32Fma l.1.bits carry l.2.bits)
  match ls.getLast? with
  | none => ([], { bits := carry }, { bits := r }, [])
  | some l =>
    let (c, r') := linUpdate comp l.1.bits carry r l.2.bits
    (ys, c, r', ls.flatMap (fun l => [l.1, l.2]))

/-- Run segments of an RSCAN from step `lo` to step `hi` (R398, R399). -/
def State.runScan (s : State) (i idx : Nat) (k : ScanDesc) (lo hi : Nat) : ChunkRun :=
  let h := s.handle idx
  (List.range (ceilDiv (hi - lo) 16)).foldl (fun (r : ChunkRun) n =>
    let t0 := lo + 16 * n
    let len := min 16 (hi - t0)
    let av := (List.range len).map (fun t => s.loadRow i k.a (t0 + t) h.elems)
    let bv := (List.range len).map (fun t => s.loadRow i k.b (t0 + t) h.elems)
    let es := (List.range h.elems).map (fun e =>
      scanSegment h.comp ((List.range len).map (fun t => ((elemAt av t e).bits, (elemAt bv t e).bits))) (nth (nth r.c.vals 0 []) e 0)
        (nth (nth r.c.comps 0 []) e 0))
    let (s1, ym) := if k.yEn then (List.range len).foldl (fun (sm : State × Met) t =>
        let (s', km) := sm.1.storeRow i k.y (t0 + t) (es.map (fun x => (nth x.1 t { bits := 0 }).bits))
        (s', sm.2.join km)) (r.s, {}) else (r.s, {})
    let met := es.foldl (fun m x => (m.add x.2.1).add x.2.2.1) ((rowsMet (es.map (fun x => x.1 ++ x.2.2.2))).join ym)
    { r with s := s1, c := { vals := [es.map (·.2.1.bits)], comps := [es.map (·.2.2.1.bits)] },
             met := r.met.join (met.join ((rowsMet av).join (rowsMet bv))) }) { s, c := s.carried i k.work h }

/-- Opcodes of the commands under a hold. -/
def opRcell := 0xA0
def opRscan := 0xA2
def opRckpt := 0xA3
def opRswap := 0xA4

/-- Is the command a chunk. -/
def Job.isChunk (j : Job) : Bool := j.opcode == opRcell || j.opcode == opRscan

/-- Slot of a job's command with the scalar registers it was issued with. -/
def State.issuedSlot (s : State) (i : Nat) (k : Chunk) : Slot := { s.slot i with regs := k.regs }

/-- Run a chunk's steps [from, to). -/
def State.runChunk (s : State) (j : Job) (k : Chunk) (hi : Nat) : ChunkRun :=
  let x := s.issuedSlot j.slot k
  if j.opcode = opRcell then s.runCell j.slot k.handle (x.cellDesc k.words) k.ran k.steps hi
  else s.runScan j.slot k.handle (x.scanDesc k.words) k.steps hi

/-- Steps of a chunk, and its working state's offset. -/
def State.chunkSteps (s : State) (j : Job) (k : Chunk) : Nat :=
  let x := s.issuedSlot j.slot k
  if j.opcode = opRcell then (x.cellDesc k.words).steps else (x.scanDesc k.words).steps
def State.chunkWork (s : State) (j : Job) (k : Chunk) : Nat :=
  let x := s.issuedSlot j.slot k
  if j.opcode = opRcell then (x.cellDesc k.words).work else (x.scanDesc k.words).work

/-! ### The hold (R393, R394, R403, R406 to R409) -/

/-- The entry of a command among a handle's waiters. -/
def Job.entry (j : Job) : Nat := 2 * j.slot + flag (j.engines.contains .xfr)
/-- The entry of StateHandleSwap. -/
def mcEntry := 384

/-- The job of an entry that names a handle. -/
def State.entryJob (s : State) (h e : Nat) : Option Job :=
  (s.core (coreOfSlot (e / 2))).jobs.find? (fun j => j.entry == e && j.slot == e / 2 && j.chunk.elim false (·.handle == h))

/-- Change the job of an entry. -/
def State.modEntry (s : State) (j : Job) (f : Job → Job) : State :=
  match j.engines.head? with
  | none => s
  | some e => s.modJob j.slot e f

/-- Copy a whole state page between state addresses of the handle's pitch. -/
def State.copyPage (s : State) (h : Handle) (src dst : Nat) (rq : Requester) : State × Option AllocStop :=
  let holder : TagHolder := match rq with
    | .core c => .engine c
    | _ => .tierUnit
  match (s.passTag holder).readState h.pitch src h.pageBytes rq with
  | (s1, _, some f) => (s1, some (.fault f))
  | (s1, bs, none) => s1.writeState h.pitch dst bs rq

/-- Copy a handle's page to a page allocated at an address (R406, R409). -/
def State.copyTo (s : State) (idx src dst : Nat) (rq : Requester) : State × Option AllocStop :=
  let h := s.handle idx
  match s.allocHandlePage h.pitch dst idx h.pageBytes rq with
  | (s1, none) => s1.copyPage h src dst rq
  | r => r

/-- Free the page of a pitch that covers an address. -/
def State.freeAt (s : State) (p a : Nat) : State := (s.pageAt p a).elim s (fun g => s.freePage g.id)

/-- Commands of a handle's queue that stall once it is swapped out (R407). -/
def State.countStalls (s : State) (idx : Nat) : State :=
  let n := ((s.handle idx).waiting.filter (fun e => (s.entryJob idx e).elim false (·.isChunk))).length
  if n = 0 then s else s.bump Key.chunkStalls n

/-- The end of a swap-out and of a swap-in (R406, R409). -/
def State.endSwapOut (s : State) (idx addr : Nat) : State :=
  let h := s.handle idx
  ((s.freeAt h.pitch h.page).modHandle idx (fun h => { h with st := .swapped, backing := addr })).countStalls idx
def State.endSwapIn (s : State) (idx addr : Nat) : State :=
  let h := s.handle idx
  (s.freeAt h.pitch h.backing).modHandle idx (fun h => { h with st := .bound, page := addr, backing := 0 })

/-- The generation that a command under a hold names (R388). -/
def Job.chunkGen (j : Job) (k : Chunk) : Nat :=
  if j.opcode = opRcell then field k.words 307 292 else if j.opcode = opRscan then field k.words 243 228 else field k.words 31 16

/-- What taking the hold leaves: the state, what kept the command from starting, and its completion's effects. -/
structure Taken where
  s : State
  stop : Option AllocStop := none
  done : List Done := []
  deriving DecidableEq, Repr

/-- A chunk takes the hold: its handle must fit it; the page body is copied to its working state (R392, R393, R400). -/
def State.takeChunk (s : State) (j : Job) (k : Chunk) : Taken :=
  let h := s.handle k.handle
  let x := s.issuedSlot j.slot k
  let c := x.cellDesc k.words
  let fits := if j.opcode = opRcell then h.elems == c.batch * c.hid && h.vectors == cellVectors c.cell else h.vectors == 1
  if !fits then { s, stop := some (.fault (fcDescriptor, j.desc)) }
  else match (s.passTag (.engine (coreOfSlot j.slot))).readState h.pitch (h.page + 64) (h.pageBytes - 64)
      (.core (coreOfSlot j.slot)) with
    | (s1, _, some f) => { s := s1, stop := some (.fault f) }
    | (s1, bs, none) => { s := s1.writeSp j.slot (s.chunkWork j k) bs, done := [.handleRelease k.handle] }

/-- RCKPT and RSWAP take the hold (R403, R406, R407, R409). -/
def State.takeMove (s : State) (j : Job) (k : Chunk) : Taken :=
  let idx := k.handle
  let h := s.handle idx
  let rq := Requester.core (coreOfSlot j.slot)
  let addr := field k.words 111 64
  let plain : Taken := { s, done := [.handleRelease idx] }
  let of := fun (r : State × Option AllocStop) (d : List Done) => ({ s := r.1, stop := r.2, done := d ++ [.handleRelease idx] } : Taken)
  if j.opcode = opRckpt then of (s.copyPage h h.page addr rq) []
  else if field k.words 33 32 = 0 then
    if h.st = .bound then of ((s.modHandle idx (fun h => { h with st := .swapping })).copyTo idx h.page addr rq) [.swapOut idx addr]
    else plain
  else if h.st = .swapped then of (s.copyTo idx h.backing addr rq) [.swapIn idx addr]
  else plain

/-- May an entry take the hold in the handle's state (R407). -/
def State.mayTake (s : State) (idx e : Nat) : Bool :=
  match (s.handle idx).st with
  | .bound => true
  | .swapped => e == mcEntry || (s.entryJob idx e).elim false (fun j => j.opcode == opRswap)
  | _ => false

/-- StateHandleSwap's swap-out, once it has the hold (R411): where its page cannot be made it has no effect. -/
def State.mcSwapOut (s : State) (idx addr : Nat) : State :=
  let h := s.handle idx
  if h.st = .bound then
    match s.copyTo idx h.page addr .firmware with
    | (s1, none) => s1.endSwapOut idx addr
    | (_, some (.stall a w)) => (s.modHandle idx (fun h => { h with waiting := mcEntry :: h.waiting })).stallQuota h.pitch (a, w)
    | _ => s
  else s

/-- Give a free hold to the first waiter that may take it; the tier unit checks the handle again (R388). -/
def State.grantOne (s : State) (idx : Nat) : State :=
  let h := s.handle idx
  if h.held.isSome then s
  else match h.waiting.find? (s.mayTake idx) with
    | none => s
    | some e =>
      let s1 := s.modHandle idx (fun h => { h with waiting := h.waiting.filter (· != e) })
      if e = mcEntry then s1.mcSwapOut idx h.swapAddr
      else match s1.entryJob idx e with
        | none => s1
        | some j =>
          match j.chunk with
          | none => s1
          | some k =>
            let t := if let some f := s1.handleFault (s1.slot j.slot).pitch idx (j.chunkGen k) then ({ s := s1, stop := some (.fault f) } : Taken)
              else if j.isChunk then (s1.modHandle idx (fun h => { h with held := some e })).takeChunk j k
              else (s1.modHandle idx (fun h => { h with held := some e })).takeMove j k
            match t.stop with
            | some (.fault f) => t.s.faultSlot j.slot f j.opcode j.cmdPtr
            | some (.stall a w) => s.stallQuota h.pitch (a, w)
            | none => (t.s.modEntry j (fun j => { j with wait := .none, onDone := t.done })).reassign (coreOfSlot j.slot)

/-- Grant the hold until it is taken or nobody may take it. -/
def State.grant (s : State) (idx : Nat) : State :=
  (List.range ((s.handle idx).waiting.length + 1)).foldl (fun (t : State) _ => t.grantOne idx) s

/-- Release the hold and grant it on (R394). -/
def State.releaseHold (s : State) (idx : Nat) : State := (s.modHandle idx (fun h => { h with held := none })).grant idx

/-- Stop the chunk that holds a handle at the end of a step: its working state and count go to the page, and it waits with
its next step recorded (R408). Which step is in progress the model leaves free; an RSCAN stops at a segment's end. -/
def State.stopChunk (s : State) (idx : Nat) : State :=
  let h := s.handle idx
  match h.held.bind (fun e => (s.entryJob idx e).map (fun j => (e, j))) with
  | none => s
  | some (e, j) =>
    match j.isChunk, j.chunk with
    | true, some k =>
      let left := s.chunkSteps j k - k.steps
      let (c, s1) := s.fresh
      let n := Config.freeNat c % (max 1 left) + 1
      let n' := min left (if j.opcode = opRcell then n else ceilDiv n 16 * 16)
      let r := s1.runChunk j k (k.steps + n')
      match r.err, r.stall with
      | some f, _ => (r.s.meet j.slot r.met).faultSlot j.slot f j.opcode j.cmdPtr
      | none, some w => s.stallQuota h.pitch w
      | none, none =>
        match (r.s.putCarried j.slot (s.chunkWork j k) h r.c).writePage j.slot idx h.page (h.steps + k.ran + n') r.c with
        | (s2, some (.fault f)) => s2.faultSlot j.slot f j.opcode j.cmdPtr
        | (_, some (.stall a w)) => s.stallQuota h.pitch (a, w)
        | (s2, none) =>
          let s3 := (s2.meet j.slot r.met).modEntry j (fun j => { j with
            running := [], wait := .handle idx, onDone := [], conds := j.conds ++ [(j.engines.headD .m0, r.met.fl)],
            chunk := some { k with steps := k.steps + n', ran := 0 } })
          (s3.modHandle idx (fun h => { h with steps := h.steps + k.ran + n', held := none, waiting := e :: h.waiting })).reassign
            (coreOfSlot j.slot)
    | _, _ => s

/-- A chunk that holds its handle runs its next unit of steps, keeping the carried state in its working memory (R101, R393); the last unit
is the completion's. -/
def State.stepChunk (s : State) (j : Job) (n : Nat) : State :=
  match j.chunk with
  | none => s
  | some k =>
    if j.wait != .none || s.chunkSteps j k ≤ k.steps + n then s
    else
      let r := s.runChunk j k (k.steps + n)
      match r.err, r.stall with
      | some f, _ => (r.s.meet j.slot r.met).faultSlot j.slot f j.opcode j.cmdPtr
      | none, some w => s.stallQuota (s.handle k.handle).pitch w
      | none, none =>
        ((r.s.putCarried j.slot (s.chunkWork j k) (s.handle k.handle) r.c).meet j.slot r.met).modEntry j (fun j => { j with
          conds := j.conds ++ [(j.engines.headD .m0, r.met.fl)]
          chunk := some { k with steps := k.steps + n, ran := k.ran + n } })

/-- The end of a chunk: its last steps, the write-back and the header (R393); none where tier B space is missing. -/
def State.finishChunk (s : State) (j : Job) (k : Chunk) : State × Option AllocStop × Met :=
  let h := s.handle k.handle
  let hi := s.chunkSteps j k
  let r := s.runChunk j k hi
  match r.err, r.stall with
  | some f, _ => (r.s, some (.fault f), r.met)
  | none, some w => (r.s, some (.stall w.1 w.2), r.met)
  | none, none =>
    let n := k.ran + (hi - k.steps)
    match (r.s.putCarried j.slot (s.chunkWork j k) h r.c).writePage j.slot k.handle h.page (h.steps + n) r.c with
    | (s1, none) =>
      let x := s.issuedSlot j.slot k
      let c := x.cellDesc k.words
      let s2 := s1.modHandle k.handle (fun h => { h with steps := h.steps + n })
      (if j.opcode = opRcell then s2.freeTiles j.slot c.tile (2 * cellGates c.cell * ceilDiv c.batch 32) else s2, none, r.met)
    | (s1, e) => (s1, e, r.met)

/-! ### The commands -/

/-- Put a command of slot i among a handle's waiters; one that meets a SWAPPED handle stalls and is counted (R394, R407). -/
def State.awaitHandle (s : State) (i idx d : Nat) (xfr chunk : Bool) : Work :=
  let s1 := s.modHandle idx (fun h => { h with waiting := h.waiting ++ [2 * i + flag xfr] })
  { s := if chunk && (s.handle idx).st == .swapped then s1.bump Key.chunkStalls else s1, wait := .handle idx,
    chunk := some { words := d, regs := (s.slot i).regs, handle := idx } }

/-- The work of RCELL at issue: its checks, and its place among the handle's waiters (R388, R391, R392). -/
def State.rcellWork (s : State) (i d : Nat) : Work :=
  let x := s.slot i
  let k := x.cellDesc d
  let g := cellGates k.cell
  let idx := field d 291 280
  let h := s.handle idx
  let n := g * k.hid
  let tiles := 2 * g * ceilDiv k.batch 32
  if !onlyBits d [(415, 352), (350, 342), (340, 319), (318, 292), (291, 256), (245, 0)] || g = 0 || k.steps < 16 || k.hid < 32
      || 2048 < k.hid || k.hid % 32 != 0 || !k.u.mmaOk || !k.u.trans || k.p.trans || !k.p.fmtIn [.fp32, .bf16] || !k.p.wordsOk
      || !k.p.aligned (k.steps * k.batch) || (k.yEn && !k.y.outOk (k.steps * k.batch) k.hid) || k.work % 64 != 0
      || k.ckpt % 64 != 0 then { s, err := some badDesc }
  else match s.handleFault x.pitch idx (field d 307 292) with
    | some f => { s, err := some f }
    | none =>
      match firstFault [
          (decide (x.accTiles < k.tile + tiles), (fcAddress, 4096 * (k.tile + tiles - 1))),
          (k.rb.elim false (fun off => s.outside i false off (4 * n)), (fcAddress, k.rb.getD 0)),
          (k.yEn && s.outside i k.y.inAcc k.y.off (spanOf (k.steps * k.batch) k.y.stride (k.y.format.rowBytes k.hid)),
            (fcAddress, k.y.off)),
          (s.outside i false k.work (h.pageBytes - 64), (fcAddress, k.work))] with
      | some f => { s, err := some f }
      | none =>
        match ((s.sourceFault i k.u n k.hid).or (s.sourceFault i k.p (k.steps * k.batch) n)).or
            (k.rb.bind (fun off => s.spPoisonFault i off (4 * n))) with
        | some f => { s, err := some f }
        | none => s.awaitHandle i idx d false true

/-- The engines of an RCELL: a matrix engine by ENGINE, and the vector engine (R124, R391). -/
def cellEngines (d : Nat) : List Engine × Bool :=
  let (es, either) := matEngines (field d 343 342)
  (es ++ [.vec], either)

/-- RCELL: serial steps of a gated cell (R393). -/
def execRcell (u : SlotRef) (w : CmdWord) (s : State) : Host.Outcome State Fault Refusal :=
  let t := s.issueEngine u w 0xA0 .d128 cellEngines State.rcellWork
  .next ((t.tier.handles.map (·.1)).foldl State.grant t)

/-- The work of RSCAN at issue (R388, R399). -/
def State.rscanWork (s : State) (i d : Nat) : Work :=
  let x := s.slot i
  let k := x.scanDesc d
  let idx := field d 227 216
  let h := s.handle idx
  if !onlyBits d [(255, 216), (214, 0)] || k.steps < 16 || k.work % 64 != 0 || k.a.trans || k.b.trans
      || !k.a.fmtIn [.fp32, .bf16] || !k.b.fmtIn [.fp32, .bf16] || !k.a.wordsOk || !k.b.wordsOk || !k.a.aligned k.steps
      || !k.b.aligned k.steps then { s, err := some badDesc }
  else match s.handleFault x.pitch idx (field d 243 228) with
    | some f => { s, err := some f }
    | none =>
      if k.yEn && !k.y.outOk k.steps h.elems then { s, err := some badDesc }
      else match firstFault [
          (k.yEn && s.outside i k.y.inAcc k.y.off (spanOf k.steps k.y.stride (k.y.format.rowBytes h.elems)), (fcAddress, k.y.off)),
          (s.outside i false k.work (h.pageBytes - 64), (fcAddress, k.work))] with
      | some f => { s, err := some f }
      | none =>
        match (s.sourceFault i k.a k.steps h.elems).or (s.sourceFault i k.b k.steps h.elems) with
        | some f => { s, err := some f }
        | none => s.awaitHandle i idx d false true

/-- RSCAN: scan of a diagonal linear recurrence (R398). -/
def execRscan (u : SlotRef) (w : CmdWord) (s : State) : Host.Outcome State Fault Refusal :=
  let t := s.issueEngine u w 0xA2 .d128 (fun _ => ([.vec], false)) State.rscanWork
  .next ((t.tier.handles.map (·.1)).foldl State.grant t)

/-- The work of RCKPT at issue (R388, R403). -/
def State.rckptWork (s : State) (i d : Nat) : Work :=
  let idx := field d 11 0
  if !onlyBits d (commonBits ++ [(111, 64), (31, 16), (11, 0)]) || !directOp d 0xA3 || xSwap d != 0 || field d 111 64 % 64 != 0 then
    { s, err := some badDesc }
  else match (s.handleFault (s.slot i).pitch idx (field d 31 16)).or
      (if s.cmplBad i d then some (fcAddress, xCmplLine d) else none) with
    | some f => { s, err := some f }
    | none => { s.awaitHandle i idx d true false with cmpl := xCmpl d }

/-- RCKPT: copy a handle's whole page (R403). -/
def execRckpt (u : SlotRef) (w : CmdWord) (s : State) : Host.Outcome State Fault Refusal :=
  let t := s.issueEngine u w 0xA3 .d64 xfrOnly State.rckptWork
  .next ((t.tier.handles.map (·.1)).foldl State.grant t)

/-- Revoke a handle (R410): the generation advances, its page is freed or kept, and every command that names it faults. -/
def State.revoke (s : State) (idx : Nat) (keep : Bool) : State × List Job :=
  let h := s.handle idx
  let jobs := (h.held.toList ++ h.waiting).filterMap (s.entryJob idx)
  let a := if h.st = .swapped then h.backing else h.page
  let s1 := if keep then (match s.pageAt h.pitch a with
      | some g => s.modPage g.id (fun g => { g with handle := none })
      | none => s) else s.freeAt h.pitch a
  let s2 := s1.setHandle idx { generation := h.generation + 1 }
  (if jobs.isEmpty then s2 else s2.bump Key.handleRevokeFaults jobs.length, jobs)

/-- A forced swap-out puts itself before the waiting commands (R408). -/
def State.forceSwap (s : State) (idx e : Nat) : State :=
  let s1 := s.stopChunk idx
  (s1.bump Key.forcedSwaps).modHandle idx (fun h => { h with waiting := e :: h.waiting.filter (· != e) })

/-- The work of RSWAP (R388, R405 to R410). -/
def State.rswapWork (s : State) (i d : Nat) : Work :=
  let idx := field d 11 0
  let action := field d 33 32
  if !onlyBits d (commonBits ++ [(111, 64), (35, 32), (31, 16), (11, 0)]) || !directOp d 0xA4 || xSwap d != 0 || action = 3
      || (action = 2 && field d 111 64 != 0) || (bit d 34 && action != 0) || (bit d 35 && action != 2) then
    { s, err := some badDesc }
  else match (s.handleFault (s.slot i).pitch idx (field d 31 16)).or
      (if s.cmplBad i d then some (fcAddress, xCmplLine d) else none) with
    | some f => { s, err := some f }
    | none =>
      if action = 2 then
        let (s1, jobs) := s.revoke idx (bit d 35)
        { s := s1, cmpl := xCmpl d, err := if jobs.isEmpty then none else some (fcHandle, idx) }
      else
        let w := { s.awaitHandle i idx d true false with cmpl := xCmpl d }
        if action = 0 && bit d 34 && (s.handle idx).st == .bound then { w with s := w.s.forceSwap idx (2 * i + 1) } else w

/-- Issue an RSWAP whose ACTION is the one of the row; another ACTION is another row's command. -/
def State.rswap (s : State) (u : SlotRef) (w : CmdWord) (action : Nat) : State :=
  let other := match s.readDesc (slotIndex u) w.toNat .d64 with
    | .ok d => field d 33 32 != action && field d 33 32 != 3
    | .error _ => false
  if other then s
  else
    let t := s.issueEngine u w 0xA4 .d64 xfrOnly State.rswapWork
    (t.tier.handles.map (·.1)).foldl State.grant t

/-- RSWAP OUT (R406, R408). -/
def execRswapOut (u : SlotRef) (w : CmdWord) (s : State) : Host.Outcome State Fault Refusal := .next (s.rswap u w 0)

/-- RSWAP IN (R409). -/
def execRswapIn (u : SlotRef) (w : CmdWord) (s : State) : Host.Outcome State Fault Refusal := .next (s.rswap u w 1)

/-- RSWAP REVOKE (R410). -/
def execRswapRevoke (u : SlotRef) (w : CmdWord) (s : State) : Host.Outcome State Fault Refusal := .next (s.rswap u w 2)

/-- StateHandleRevoke (R410). -/
def State.doStateHandleRevoke (s : State) (c : Caller) (v : List Byte) : State × Nat :=
  let d := leNat v
  let idx := field d 11 0
  let h := s.handle idx
  if !onlyBits d [(11, 0), (15, 15)] then (s, stRange)
  else if h.st = .free then (s, stRefused)
  else if !c.reaches (tenantOfTag (s.pitch h.pitch).tenantTag) then (s, stRole)
  else
    let (s1, jobs) := s.revoke idx (bit d 15)
    (match jobs.head? with
      | none => s1
      | some j => s1.faultSlot j.slot (fcHandle, idx) j.opcode j.cmdPtr, stOk)

def execStateHandleRevoke (r : Req) (v : List Byte) (s : State) : Host.Outcome State Fault Refusal :=
  .next (s.runCmd r Key.stateHandleRevoke rkTenant v State.doStateHandleRevoke)

/-- A swap-out of a handle is asked for, its hold taken if it is free or FORCE takes it (R406, R408, R411). -/
def State.askSwapOut (s : State) (idx addr : Nat) (force : Bool) : State :=
  let s1 := s.modHandle idx (fun h => { h with swapAddr := addr, waiting := h.waiting ++ [mcEntry] })
  (if force then s1.forceSwap idx mcEntry else s1).grant idx

/-- StateHandleSwap OUT and IN (R411). -/
def State.doStateHandleSwap (s : State) (c : Caller) (v : List Byte) : State × Nat :=
  let d := leNat v
  let idx := field d 11 0
  let addr := field d 111 64
  let h := s.handle idx
  if !onlyBits d [(13, 0), (111, 64)] then (s, stRange)
  else if h.st = .free || (bit d 12 && bit d 13) then (s, stRefused)
  else if !c.reaches (tenantOfTag (s.pitch h.pitch).tenantTag) then (s, stRole)
  else if bit d 12 then
    if h.st = .bound then (s, stOk)
    else if h.st = .swapping || h.held.isSome then (s, stBusy)
    else match s.copyTo idx h.backing addr .firmware with
      | (s1, none) => ((s1.endSwapIn idx addr).grant idx, stOk)
      | _ => (s, stRefused)
  else if h.st = .swapped then (s, stOk)
  else if h.waiting.contains mcEntry then (s, stBusy)
  else
    let s2 := s.askSwapOut idx addr (bit d 13)
    (s2, if (s2.handle idx).waiting.contains mcEntry then stInProgress
      else if (s2.handle idx).st = .swapped then stOk else stRefused)

/-- Does a StateHandleSwap value name IN. -/
def swapIsIn (v : List Byte) : Bool := bit (leNat v) 12

/-- StateHandleSwap with OUT; a value that names IN is the other row's command. -/
def execStateHandleSwapOut (r : Req) (v : List Byte) (s : State) : Host.Outcome State Fault Refusal :=
  .next (if swapIsIn v then s else s.runCmd r Key.stateHandleSwap rkTenant v State.doStateHandleSwap)

/-- StateHandleSwap with IN. -/
def execStateHandleSwapIn (r : Req) (v : List Byte) (s : State) : Host.Outcome State Fault Refusal :=
  .next (if swapIsIn v then s.runCmd r Key.stateHandleSwap rkTenant v State.doStateHandleSwap else s)

end Sys2Proof.Machine
end

