-- ==== Sys2Proof/Machine/Windows.lean ====
section
/-! DEFINITION. Sliding windows: the window geometry block, padding, WCONV, WPOOL and WEXPAND (R414 to R442). -/

namespace Sys2Proof.Machine

/-- The window geometry block of a descriptor (R427). -/
structure Geometry where
  img : Opnd
  pad : Word
  fullH : Nat
  fullW : Nat
  tapY : Nat
  tapX : Nat
  padB : Nat
  padT : Nat
  padR : Nat
  padL : Nat
  strideY : Nat
  strideX : Nat
  mode : Nat
  dilY : Nat
  dilX : Nat
  kh : Nat
  kw : Nat
  ch : Nat
  inH : Nat
  inW : Nat
  pix : Nat
  oy0 : Nat
  ox0 : Nat
  blkH : Nat
  blkW : Nat
  deriving DecidableEq, Repr

def Slot.geometry (x : Slot) (d : Nat) : Geometry := {
  img := x.opnd (field d 287 256) (field d 319 288) 0, pad := BitVec.ofNat 32 (field d 255 224), fullH := field d 223 216 + 1,
  fullW := field d 215 208 + 1, tapY := field d 207 200, tapX := field d 199 192, padB := field d 191 184,
  padT := field d 183 176, padR := field d 175 168, padL := field d 167 160, strideY := field d 159 154 + 1,
  strideX := field d 153 148 + 1, mode := field d 147 146, dilY := field d 143 136, dilX := field d 135 128,
  kh := field d 127 124 + 1, kw := field d 123 120 + 1, ch := field d 119 108 + 1, inH := field d 107 94 + 1,
  inW := field d 93 80 + 1, pix := field d 79 64, oy0 := field d 63 50, ox0 := field d 49 36, blkH := field d 35 28 + 1,
  blkW := field d 27 20 + 1 }

/-- Bit ranges of the geometry block. -/
def geometryBits : List (Nat × Nat) := [(319, 146), (143, 20)]

/-- Output size along one axis, 0 where it is not positive (R417). -/
def outSize (n lo hi dil k stride : Nat) : Nat :=
  if n + lo + hi < dil * (k - 1) + 1 then 0 else (n + lo + hi - dil * (k - 1) - 1) / stride + 1

def Geometry.outH (g : Geometry) : Nat := outSize g.inH g.padT g.padB g.dilY g.fullH g.strideY
def Geometry.outW (g : Geometry) : Nat := outSize g.inW g.padL g.padR g.dilX g.fullW g.strideX

/-- Element bytes of the image, elements of a window, pixels of the block. -/
def Geometry.elem (g : Geometry) : Nat := g.img.format.bits / 8
def Geometry.taps (g : Geometry) : Nat := g.kh * g.kw
def Geometry.reduction (g : Geometry) : Nat := g.taps * g.ch
def Geometry.pixels (g : Geometry) : Nat := g.blkH * g.blkW

/-- Is the geometry permitted (R415, R417, R418, R429). -/
def Geometry.ok (g : Geometry) : Bool :=
  !g.img.trans && !g.img.inAcc && g.img.fmtIn [.fp32, .bf16] && g.img.wordsOk && g.pix % 64 == 0
    && decide (g.ch * g.elem ≤ g.pix) && decide (g.inW * g.pix ≤ g.img.stride) && decide (g.kh ≤ 15) && decide (g.kw ≤ 15)
    && g.dilY != 0 && g.dilX != 0 && g.outH != 0 && g.outW != 0 && decide (g.tapY + g.kh ≤ g.fullH)
    && decide (g.tapX + g.kw ≤ g.fullW) && decide (g.oy0 + g.blkH ≤ g.outH) && decide (g.ox0 + g.blkW ≤ g.outW)

/-- Input row and column of a tap of pixel m (R428, R429). -/
def Geometry.rowOf (g : Geometry) (m ky : Nat) : Int :=
  ((g.oy0 + m / g.blkW) * g.strideY + (g.tapY + ky) * g.dilY : Nat) - (g.padT : Int)
def Geometry.colOf (g : Geometry) (m kx : Nat) : Int :=
  ((g.ox0 + m % g.blkW) * g.strideX + (g.tapX + kx) * g.dilX : Nat) - (g.padL : Int)

/-- Does a position lie inside an axis of n. -/
def onAxis (i : Int) (n : Nat) : Bool := decide (0 ≤ i) && decide (i < n)

/-- Index of a position under mirror and repeat padding (R419, R420). -/
def padIndex (mirror : Bool) (i : Int) (n : Nat) : Nat :=
  if mirror && decide (1 < n) then
    let p := 2 * (n - 1)
    let j := (i % (p : Int)).toNat
    if n ≤ j then p - j else j
  else (max 0 (min i ((n : Int) - 1))).toNat

/-- What a tap of a pixel reads: the image pixel, or the padding's constant; `inside` whether it lies inside the image. -/
structure Tap where
  inside : Bool
  pixel : Option (Nat × Nat)
  deriving DecidableEq, Repr

def Geometry.tap (g : Geometry) (m ky kx : Nat) : Tap :=
  let y := g.rowOf m ky
  let x := g.colOf m kx
  let inside := onAxis y g.inH && onAxis x g.inW
  { inside, pixel := if inside || 2 ≤ g.mode then some (padIndex (g.mode == 2) y g.inH, padIndex (g.mode == 2) x g.inW) else none }

/-- Taps of pixel m in ascending (ky, kx). -/
def Geometry.tapsOf (g : Geometry) (m : Nat) : List Tap :=
  (List.range g.taps).map (fun t => g.tap m (t / g.kw) (t % g.kw))

/-- Offset of an image pixel in the share (R414). -/
def Geometry.at_ (g : Geometry) (p : Nat × Nat) : Nat := g.img.off + p.1 * g.img.stride + p.2 * g.pix

/-- The constant of padding under zero and constant modes (R419). -/
def Geometry.fill (g : Geometry) : Word := if g.mode = 1 then g.pad else 0

/-- The fault of reading the image: a touched pixel past the share, or poisoned. -/
def State.imageFault (s : State) (i : Nat) (g : Geometry) : Option PitchFault :=
  (List.range g.pixels).findSome? (fun m => (g.tapsOf m).findSome? (fun t => t.pixel.bind (fun p =>
    if s.outside i false (g.at_ p) (g.ch * g.elem) then some (fcAddress, g.at_ p)
    else s.spPoisonFault i (g.at_ p) (g.ch * g.elem))))

/-- The channels of an image pixel as values. -/
def State.pixelOf (s : State) (i : Nat) (g : Geometry) (p : Nat × Nat) : List Num :=
  let bs := s.readSp i (g.at_ p) (g.ch * g.elem)
  (List.range g.ch).map (fun c => loadElem g.img.format (codeAt g.img.format bs c) 0)

/-- The channels of a tap: none for a zero-padded one under `skip` (R422). -/
def State.tapOf (s : State) (i : Nat) (g : Geometry) (t : Tap) : List Num :=
  match t.pixel with
  | some p => s.pixelOf i g p
  | none => List.replicate g.ch { bits := g.fill }

/-! ### WCONV (R424, R430 to R434) -/

/-- Pass extents and the reach of the walker (R424). -/
def Geometry.inReach (g : Geometry) : Bool :=
  let ex := g.dilX * (g.kw - 1) + 1
  let ey := g.dilY * (g.kh - 1) + 1
  decide (g.strideX ≤ ex) && decide (g.strideY ≤ ey) && decide ((g.blkW - 1) * g.strideX + ex ≤ 1024)

/-- The virtual row of pixel m: per reduction index its operand, none where the tap is skipped (R422, R423, R431). -/
def State.windowRow (s : State) (i : Nat) (g : Geometry) (m : Nat) : List (Option Num) :=
  (g.tapsOf m).flatMap (fun t =>
    if t.pixel.isNone && g.mode == 0 then List.replicate g.ch none
    else (s.tapOf i g t).map (fun n => some (cellOperand .fp32 n)))

/-- Reduction indices skipped for a whole tile of pixels (R422). -/
def Geometry.skipped (g : Geometry) (tile : Nat) : Nat :=
  if g.mode ≠ 0 then 0
  else
    let ms := (List.range (min 32 (g.pixels - 32 * tile))).map (· + 32 * tile)
    ((List.range g.taps).filter (fun t => ms.all (fun m => !(g.tap m (t / g.kw) (t % g.kw)).inside))).length * g.ch

/-- Count in an object that stops in confidential mode (R450). -/
def State.bumpOpen (s : State) (key n : Nat) : State := if s.sec.confidential || n == 0 then s else s.bump key n

/-- The work of WCONV. -/
def State.wconvWork (s : State) (i d : Nat) : Work :=
  let x := s.slot i
  let g := x.geometry d
  let wt := x.opnd (field d 351 320) (field d 383 352) (field d 415 384)
  let n := field d 423 416 + 1
  let tile := field d 430 424
  let mode := field d 432 431
  let off := field d 457 436
  let cols := ceilDiv n 32
  let tiles := ceilDiv g.pixels 32 * cols
  if !onlyBits d (geometryBits ++ [(457, 436), (434, 320)]) || !g.ok || mode = 3 || 256 < g.pixels || 65536 < g.reduction
      || !wt.mmaOk || !wt.trans || (mode = 2 && off % 64 != 0) then { s, err := some badDesc }
  else if !g.inReach then { s := s.bumpOpen Key.walkerReachRejects 1, err := some badDesc }
  else match firstFault [(decide (x.accTiles < tile + tiles), (fcAddress, 4096 * (tile + tiles - 1))),
      (mode == 2 && s.outside i false off (4 * n), (fcAddress, off))] with
  | some f => { s, err := some f }
  | none =>
    match ((s.sourceFault i wt n g.reduction).or (s.imageFault i g)).or
        (if mode = 2 then s.spPoisonFault i off (4 * n) else if mode = 1 then s.spacePoison i true (4096 * tile) (4096 * tiles)
          else none) with
    | some f => { s, err := some f }
    | none =>
      let ws := s.loadCells i wt n g.reduction
      let rows := (List.range g.pixels).map (s.windowRow i g)
      let start := fun r c => if mode = 1 then s.oldCell i tile cols r c
        else if mode = 2 then BitVec.ofNat 32 (leNat (s.readSp i (off + 4 * c) 4)) else 0
      let at_ := fun r c => ((nth rows r []).zip (nth ws c [])).map (fun e => e.1.map (fun a => (a, e.2)))
      let skip := (List.range (ceilDiv g.pixels 32)).foldl (fun k t => k + cols * g.skipped t) 0
      { s := s.bumpOpen Key.walkerSkippedIndices skip
        todo := s.tileSteps i (field d 434 433) tile g.pixels n g.reduction start at_ }

/-- WCONV: windowed convolution through the walker (R431). -/
def execWconv (u : SlotRef) (w : CmdWord) (s : State) : Host.Outcome State Fault Refusal :=
  .next (s.issueEngine u w 0x80 .d128 (fun d => matEngines (field d 434 433)) State.wconvWork)

/-! ### WEXPAND (R435 to R437) -/

/-- One tap as a run of the expanded buffer: from the image as it stands, or a fill with the padding (R426, R437). -/
def Geometry.tapRun (g : Geometry) (dst : Int) (t : Tap) : Run :=
  { src := t.pixel.map (fun p => (g.at_ p : Int)), dst, len := g.ch * g.elem }

/-- The padding in the image's format as a fill pattern of 4 bytes. -/
def Geometry.padPattern (g : Geometry) : Nat :=
  leNat ((packCodes g.img.format (List.replicate 8 (narrow g.img.format g.fill).bits.toNat)).take 4)

/-- The work of WEXPAND. -/
def State.wexpandWork (s : State) (i d : Nat) : Work :=
  let x := s.slot i
  let g := x.geometry d
  let o := x.opnd (field d 351 320) (field d 383 352) 0
  let row := g.reduction * g.elem
  let line := field d 391 384
  if !onlyBits d (geometryBits ++ [(392, 320)]) || !g.ok || o.trans || o.inAcc || o.fmt != g.img.fmt || !o.wordsOk
      || o.stride % 64 != 0 || o.stride < row then { s, err := some badDesc }
  else match firstFault [
      (bit d 392 && !(decide (line < 128) && s.mayRaise x.pitch (clusterOfSlot i) line), (fcAddress, line)),
      (s.outside i false o.off (spanOf g.pixels o.stride row), (fcAddress, o.off))] with
  | some f => { s, err := some f }
  | none =>
    match s.imageFault i g with
    | some f => { s, err := some f }
    | none =>
      let runs := (List.range g.pixels).flatMap (fun m =>
        let taps := g.tapsOf m
        (List.range taps.length).filterMap (fun k =>
          (taps[k]?).map (g.tapRun ((o.off + m * o.stride + k * (g.ch * g.elem) : Nat) : Int))))
      { s, cmpl := if bit d 392 then [line] else [], move := some { fill := some g.padPattern, runs } }

/-- WEXPAND: the windows written out as plain rows (R436). -/
def execWexpand (u : SlotRef) (w : CmdWord) (s : State) : Host.Outcome State Fault Refusal :=
  .next (s.issueMove u w 0x82 .d128 State.wexpandWork)

/-! ### WPOOL (R438 to R442) -/

/-- Reduce one channel over the taps' values, in order (R439, R440); `inside` counts those inside the image. -/
def poolOf (pool full inside : Nat) (xs : List Word) : Num × Met :=
  match pool with
  | 0 => (rowMax xs, {})
  | k =>
    let r := xs.foldl (fun (a : Num × Met) x => let t := f32Add a.1.bits x; (t, a.2.add t)) ({ bits := 0 }, {})
    match k with
    | 1 => r
    | 2 => (f32Div r.1.bits (f32Of (.fin false full 0)), r.2)
    | _ => if inside = 0 then ({ bits := 0 }, {}) else (f32Div r.1.bits (f32Of (.fin false inside 0)), r.2)

/-- The work of WPOOL. -/
def State.wpoolWork (s : State) (i d : Nat) : Work :=
  let x := s.slot i
  let g := x.geometry d
  let o := x.opnd (field d 383 352) (field d 415 384) 0
  let pixStride := field d 431 416
  let pool := field d 321 320
  let comb := bit d 322
  let e := o.format.bits / 8
  if !onlyBits d (geometryBits ++ [(431, 352), (322, 320)]) || !g.ok || o.trans || !o.fmtIn [.fp32, .bf16] || !o.wordsOk
      || o.off % e != 0 || o.stride % e != 0 || pixStride % e != 0 || pixStride < g.ch * e
      || (2 ≤ pool && (comb || g.kh != g.fullH || g.kw != g.fullW)) then { s, err := some badDesc }
  else if s.outside i o.inAcc o.off (spanOf g.blkH o.stride ((g.blkW - 1) * pixStride + g.ch * e)) then
    { s, err := some (fcAddress, o.off) }
  else match (s.imageFault i g).or (if comb then s.spacePoison i o.inAcc o.off (spanOf g.blkH o.stride (g.blkW * pixStride)) else none) with
    | some f => { s, err := some f }
    | none =>
      let part := fun (s : State) (m : Nat) =>
        let at_ := o.off + m / g.blkW * o.stride + m % g.blkW * pixStride
        let taps := g.tapsOf m
        let used := if pool = 3 then taps.filter (·.inside) else taps
        let vals := used.map (s.tapOf i g)
        let old := s.readSpace i o.inAcc at_ (g.ch * e)
        let outs := (List.range g.ch).map (fun c =>
          let (r, pm) := poolOf pool (g.fullH * g.fullW) used.length (vals.map (fun v => (nth v c { bits := 0 }).bits))
          if comb then
            let prev := loadElem o.format (codeAt o.format old c) 0
            let t := if pool = 0 then f32Max prev.bits r.bits else f32Add prev.bits r.bits
            (t, (pm.add r).add prev)
          else (r, pm))
        let (bs, km) := storeForm o.format (outs.map (·.1.bits))
        let met := ((outs.foldl (fun (k : Met) v => (k.join v.2).add v.1) {}).join (rowsMet vals)).join km
        ({ writes := [(o.inAcc, at_, bs)], fl := met.fl, sat := met.sat } : Step)
      let cycles := ceilDiv g.ch 64 * g.taps + (if 2 ≤ pool then ceilDiv g.ch 8 else 0)
      let per := max 1 (512 / max 1 cycles)
      { s, todo := (List.range (ceilDiv g.pixels per)).map (fun k =>
          ((List.range (min per (g.pixels - k * per))).foldl (fun (acc : State × Step) m =>
            let t := part acc.1 (k * per + m)
            (acc.1.landStep i t, acc.2.join t)) (s, {})).2) }

/-- WPOOL: windowed reduction of each channel (R439). -/
def execWpool (u : SlotRef) (w : CmdWord) (s : State) : Host.Outcome State Fault Refusal :=
  .next (s.issueEngine u w 0x81 .d128 (fun _ => ([.vec], false)) State.wpoolWork)

end Sys2Proof.Machine
end

