-- ==== Sys2Proof/Machine/Pitches.lean ====
section
/-! DEFINITION. Pitches: creation, start, removal, loans and priority (R451 to R497). -/

namespace Sys2Proof.Machine

/-! ### Creation (R453 to R455, R458, R872) -/

/-- Subindices of the retirement commands (R682), as kept in the retirement list. -/
def retireSub (key : Nat) : Nat := key % 256

/-- Is a core enabled by the profile and not retired (R454, R674). -/
def State.coreAvailable (s : State) (core : Nat) : Bool :=
  coreEnabled s.profile core && !s.tier.retired.any (fun r => r.1 == retireSub Key.coreRetire && r.2.1 == core)

/-- Cores that a record's CORE_MASK names, ascending. -/
def coresOf (record : List Byte) : List Nat := (List.range 48).filter (fun c => bit (leNat record) (32 + c))

/-- Granules and tiles of a slot's shares (R112, R453). -/
def slotShares (d : Nat) : Nat × Nat := if bit d 9 then (field d 13 10 + 1, field d 20 14 + 1) else (4, 32)

/-- The lowest start at which `need` units fit among used ranges of `total` units. -/
def firstFit (total need : Nat) (used : List (Nat × Nat)) : Option Nat :=
  (List.range total).find? (fun a => decide (a + need ≤ total) && used.all (fun u => decide (a + need ≤ u.1) || decide (u.1 + u.2 ≤ a)))

/-- A free slot of a core with room for shares: its index, granule and tile (R455). -/
def State.placeSlot (s : State) (core gran tiles : Nat) : Option (Nat × Nat × Nat) :=
  let slots := (List.range 4).map (4 * core + ·)
  let taken := slots.filter (fun i => (s.slot i).reserved)
  match slots.find? (fun i => !(s.slot i).reserved && !(s.slot i).assigned),
      firstFit 16 gran (taken.map (fun i => ((s.slot i).spBase, (s.slot i).spSizeM1 + 1))),
      firstFit 128 tiles (taken.map (fun i => ((s.slot i).accBase, (s.slot i).accSizeM1 + 1))) with
  | some i, some g, some t => some (i, g, t)
  | _, _, _ => none

/-- Do two ranges (base, length) overlap; empty ones never do. -/
def overlap (a b : Nat × Nat) : Bool := decide (a.1 < b.1 + b.2) && decide (b.1 < a.1 + a.2) && a.2 != 0 && b.2 != 0

/-- Peg, transfer-line and fabric-line ranges of a cluster entry. -/
def Pitch.pegRange (r : Pitch) (n : Nat) : Nat × Nat := (r.ent n 41 32, r.ent n 52 42)
def Pitch.xferRange (r : Pitch) (n : Nat) : Nat × Nat := (r.ent n 102 96, r.ent n 110 103)
def Pitch.fabRange (r : Pitch) (n : Nat) : Nat × Nat := (192 + r.ent n 115 111, r.ent n 121 116)

/-- Is the entry of cluster n acceptable (R454, points 4 to 6). -/
def State.entryOk (s : State) (r : Pitch) (n : Nat) : Bool :=
  let cores := (coresOf r.record).filter (fun c => c / 8 == n)
  let share := r.share n
  let others := (s.pitches.map (·.2)).filter (fun q => q.st != .free)
  (share.2 == 0 || (decide (share.1 + share.2 ≤ 16777216 - s.tierABytes n) && others.all (fun q => !overlap share (q.share n))
      && (List.range 4).all (fun q => !s.quarterRetired n q || !overlap share (4194304 * q, 4194304))))
    && decide ((r.pegRange n).1 + (r.pegRange n).2 ≤ 1024) && decide (r.ent n 63 53 ≤ r.ent n 52 42)
    && decide ((r.xferRange n).1 + (r.xferRange n).2 ≤ 128) && decide ((r.fabRange n).1 + (r.fabRange n).2 ≤ 224)
    && others.all (fun q => !overlap (r.pegRange n) (q.pegRange n) && !overlap (r.xferRange n) (q.xferRange n)
      && !overlap (r.fabRange n) (q.fabRange n))
    && (cores.isEmpty || (share.2 != 0 && r.ent n 87 64 % 16 == 0 && decide (r.ent n 87 64 < share.2)))

/-- Are the reserved bits of a record 0 (R453). -/
def recordReserved (d : Nat) : Bool :=
  onlyBits d ([(111, 32), (29, 24), (20, 0)] ++ (List.range 6).flatMap (fun n =>
    let b := 128 * (n + 1)
    [(b + 124, b + 96), (b + 87, b + 32), (b + 16, b)]))

/-- The per-pitch objects of a pitch ID return to their defaults (R872). -/
def State.defaultObjects (s : State) (p : Nat) : State :=
  let mine := fun (k : Nat) => [0x3100, 0x4200, 0x5200, 0x8200, 0xB100].any (fun b => k / 256 == b + p)
  { s with dict := s.dict.filter (fun e => !mine e.1), domains := s.domains.filter (fun e => !mine e.1) }

/-- The slots a record's cores give, with their granules and tiles (R455). -/
def State.placesOf (s : State) (v : List Byte) : List (Option (Nat × Nat × Nat)) :=
  (coresOf v).map (fun c => s.placeSlot c (slotShares (leNat v)).1 (slotShares (leNat v)).2)

/-- A pitch is created: its slots are reserved with their shares, its pegs start anew, its objects return to their defaults
(R455, R458, R872). -/
def State.createPitch (s : State) (v : List Byte) : State :=
  let d := leNat v
  let p := field d 4 0
  let r : Pitch := { st := .created, record := v, tenantTag := s.tenantTag (field d 29 24) }
  let slots := (s.placesOf v).filterMap id
  let s1 := slots.foldl (fun (u : State) x => u.modSlot x.1 (fun y => { y with
    reserved := true, pitch := p, spBase := x.2.1, spSizeM1 := (slotShares d).1 - 1, accBase := x.2.2, accSizeM1 := (slotShares d).2 - 1 })) s
  let s2 := (List.range 6).foldl (fun (u : State) n => u.modCluster n (fun c => { c with
    pegs := c.pegs.filter (fun e => !overlap (e.1, 1) (r.pegRange n)) })) s1
  ((s2.defaultObjects p).setPitch p { r with slots := slots.map (·.1) }).setObj (Key.at Key.pitchPriority p) (field d 7 5)

/-- PitchCreate (R453 to R455). -/
def State.doPitchCreate (s : State) (_ : Caller) (v : List Byte) : State × Nat :=
  let d := leNat v
  let p := field d 4 0
  let t := field d 29 24
  let r : Pitch := { st := .created, record := v, tenantTag := s.tenantTag t }
  let cores := coresOf v
  let others := (s.pitches.map (·.2)).filter (fun q => q.st != .free)
  if (s.pitch p).st ≠ .free || (s.tenant t).st ≠ .active || !recordReserved d || cores.isEmpty
      || cores.any (fun c => !s.coreAvailable c) || (s.placesOf v).any Option.isNone || !(List.range 6).all (s.entryOk r)
      || (List.range 4).any (fun k => decide (100 < r.credit k) || decide (100 < others.foldl (fun n q => n + q.credit k) (r.credit k))) then (s, stRefused)
  else (s.createPitch v, stOk)

/-- PITCH_CREATE. -/
def execPitchCreate (r : Req) (v : List Byte) (s : State) : Host.Outcome State Fault Refusal :=
  .next (s.runCmd r Key.pitchCreate rkOperator v State.doPitchCreate)

/-! ### Start (R457, R534, R724) -/

/-- A target of the controller's routing for a started pitch, where the pitch may have it (R42). -/
def State.routeTarget (s : State) (p n kind number : Nat) : Option RouteTarget :=
  let i := 32 * n + number
  match kind with
  | 0 => if s.mayUsePeg p (1024 * n + number) then some (.peg number) else none
  | 1 => if (s.pitch p).slots.contains i && decide (number < 32) then some (.slot (number / 4) (number % 4)) else none
  | 2 => if (s.pitch p).slots.contains i && decide (number < 32) then some (.chain (number / 4) (number % 4)) else none
  | _ => none

/-- Route the lines of a started pitch: those the controller sets (R42) and each inbox's arrival line (R531). -/
def State.routeLines (s : State) (p : Nat) : State :=
  let r := s.pitch p
  (List.range 6).foldl (fun (t : State) n =>
    let set := (Config.lineRouting 0 r.record).filterMap (fun e =>
      if e.1 = n ∧ s.mayRaise p n e.2.1 then (s.routeTarget p n e.2.2.1 e.2.2.2).map (fun x => (e.2.1, x)) else none)
    let inbox := if s.obj (Key.at Key.inboxEntries p) = 0 then [] else
      (s.slotsIn p n).map (fun i => (s.arrivalLine p i, RouteTarget.slot (i / 4 % 8) (i % 4)))
    t.modCluster n (fun c => { c with routes := c.routes ++ (set ++ inbox).filter (fun e => !c.routes.contains e) })) s

/-- A slot as a start leaves it (R188, R457): registers at reset values, S1 the rank, S2 the count, the next role epoch. -/
def Slot.started (x : Slot) (p entry rank count : Nat) : Slot := {
  st := .active, pitch := p, spBase := x.spBase, spSizeM1 := x.spSizeM1, accBase := x.accBase, accSizeM1 := x.accSizeM1,
  spShare := BitVec.ofNat 32 (x.spBase % 16 + 16 * (x.spSizeM1 % 16))
  accShare := BitVec.ofNat 32 (x.accBase % 128 + 256 * (x.accSizeM1 % 128))
  streamPtr := entry, roleEpoch := x.roleEpoch + 1, reserved := true,
  regs := ((Vector.replicate 32 (0 : Word)).setIfInBounds 1 (BitVec.ofNat 32 rank)).setIfInBounds 2 (BitVec.ofNat 32 count) }

/-- A pitch starts: its slots in ascending order as R457 says, those of a COMPLETE pitch with their shares scrubbed, its cores
not gated, its lines routed. -/
def State.startPitch (s : State) (p : Nat) : State :=
  let r := s.pitch p
  let order := sortBy id r.slots
  let s0 := if r.st = .complete then order.foldl (fun (t : State) i => t.scrubShares i) s else s
  let s1 := ((List.range order.length).zip order).foldl (fun (t : State) e =>
    let n := clusterOfSlot e.2
    (t.modSlot e.2 (fun x => x.started p ((r.share n).1 + r.ent n 87 64) e.1 order.length)).modCore (coreOfSlot e.2)
      (fun k => { k with mode := k.mode &&& 0xFFFF7FFF })) s0
  let s2 := s1.setPitch p { r with st := .running, down := none, inboxNext := [], inboxHeld := [], hostPosts := 0 }
  order.foldl (fun (t : State) i => t.callCluster (clusterOfSlot i)) (s2.routeLines p)

/-- PitchStart (R457). -/
def State.doPitchStart (s : State) (_ : Caller) (v : List Byte) : State × Nat :=
  let p := leNat v
  let st := (s.pitch p).st
  if 32 ≤ p then (s, stRange)
  else if st = .created || st = .tornDown || st = .complete then (s.startPitch p, stOk)
  else (s, stRefused)

/-- PITCH_START. -/
def execPitchStart (r : Req) (v : List Byte) (s : State) : Host.Outcome State Fault Refusal :=
  .next (s.runCmd r Key.pitchStart rkOperator v State.doPitchStart)

/-! ### Removal (R459, R526, R724) -/

/-- Does a route of cluster n belong to a removed pitch: to its slots and chains, or on its lines. -/
def Pitch.owns (r : Pitch) (n : Nat) (e : Nat × RouteTarget) : Bool :=
  overlap (e.1, 1) (r.xferRange n) || overlap (e.1, 1) (r.fabRange n)
    || (match e.2 with
      | .slot c k => r.slots.contains (32 * n + 4 * c + k)
      | .chain c k => r.slots.contains (32 * n + 4 * c + k)
      | _ => false)

/-- Release an encoding stream: unowned, its history cleared, its counters kept (R526). -/
def EncStream.release (e : EncStream) : EncStream := { e with owner := 0xFF, history := [] }

/-- Before a pitch's shares go, the queues it consumes are disabled and its playback ring stops (R246). -/
def State.stopFeeds (s : State) (p : Nat) : State :=
  let mine := (List.range 32).filter (fun q => s.obj (Key.at Key.queueEnable q) == 1 && s.obj (Key.at Key.queuePitch q) == p)
  let s1 := mine.foldl State.disableQueue s
  if s1.obj Key.playbackEnable = 1 ∧ s1.obj Key.playbackPitch = p then
    { s1.setObj Key.playbackEnable 0 with listen := { s1.listen with playPos := 0 } } else s1

/-- Free a pitch: everything R459 names is released, and scrubbed as R724 says. -/
def State.removePitch (s : State) (p : Nat) : State :=
  let r := s.pitch p
  let s0 := r.slots.foldl (fun (t : State) i => (t.scrubShares i).setSlot i { roleEpoch := (t.slot i).roleEpoch }) (s.stopFeeds p)
  let s1 := r.slots.foldl (fun (t : State) i => t.gateCore (coreOfSlot i)) s0
  let s2 := (List.range 6).foldl (fun (t : State) n =>
    let (base, len) := r.share n
    t.modCluster n (fun c => { c with
      sram := memClear c.sram base len
      sramPoison := c.sramPoison.filter (fun e => !(decide (base ≤ 64 * e.1) && decide (64 * e.1 < base + len)))
      routes := c.routes.filter (fun e => !r.owns n e)
      forwards := c.forwards.filter (fun f => !(overlap (f.line, 1) (r.xferRange n) || overlap (f.line, 1) (r.fabRange n)))
      pegs := c.pegs.filter (fun e => !overlap (e.1, 1) (r.pegRange n)) })) s1
  let s3 := s2.detachSets p
  let s4 := s3.freePages (fun g => g.owner == some p)
  let s5 : State := { s4 with
    loans := s4.loans.filter (fun l => l.owner != p && l.borrower != p)
    pitches := tabDel s4.pitches p
    tier := { s4.tier with handles := s4.tier.handles.map (fun e =>
      if e.2.st ≠ .free ∧ e.2.pitch = p then (e.1, { generation := e.2.generation + 1 }) else e) }
    fabric := { s4.fabric with streams := s4.fabric.streams.map (fun e => if e.2.owner = p then (e.1, e.2.release) else e) } }
  s5.defaultObjects p

/-- A pitch in teardown is removed after its last step (R459). -/
def State.removeLater (s : State) (p : Nat) : State :=
  s.modPitch p (fun r => { r with down := r.down.map (fun d => { d with removeAfter := true }) })

/-- PitchRemove (R459): a RUNNING pitch is first torn down with code 0x00; the removal of a pitch in teardown waits for
its last step. -/
def State.doPitchRemove (s : State) (_ : Caller) (v : List Byte) : State × Nat :=
  let p := leNat v
  if 32 ≤ p then (s, stRange)
  else match (s.pitch p).st with
    | .free => (s, stRefused)
    | .running => ((s.faultPitch p fcRemoved 0 { byCommand := true }).removeLater p, stInProgress)
    | .teardown => (s.removeLater p, stInProgress)
    | _ => (s.removePitch p, stOk)

/-- PITCH_REMOVE. -/
def execPitchRemove (r : Req) (v : List Byte) (s : State) : Host.Outcome State Fault Refusal :=
  .next (s.runCmd r Key.pitchRemove rkOperator v State.doPitchRemove)

/-! ### The teardown record (R490, R491) -/

/-- The 32 B teardown record (R490); `masked` in confidential mode (R491). -/
def teardownRecord (p : Nat) (tenant : Nat) (d : Teardown) (masked : Bool) : List Byte :=
  let hide := fun n => if masked then 0 else n
  natLe 32 (p + d.code * 2 ^ 8 + flag d.pagesFreed * 2 ^ 16 + flag d.byCommand * 2 ^ 17 + d.waiter % 32 * 2 ^ 35
    + d.secondary * 2 ^ 40 + tenant * 2 ^ 48 + unitBits d.unit * 2 ^ 73 + hide (d.streamPtr % 2 ^ 24) * 2 ^ 112
    + d.opcode * 2 ^ 136 + hide (d.detail % 2 ^ 48) * 2 ^ 144 + d.stamp * 2 ^ 192)

/-! ### Loans, pegs and priority (R461, R465, R495) -/

/-- The fields of PegShare and PegUnshare (R494); none where other bits are set. -/
def loanOf (v : List Byte) : Option Loan :=
  let d := leNat v
  if onlyBits d [(4, 0), (12, 8), (15, 13), (25, 16), (36, 26)] then
    some { owner := field d 4 0, borrower := field d 12 8, cluster := field d 15 13, first := field d 25 16, count := field d 36 26 }
  else none

/-- PegShare (R465). -/
def State.doPegShare (s : State) (_ : Caller) (v : List Byte) : State × Nat :=
  match loanOf v with
  | none => (s, stRange)
  | some l =>
    let o := s.pitch l.owner
    let b := s.pitch l.borrower
    let (base, len) := o.pegRange l.cluster
    if 6 ≤ l.cluster || l.owner = l.borrower || o.st = .free || b.st = .free || tenantOfTag o.tenantTag ≠ tenantOfTag b.tenantTag || l.count = 0
        || l.first < base || base + len < l.first + l.count || 64 ≤ s.loans.length then (s, stRefused)
    else ({ s with loans := s.loans ++ [l] }, stOk)

def execPegShare (r : Req) (v : List Byte) (s : State) : Host.Outcome State Fault Refusal :=
  .next (s.runCmd r Key.pegShare rkOperator v State.doPegShare)

/-- PegUnshare (R465). -/
def State.doPegUnshare (s : State) (_ : Caller) (v : List Byte) : State × Nat :=
  match loanOf v with
  | none => (s, stRange)
  | some l => if s.loans.contains l then ({ s with loans := s.loans.erase l }, stOk) else (s, stRefused)

def execPegUnshare (r : Req) (v : List Byte) (s : State) : Host.Outcome State Fault Refusal :=
  .next (s.runCmd r Key.pegUnshare rkOperator v State.doPegUnshare)

/-- PegStatusClear: ABANDONED and OVF of a peg (R495). -/
def State.doPegStatusClear (n : Nat) (s : State) (_ : Caller) (v : List Byte) : State × Nat :=
  let k := leNat v
  if 1024 ≤ k then (s, stRange) else (s.setPeg n k { s.peg n k with ovf := false, abandoned := false }, stOk)

def execPegStatusClear (r : Req) (cluster : Fin 6) (v : List Byte) (s : State) : Host.Outcome State Fault Refusal :=
  .next (s.runCmd r (Key.at Key.pegStatusClear cluster.val) rkOperator v (State.doPegStatusClear cluster.val))

/-- A write of PitchPriority: refused while the pitch ID is FREE; donations follow the new value (R461, R492, R872). -/
def State.writePriority (p : Nat) (s : State) (_ : Caller) (v : Nat) : State × Nat :=
  if (s.pitch p).st = .free then (s, stRefused)
  else ((List.range 6).foldl State.donateAll (s.setObj (Key.at Key.pitchPriority p) v), stOk)

/-- PITCH_PRIORITY_WRITE: the new priority counts in every comparison from now on (R461). -/
def execPitchPriorityWrite (r : Req) (pitch : Fin 32) (v : List Byte) (s : State) : Host.Outcome State Fault Refusal :=
  .next (s.runScalar r (Key.at Key.pitchPriority pitch.val) rkOperator v (State.writePriority pitch.val))

end Sys2Proof.Machine
end

