-- ==== Sys2Proof/Machine/Fabric.lean ====
section
/-! DEFINITION. The fabric commands that name a remote pitch: FWRITE, FREAD, FMSG and the remote push of WHALO (R443 to R448,
R519 to R532). -/

namespace Sys2Proof.Machine

/-! ### What every fabric command checks (R30, R472, R475) -/

/-- The fault of a destination module outside the torus, or of a class of which the pitch has no share. -/
def State.fabricFault (s : State) (i module cls : Nat) : Option PitchFault :=
  firstFault [(!s.inTorus module, (fcAddress, module)), ((s.pitch (s.slot i).pitch).credit cls == 0, (fcAddress, cls))]

/-- The header fields that packets of a slot share (R516): its unit address, tenant tag and data class. -/
def State.fabricHeader (s : State) (i : Nat) (kind : PktKind) (module pitch cls : Nat) : Packet := {
  kind, dstModule := module, dstPitch := pitch, srcUnit := s.unitOf i, tenant := (s.pitch (s.slot i).pitch).tenantTag,
  vc := 2 + cls }

/-- Mark the last packet of a command (R516). -/
def markLast (xs : List Send) : List Send :=
  match xs.reverse with
  | [] => []
  | x :: rest => (({ x with pkt := { x.pkt with last := true } }) :: rest).reverse

/-- The parts of a run within one 4 KiB tile each (R520): offset in the run and length, from the remote address. -/
def tileParts (addr n : Nat) : List (Nat × Nat) := (requests addr n).map (fun c => (c.1 - addr, c.2))

/-- The packets that write a run to a remote state range (R520). -/
def writeSends (h : Packet) (addr : Nat) (bs : List Byte) : List Send :=
  (tileParts addr bs.length).map (fun c =>
    { pkt := { h with addr := addr + c.1, len := c.2, payload := (bs.drop c.1).take c.2 } })

/-- Is an address a state address (R43). -/
def stateAddr (a : Int) : Bool := decide (0 ≤ a) && decide (a < 2 ^ 48)

/-- What forming the packets of a command has given: the state, the packets, the reads of state memory, and a fault met. -/
structure Formed where
  s : State
  sends : List Send := []
  reads : List Nat := []
  err : Option PitchFault := none
  deriving DecidableEq, Repr

/-- The work that formed packets leave. -/
def Formed.work (f : Formed) (cmpl : List Nat) : Work :=
  { s := f.s, err := f.err, cmpl, reads := f.reads, sends := markLast f.sends }

/-- One run of a tile write: read at the source, sent to a remote address (R520); what was formed before a fault is sent. -/
def Formed.run (f : Formed) (i : Nat) (h : Packet) (src : Loc) (swap n : Nat) (dst : Int) : Formed :=
  if f.err.isSome then f
  else if !stateAddr dst then { f with err := some (addrFault dst) }
  else
    let (s1, bs, e) := f.s.readLoc i src n
    match e with
    | some e => { f with s := s1, err := some e }
    | none => { f with s := s1, reads := f.reads ++ src.requests n, sends := f.sends ++ writeSends h dst.toNat (swapBytes swap bs) }

/-! ### FWRITE (R519 to R522) -/

/-- Fields of the FWRITE layout, which FREAD shares (R519, R523). -/
def fwPitch (d : Nat) : Nat := field d 494 490
def fwModule (d : Nat) : Nat := field d 489 475
def fwClass (d : Nat) : Nat := field d 474 473
def fwStream (d : Nat) : Nat := field d 471 466
def fwScale (d : Nat) : Nat := field d 383 352
def fwDstStride (d : Nat) : Int := signed 32 (field d 303 272)
def fwSrcStride (d : Nat) : Int := signed 32 (field d 271 240)
def fwRun (d : Nat) : Nat := field d 239 228 + 1
def fwRows (d : Nat) : Nat := field d 227 212 + 1
def fwAddr (d : Nat) : Nat := field d 175 128

/-- Elements of an encoded row, and its expanded bytes E (R93, R527). -/
def fwRowLen (d : Nat) : Nat := field (fwScale d) 12 0
def fwExpanded (d : Nat) : Nat := fwRowLen d * (if bit d 464 then 2 else 4)

/-- Is a scale control word permitted (R10, R60, R93, R94); with no encoding only its reserved bits and encodings are checked (DESIGN
CHOICE, log entry 121). -/
def scaleWordOk (w : Nat) : Bool :=
  field w 20 13 == 0 && decide (field w 27 26 < 2) && !(field w 27 26 == 1 && field w 23 22 == 3) && (field w 31 28 == 0
    || ((streamFmt (field w 31 28)).isSome && decide (16 ≤ field w 12 0) && decide (field w 12 0 ≤ 4096)
      && !(bit w 21 && field w 27 26 == 0)))

/-- Is an FWRITE descriptor's form right (R194, R206, R519, R527). -/
def fwriteOk (d : Nat) : Bool :=
  onlyBits d (commonBits ++ [(494, 463), (383, 352), (303, 212), (175, 128), (63, 0)]) && directOp d 0xB0 && locOk (field d 63 0)
    && scaleWordOk (fwScale d)
    && (if field (fwScale d) 31 28 = 0 then swapLenOk (xSwap d) (fwRun d)
      else
        let e := fwExpanded d
        fwRun d == 1 && xSwap d == 0 && [64, 128, 256, 512, 1024, 2048, 4096, 8192, 16384].contains e
          && fwDstStride d == (e : Int) && fwAddr d % e == 0)

/-- Pad a byte string to a multiple. -/
def padTo (k : Nat) (bs : List Byte) : List Byte := bs ++ List.replicate (ceilDiv bs.length k * k - bs.length) 0

/-- Codes of elements as a packet carries them, padded to 4 B (R528). -/
def codeBytes (f : Fmt) (codes : List Nat) : List Byte := padTo 4 (packCodes f codes)

/-- The trailer of row headers (R528). -/
def trailer (hs : List Nat) : List Byte := padTo 16 (hs.flatMap (natLe 4))

def State.stream (s : State) (k : Nat) : EncStream := tabGet s.fabric.streams k {}
def State.setStream (s : State) (k : Nat) (e : EncStream) : State :=
  { s with fabric := { s.fabric with streams := tabSet s.fabric.streams k e } }

/-- The stream after a row (R83, R88 to R90, R96). -/
def EncStream.sent (e : EncStream) (r : EncRow) : EncStream :=
  let up := fun (b : Bool) (n : Nat) => if b then min 0xFFFFFFFF (n + 1) else n
  { e with
    history := (r.maxabs :: e.history).take 8
    clipped := up (r.clipped || r.reenc) e.clipped
    underflowed := up r.under e.underflowed
    reencoded := up r.reenc e.reencoded }

/-- The packets of one encoded row wider than a tile: one for each destination tile (R528). -/
def wideRowSends (h : Packet) (f : Fmt) (addr elem : Nat) (r : EncRow) : List Send :=
  let n := 4096 / elem
  (List.range (ceilDiv r.codes.length n)).map (fun t =>
    let codes := codeBytes f ((r.codes.drop (t * n)).take n)
    { pkt := { h with addr := addr + 4096 * t, len := codes.length, rows := 1, payload := codes ++ trailer [rowHeader f r] } })

/-- The packet of the rows whose destination lies in one tile (R528). -/
def tileRowsSend (h : Packet) (f : Fmt) (addr : Nat) (rs : List EncRow) : Send :=
  let codes := rs.flatMap (fun r => codeBytes f r.codes)
  { pkt := { h with
    addr, len := codes.length, rows := rs.length, payload := codes ++ trailer (rs.map (rowHeader f)) } }

/-- The packets of encoded rows, rows of one tile together (R528); `rows` with their addresses. -/
def encodedSends (h : Packet) (f : Fmt) (elem : Nat) (rows : List (Nat × EncRow)) : List Send :=
  if 4096 < h.rowLen * elem then rows.flatMap (fun x => wideRowSends h f x.1 elem x.2)
  else
    (distinct (rows.map (·.1 / 4096))).map (fun t =>
      let mine := rows.filter (fun x => x.1 / 4096 == t)
      tileRowsSend h f ((mine.head?.map (·.1)).getD 0) (mine.map (·.2)))

/-- Encode the rows of an FWRITE in order, until one meets a fault. -/
def State.encodeRows (s : State) (i d : Nat) (f : Fmt) : State × List (Nat × EncRow) × List Nat × Option PitchFault :=
  let w := fwScale d
  let n := fwRowLen d
  let wide : Fmt := if bit d 463 then .bf16 else .fp32
  let src := locOf (field d 63 0)
  (List.range (fwRows d)).foldl (fun acc k =>
    let (s, rows, reads, err) := acc
    if err.isSome then acc
    else
      let l := { src with addr := src.addr + k * fwSrcStride d }
      let dst : Int := fwAddr d + k * fwExpanded d
      if !stateAddr dst then (s, rows, reads, some (addrFault dst))
      else match s.readLoc i l (wide.rowBytes n) with
        | (s1, _, some e) => (s1, rows, reads, some e)
        | (s1, bs, none) =>
          let xs := (List.range n).map (fun k => if bit d 463 then ofBf16 (codeAt wide bs k) else BitVec.ofNat 32 (codeAt wide bs k))
          let e := s1.stream (fwStream d)
          let r := encodeStreamRow f (field w 27 26 == 1) (field w 25 24) (field w 23 22) (bit w 21) e.history xs
          (s1.setStream (fwStream d) (e.sent r), rows ++ [(dst.toNat, r)], reads ++ l.requests (wide.rowBytes n), none))
    (s, [], [], none)

/-- The work of FWRITE. -/
def State.fwriteWork (s : State) (i d : Nat) : Work :=
  let p := (s.slot i).pitch
  let fmt := streamFmt (field (fwScale d) 31 28)
  if !fwriteOk d then { s, err := some badDesc }
  else match (s.fabricFault i (fwModule d) (fwClass d)).or (firstFault [(s.cmplBad i d, (fcAddress, xCmplLine d)),
      (fmt.isSome && (s.stream (fwStream d)).owner != p, (fcAddress, fwStream d))]) with
  | some f => { s, err := some f }
  | none =>
    let h := { s.fabricHeader i .write (fwModule d) (fwPitch d) (fwClass d) with ordered := bit d 472 }
    match fmt with
    | none =>
      let src := locOf (field d 63 0)
      ((List.range (fwRows d)).foldl (fun (f : Formed) k =>
        f.run i h { src with addr := src.addr + k * fwSrcStride d } (xSwap d) (fwRun d) ((fwAddr d : Int) + k * fwDstStride d))
        { s }).work (xCmpl d)
    | some f =>
      let s1 := if bit d 465 then s.setStream (fwStream d) { s.stream (fwStream d) with history := [] } else s
      let (s2, rows, reads, err) := s1.encodeRows i d f
      let h := { h with enc := f.streamCode, dstBf16 := bit d 464, rowLen := fwRowLen d }
      ({ s := s2, sends := encodedSends h f (if bit d 464 then 2 else 4) rows, reads, err : Formed }).work (xCmpl d)

/-- FWRITE: runs written into a remote pitch's state range (R520, R525). -/
def execFwrite (u : SlotRef) (w : CmdWord) (s : State) : Host.Outcome State Fault Refusal :=
  .next (s.issueEngine u w 0xB0 .d64 xfrOnly State.fwriteWork)

/-! ### FREAD (R523) -/

/-- Is an FREAD descriptor's form right. -/
def freadOk (d : Nat) : Bool :=
  onlyBits d (commonBits ++ [(494, 473), (303, 212), (175, 128), (63, 0)]) && directOp d 0xB1 && locOk (field d 63 0)
    && swapLenOk (xSwap d) (fwRun d)

/-- The read requests of one run. -/
def readSends (h : Packet) (dst : Loc) (swap addr n : Nat) : List Send :=
  (tileParts addr n).map (fun c =>
    { pkt := { h with addr := addr + c.1, len := c.2 }, space := dst.space, cluster := dst.cluster, addr := dst.addr, off := c.1,
      swap })

/-- The work of FREAD. -/
def State.freadWork (s : State) (i d : Nat) : Work :=
  if !freadOk d then { s, err := some badDesc }
  else match (s.fabricFault i (fwModule d) (fwClass d)).or
      (if s.cmplBad i d then some (fcAddress, xCmplLine d) else none) with
  | some f => { s, err := some f }
  | none =>
    let h := s.fabricHeader i .readReq (fwModule d) (fwPitch d) (fwClass d)
    let dst := locOf (field d 63 0)
    ((List.range (fwRows d)).foldl (fun (f : Formed) k =>
      let a : Int := (fwAddr d : Int) + k * fwSrcStride d
      if f.err.isSome then f
      else if !stateAddr a then { f with err := some (addrFault a) }
      else { f with sends := f.sends ++ readSends h { dst with addr := dst.addr + k * fwDstStride d } (xSwap d) a.toNat (fwRun d) })
      { s }).work (xCmpl d)

/-- FREAD: runs read from a remote state range (R523). -/
def execFread (u : SlotRef) (w : CmdWord) (s : State) : Host.Outcome State Fault Refusal :=
  .next (s.issueEngine u w 0xB1 .d64 xfrOnly State.freadWork)

/-! ### FMSG (R530, R532) -/

/-- The work of FMSG: its credit is taken, or waited for. -/
def State.fmsgWork (s : State) (i d : Nat) : Work :=
  let p := (s.slot i).pitch
  let unit := unitOfBits (field d 494 456)
  let cls := field d 455 454
  let peg := field d 453 441
  let n := field d 239 228 + 1
  let src := locOf (field d 63 0)
  if !onlyBits d (commonBits ++ [(494, 441), (239, 228), (63, 0)]) || !directOp d 0xB2 || !locOk (field d 63 0)
      || !swapLenOk (xSwap d) n then { s, err := some badDesc }
  else match (firstFault [(decide (6 ≤ unit.cluster), (fcAddress, unitBits unit))]).or ((s.fabricFault i unit.module cls).or
      (firstFault [(s.cmplBad i d, (fcAddress, xCmplLine d)),
        (peg / 1024 != clusterOfSlot i || !s.mayUsePeg p peg, (fcAddress, peg))])) with
  | some f => { s, err := some f }
  | none =>
    match s.readLoc i src n with
    | (s1, _, some e) => { s := s1, err := some e }
    | (s1, bs, none) =>
      let h := { s1.fabricHeader i .msg unit.module 0 cls with
        dstUnit := unit, creditPeg := peg, len := n, last := true, payload := swapBytes (xSwap d) bs }
      let k : Work := { s := s1, cmpl := xCmpl d, reads := src.requests n, sends := [{ pkt := h }] }
      let c := peg / 1024
      if s1.takeReady c (peg % 1024) i 1 then { k with s := (s1.takePeg c (peg % 1024) i 1).examine c (peg % 1024) }
      else { k with s := s1.waitPeg c (peg % 1024) i 1 false true, wait := .credit peg }

/-- FMSG: a unit message to a slot's inbox (R530, R532). -/
def execFmsg (u : SlotRef) (w : CmdWord) (s : State) : Host.Outcome State Fault Refusal :=
  .next (s.issueEngine u w 0xB2 .d64 xfrOnly State.fmsgWork)

/-! ### WHALO (R443 to R448) -/

/-- The band of a strip (R444): first row, first column, rows and columns. -/
def haloBand (side : Bool × Bool) (pushing : Bool) (depth ext h w : Nat) : Int × Int × Nat × Nat :=
  match side with
  | (false, false) => (if pushing then 0 else -(depth : Int), 0, depth, w)
  | (false, true) => (if pushing then (h : Int) - depth else h, 0, depth, w)
  | (true, false) => (-(ext : Int), if pushing then 0 else -(depth : Int), h + 2 * ext, depth)
  | (true, true) => (-(ext : Int), if pushing then (w : Int) - depth else w, h + 2 * ext, depth)

/-- The pixels of the band: scratchpad address and packed offset (R444, R445). -/
def haloPixels (d : Nat) (band : Int × Int × Nat × Nat) : List (Int × Nat) :=
  let (y0, x0, rows, cols) := band
  let bytes := field d 143 128
  (List.range rows).flatMap (fun (r : Nat) => (List.range cols).map (fun (x : Nat) =>
    ((field d 21 0 : Int) + (y0 + r) * (field d 53 32 : Nat) + (x0 + x) * (field d 79 64 : Nat), (r * cols + x) * bytes)))

/-- The work of WHALO. -/
def State.whaloWork (s : State) (i d : Nat) : Work :=
  let remote := bit d 127
  let pull := bit d 126
  let side := (bit d 125, bit d 124)
  let depth := field d 115 108
  let h := field d 107 94 + 1
  let w := field d 93 80 + 1
  let bytes := field d 143 128
  let cls := field d 229 228
  let peer := locOf (field d 207 144)
  let module := field d 222 208
  if !onlyBits d [(314, 313), (312, 312), (311, 304), (229, 32), (21, 0)] || field d 63 54 != 0 || !locOk (field d 207 144) || depth = 0
      || bytes = 0 || field d 79 64 < bytes || !swapLenOk (xSwap d) bytes || (if side.1 then w else h) < depth
      || (remote && (pull || peer.space != 3)) || (!remote && cls != 0) then { s, err := some badDesc }
  else match (if remote then s.fabricFault i module cls else none).or
      (if s.cmplBad i d then some (fcAddress, xCmplLine d) else none) with
  | some f => { s, err := some f }
  | none =>
    let px := haloPixels d (haloBand side (!pull) depth (field d 123 116) h w)
    let moved := px.length * bytes
    let strip : Loc := { space := 0, cluster := 0, addr := 0 }
    if remote then
      let hd := s.fabricHeader i .write module (field d 227 223) cls
      let k := (px.foldl (fun (f : Formed) x => f.run i hd { strip with addr := x.1 } (xSwap d) bytes (peer.addr + x.2)) { s }).work
        (xCmpl d)
      { k with s := k.s.bumpOpen (if module = s.moduleId then Key.haloBytesLocal else Key.haloBytesRemote) moved }
    else
      let runs := px.map (fun x =>
        if pull then ({ src := some (peer.addr + x.2), dst := x.1, len := bytes, swap := xSwap d } : Run)
        else { src := some x.1, dst := peer.addr + x.2, len := bytes, swap := xSwap d })
      let src := if pull then peer else strip
      let dst := if pull then strip else peer
      { s := s.bumpOpen Key.haloBytesLocal moved, cmpl := xCmpl d, move := some {
          srcSpace := src.space, srcCluster := src.cluster, dstSpace := dst.space, dstCluster := dst.cluster, runs } }

/-- WHALO: an edge band pushed to a meeting place, or pulled into a margin (R444 to R447). -/
def execWhalo (u : SlotRef) (w : CmdWord) (s : State) : Host.Outcome State Fault Refusal :=
  .next (s.issueMove u w 0x83 .d128 State.whaloWork)

end Sys2Proof.Machine
end

