-- ==== Sys2Proof/Machine/Packets.lean ====
section
/-! DEFINITION. Packets that reach this module: remote writes and reads, messages, credits and forwarded events (R516, R517, R521 to R523, R529, R532 to R535, R476 to R480). -/

namespace Sys2Proof.Machine

/-! ### Headers (R516) -/

/-- KIND of a packet (R517). -/
def pktCode (k : PktKind) : Nat :=
  match k with
  | .write => 0
  | .writeAck => 1
  | .readReq => 2
  | .readData => 3
  | .msg => 4
  | .msgCredit => 5
  | .nack => 6
  | .event => 7
  | .collUp => 8
  | .collDown => 9
  | .global => 10
  | .marker => 11
  | .guyline => 12
  | .time => 13

/-- The 64 B header of a packet (R516). -/
def headerBytes (p : Packet) : List Byte :=
  natLe 64 (p.creditPeg % 2 ^ 13 * 2 ^ 144 + p.line % 256 * 2 ^ 157 + p.gop % 8 * 2 ^ 165 + flag p.rfmt * 2 ^ 168
    + p.rop % 8 * 2 ^ 169 + p.cop % 8 * 2 ^ 172 + p.pktIndex % 4096 * 2 ^ 175 + p.seq % 65536 * 2 ^ 187 + p.group % 64 * 2 ^ 203
    + p.rows % 1024 * 2 ^ 209 + p.rowLen % 8192 * 2 ^ 219 + flag p.dstBf16 * 2 ^ 232 + p.enc % 16 * 2 ^ 233
    + p.code % 256 * 2 ^ 237 + flag p.poison * 2 ^ 245 + flag p.last * 2 ^ 246 + flag p.detour * 2 ^ 247
    + flag p.ordered * 2 ^ 248 + p.vc % 8 * 2 ^ 249 + pktCode p.kind * 2 ^ 252 + p.len % 8192 * 2 ^ 256 + p.tag % 2 ^ 17 * 2 ^ 269
    + p.tenant % 65536 * 2 ^ 286 + unitBits p.srcUnit * 2 ^ 302 + unitBits p.dstUnit * 2 ^ 341 + p.dstPitch % 32 * 2 ^ 380
    + p.dstModule % 32768 * 2 ^ 385 + p.addr % 2 ^ 48 * 2 ^ 400 + p.stamp % 2 ^ 64 * 2 ^ 448)

/-- The answer to a packet: it returns to the requester's module, with the tag and the unit addresses echoed (R516). -/
def reply (p : Packet) (kind : PktKind) (code : Nat) : Packet := {
  kind, dstModule := p.srcUnit.module, srcUnit := p.srcUnit, dstUnit := p.dstUnit, tenant := p.tenant, tag := p.tag, addr := p.addr,
  vc := if 2 ≤ p.vc && p.vc ≤ 5 then p.vc else 2, code }

/-- Is a packet one that this module drops under a tenant fence in progress (R549, R559). -/
def State.fencedOut (s : State) (p : Packet) : Bool :=
  (s.fabric.cut.toList ++ s.fabric.cuts).any (fun c => c.fence && c.tenant == tenantOfTag p.tenant) && !s.tagCurrent p.tenant

/-- Does a packet for this module reach it: the router is on (R14, R678), and no fence drops the packet. -/
def State.forHere (s : State) (p : Packet) : Bool :=
  p.dstModule == s.moduleId && !s.fencedOut p && (s.power.st == .active || s.power.st == .doze) && !s.errors.islandsDown.contains 55

/-- Is the packet one for this module that it takes now. -/
def State.arrives (s : State) (p : Packet) : Bool := s.forHere p && s.power.st == .active

/-- A packet waits: in its input channel, in DOZE in the ejection queue (R558). -/
def State.keep (s : State) (p : Packet) : State := { s with fabric := { s.fabric with arrivals := s.fabric.arrivals ++ [p] } }

/-- Must a packet stay behind one that waits: both are ORDERED, of one source and channel (R514). -/
def State.behind (s : State) (p : Packet) : Bool :=
  p.ordered && s.fabric.arrivals.any (fun q => q.ordered && q.srcUnit == p.srcUnit && q.vc == p.vc)

/-- What taking a packet leaves: the state, and whether the packet is taken or waits. -/
abbrev Received := State × Bool

/-- A packet of this module is taken, or waits; in DOZE it wakes the module (R558, R749). -/
def State.arrive (s : State) (p : Packet) (take : Packet → State → Received) : State :=
  if !s.forHere p then s
  else if s.power.st = .doze then (s.keep p).beginReturn
  else if s.behind p then s.keep p
  else match take p s with
    | (t, true) => t
    | (t, false) => t.keep p

/-! ### WRITE and READ_REQ at their destination (R521, R529) -/

/-- Why the router refuses a request of `n` bytes: the code of the NACK (R521, R678); `k` the bit of RemoteAccess. -/
def State.remoteRefusal (s : State) (p : Packet) (k n : Nat) : Option Nat :=
  let r := s.pitch p.dstPitch
  if s.errors.islandsDown.contains 54 then some fcUnreachable
  else if r.st = .free then some fcAddress
  else if r.tenantTag ≠ p.tenant || !s.tagCurrent p.tenant then some fcTenant
  else if !bit (s.obj (Key.at Key.remoteAccess p.dstPitch)) k then some fcAddress
  else match s.extentAt p.dstPitch p.addr with
    | none => some fcAddress
    | some x => if x.holds (p.addr + n - 1) then none else some fcAddress

/-- One element of an encoded row, formed exactly and narrowed to the destination format; an integer 0 expands to +0 (R59, R529). -/
def expandTo (f : Fmt) (bf16 : Bool) (c scale : Nat) : Nat :=
  let v := codeValue f c
  let p := match v with
    | .nan => Fp.nan
    | _ => v.mul (bf16Value scale)
  if intZero f v p then 0
  else if bf16 then (match p with | .nan => 0x7FC0 | q => bf16Of q) else (f32Of p).toNat

/-- The wide bytes that the rows of an encoded packet expand to (R528, R529, R81). -/
def expandPacket (p : Packet) : List Byte :=
  match streamFmt p.enc with
  | none => p.payload
  | some f =>
    let wide : Fmt := if p.dstBf16 then .bf16 else .fp32
    let elem := if p.dstBf16 then 2 else 4
    let n := min p.rowLen (4096 / elem)
    let rowBytes := ceilDiv (f.rowBytes n) 4 * 4
    (List.range p.rows).flatMap (fun r =>
      let row := (p.payload.drop (r * rowBytes)).take rowBytes
      let hdr := leNat ((p.payload.drop (p.len + 4 * r)).take 4)
      packCodes wide ((List.range n).map (fun k => expandTo f p.dstBf16 (codeAt f row k) (hdr / 65536))))

/-- A remote write: checked, committed by the tier unit, and acknowledged; or refused (R521). It waits where the router finds no tag
(R39), for tier B space (R301), or for the journal's replay (R295). -/
def takeWrite (pkt : Packet) (s : State) : Received :=
  if !s.tier.journalReplayed then (s, false)
  else
    let bytes := expandPacket pkt
    match s.remoteRefusal pkt 0 bytes.length with
    | some code => (s.emit (reply pkt .nack code), true)
    | none =>
      match s.takeTag .router true false pkt.dstPitch 0 pkt.addr with
      | none => (s, false)
      | some (tag, s1) =>
        match s1.writeState pkt.dstPitch pkt.addr bytes .router with
        | (_, some (.stall a w)) => (s.stallQuota pkt.dstPitch (a, w), false)
        | (s2, some (.fault f)) => ((s2.freeTag tag).emit (reply pkt .nack f.1), true)
        | (s2, none) => ((s2.freeTag tag).emit (reply pkt .writeAck 0), true)

/-- WRITE. -/
def execWrite (pkt : Packet) (s : State) : Host.Outcome State Fault Refusal := .next (s.arrive pkt takeWrite)

/-- A remote read: checked and served by the tier unit: READ_DATA, poisoned with the code of a failed read; or refused (R521,
R523). -/
def takeReadReq (pkt : Packet) (s : State) : Received :=
  if !s.tier.journalReplayed then (s, false)
  else match s.remoteRefusal pkt 1 pkt.len with
    | some code => (s.emit (reply pkt .nack code), true)
    | none =>
      match s.takeTag .router false false pkt.dstPitch 0 pkt.addr with
      | none => (s, false)
      | some (tag, s1) =>
        let (s2, bs, e) := s1.readState pkt.dstPitch pkt.addr pkt.len .router
        let d : Packet := reply pkt .readData 0
        ((s2.freeTag tag).emit (match e with
          | some f => { d with poison := true, code := f.1, last := pkt.last }
          | none => { d with len := bs.length, payload := bs, last := pkt.last }), true)

/-- READ_REQ. -/
def execReadReq (pkt : Packet) (s : State) : Host.Outcome State Fault Refusal := .next (s.arrive pkt takeReadReq)

/-! ### Answers at the requester (R217, R218, R522, R523) -/

/-- The request of this module that an answer echoes. -/
def State.opOf (s : State) (p : Packet) : Option FabricOp := s.fabric.ops.find? (·.tag == p.tag)

/-- The answer has come: its tag is free, its request is no longer outstanding, and its flits have left the next router (R226,
R474). -/
def State.closeOp (s : State) (tag : Nat) : State :=
  (({ s with fabric := { s.fabric with
    ops := s.fabric.ops.filter (·.tag != tag)
    inFlight := s.fabric.inFlight.filter (fun e => e.tag != tag || !s.fabric.ops.any (·.tag == tag)) } }).freeTag tag)

/-- Does a tag belong to a request that this module sent to a router. -/
def State.fabricTag (s : State) (tag : Nat) : Bool := s.tier.tags.any (fun e => e.tag == tag && e.fabric)

/-- Tear a slot's pitch down where its tenant's generation has changed (R218). -/
def State.checkTenant (s : State) (i : Nat) (j : Job) : State :=
  let t := (s.pitch (s.slot i).pitch).tenantTag
  if s.tagCurrent t then s else s.faultSlot i (fcTenant, t) j.opcode j.cmdPtr

/-- The bytes of a part of a run with SWAP applied over the whole run: (offset in the run, bytes) pieces (R206). -/
def swapParts (mode off : Nat) (bs : List Byte) : List (Nat × List Byte) :=
  let unit := match mode with | 0 => 1 | 1 => 2 | _ => 4
  let mask := match mode with | 0 => 0 | 1 => 1 | 2 => 2 | _ => 3
  let head := min bs.length ((unit - off % unit) % unit)
  let mid := (bs.length - head) / unit * unit
  let single := fun (k : Nat) => ((off + k) ^^^ mask, [nth bs k 0])
  (List.range head).map single ++ (if mid = 0 then [] else [(off + head, swapBytes mode ((bs.drop head).take mid))])
    ++ (List.range (bs.length - head - mid)).map (fun k => single (head + mid + k))

/-- Write what a READ_DATA brought at its place in this module. -/
def State.placeRead (s : State) (i : Nat) (x : Send) (bs : List Byte) : Moved :=
  (swapParts x.swap x.off bs).foldl (fun (m : Moved) part =>
    if m.err.isSome || m.stall.isSome then m
    else
      let l : Loc := { space := x.space, cluster := x.cluster, addr := x.addr + part.1 }
      match m.s.writeLoc i l part.2 with
      | (s', none) => { m with s := s', writes := distinct (m.writes ++ l.requests part.2.length) }
      | (s', some (.fault f)) => { m with s := s', err := some f }
      | (s', some (.stall a w)) => { m with s := s', stall := some (a, w) }) { s }

/-! ### Messages, credits and forwarded events (R476 to R479, R532 to R535) -/

/-- Is the addressed unit a slot of this module in the role that the address names (R33, R476). -/
def State.unitCurrent (s : State) (u : UnitAddr) : Bool :=
  decide (u.cluster < 6) && (s.slot (unitSlot u)).assigned && (s.slot (unitSlot u)).roleEpoch.toNat == u.roleEpoch

/-- The orphan log entry of a discarded header (R478); kind 0 a message, 1 an event. -/
def State.orphanEntry (s : State) (p : Packet) (kind : Nat) : List Byte :=
  natLe 32 (kind * 2 ^ 64 + p.tenant % 65536 * 2 ^ 66 + p.len % 8192 * 2 ^ 82 + unitBits p.srcUnit * 2 ^ 98
    + (s.slot (unitSlot p.dstUnit)).roleEpoch.toNat * 2 ^ 137 + unitBits p.dstUnit * 2 ^ 153 + s.time % 2 ^ 64 * 2 ^ 192)

/-- Discard a delivery to a stale role: counted, logged and refused (R476, R478). -/
def State.staleDelivery (s : State) (p : Packet) (kind : Nat) : State :=
  let n := p.dstUnit.cluster
  if 6 ≤ n then s.emit (reply p .nack fcAddress)
  else
    let s1 := (s.bump (Key.at Key.staleDeliveries n)).bump (Key.at Key.orphanLogCount n)
    (s1.modCluster n (fun c => { c with orphans := (s.orphanEntry p kind :: c.orphans).take 64 })).emit (reply p .nack fcStaleRole)

/-- Base of the inbox of a slot of a pitch in its cluster's SRAM (R531). -/
def State.inboxBase (s : State) (p i : Nat) : Nat :=
  let n := clusterOfSlot i
  ((s.pitch p).share n).1 + s.obj (Key.at Key.inboxOffsetCluster p + n)
    + (s.slotsIn p n).idxOf i * s.obj (Key.at Key.inboxEntries p) * s.obj (Key.at Key.inboxEntryBytes p)

/-- A message enters the next entry of a slot's inbox, and its arrival line is raised (R533). -/
def State.deliverMsg (s : State) (i : Nat) (pkt : Packet) : State :=
  let n := clusterOfSlot i
  let p := (s.slot i).pitch
  let r := s.pitch p
  let k := tabGet r.inboxNext i 0
  let s1 := (s.callCluster n).writeSram n (s.inboxBase p i + k * s.obj (Key.at Key.inboxEntryBytes p))
    (headerBytes pkt ++ pkt.payload.take pkt.len)
  let s2 := s1.modPitch p (fun r => { r with
    inboxNext := tabSet r.inboxNext i ((k + 1) % s.obj (Key.at Key.inboxEntries p))
    inboxHeld := tabSet r.inboxHeld i (tabGet r.inboxHeld i [] ++ [(pkt.srcUnit, pkt.creditPeg)]) })
  s2.raiseLine n (s.arrivalLine p i) 55

/-- A message is written into the next inbox entry, header then payload, and the arrival line raised; a stale delivery or a full
inbox is refused (R476, R533). -/
def State.takeMsg (s : State) (pkt : Packet) : State :=
  if !s.tagCurrent pkt.tenant then s
  else if !s.unitCurrent pkt.dstUnit then s.staleDelivery pkt 0
  else
    let i := unitSlot pkt.dstUnit
    let p := (s.slot i).pitch
    if s.obj (Key.at Key.inboxEntries p) ≤ (tabGet (s.pitch p).inboxHeld i []).length
        || s.obj (Key.at Key.inboxEntryBytes p) < pkt.len + 64 then
      (s.bump (Key.at Key.inboxRefusals p)).emit (reply pkt .nack fcAddress)
    else s.deliverMsg i pkt

/-- MSG. -/
def execMsg (pkt : Packet) (s : State) : Host.Outcome State Fault Refusal := .next (s.arrive pkt (fun p t => (t.takeMsg p, true)))

/-- A message credit: 1 is given to the credit peg of the sender (R532); one of a stale generation is dropped (R36). -/
def State.takeMsgCredit (s : State) (pkt : Packet) : State :=
  if !s.tagCurrent pkt.tenant || 6 ≤ pkt.creditPeg / 1024 then s else s.givePeg pkt.creditPeg 1 none

/-- MSG_CREDIT. -/
def execMsgCredit (pkt : Packet) (s : State) : Host.Outcome State Fault Refusal :=
  .next (s.arrive pkt (fun p t => (t.takeMsgCredit p, true)))

/-- The NACK of a stale delivery at its sender (R477, R480). -/
def State.staleNack (s : State) (i : Nat) (addressed : UnitAddr) : State :=
  let n := clusterOfSlot i
  let p := (s.slot i).pitch
  let s1 := if bit ((s.pitch p).ent n 124 122) 0 then s.pulse n 240 (some [p]) else s.bump (Key.at Key.staleNacks p)
  if bit ((s.pitch p).hdr 8 8) 0 then s1.faultSlot i (fcStaleRole, unitBits addressed) 0xB2 (s.slot i).streamPtr else s1

/-- DETAIL of a refused request (R485). -/
def nackDetail (code : Nat) (sent p : Packet) : Nat :=
  if code = fcTenant then sent.tenant else if code = fcUnreachable then sent.dstModule
  else if sent.kind = .msg then unitBits p.dstUnit else sent.addr

/-- An EVENT packet: the pulse is raised on its line, one of the destination pitch's fabric range, if the unit is current
(R535). -/
def State.takeEvent (s : State) (pkt : Packet) : State :=
  if !s.tagCurrent pkt.tenant then s
  else if !s.unitCurrent pkt.dstUnit then s.staleDelivery pkt 1
  else
    let i := unitSlot pkt.dstUnit
    let n := clusterOfSlot i
    if overlap (pkt.line, 1) ((s.pitch (s.slot i).pitch).fabRange n) then s.raiseLine n pkt.line 55
    else s.emit (reply pkt .nack fcAddress)

/-- EVENT_PACKET. -/
def execEventPacket (pkt : Packet) (s : State) : Host.Outcome State Fault Refusal :=
  .next (s.arrive pkt (fun p t => (t.takeEvent p, true)))

/-- The pitch to which a line of a cluster is allocated (R155). -/
def State.lineOwner (s : State) (n line : Nat) : Option Nat :=
  (s.pitches.find? (fun e => e.2.st != .free && s.mayRaise e.1 n line)).map (·.1)

/-- The EVENT packet of a forwarded line of a pitch (R535). -/
def State.forwardPacket (s : State) (n p : Nat) (f : Forward) : Packet :=
  { s.fabricHeader (((s.slotsIn p n).head?).getD (32 * n)) .event f.unit.module 0 0 with
    dstUnit := f.unit, line := f.destLine, last := true, tenant := (s.pitch p).tenantTag }

/-- A forwarded line has one pulse less queued. -/
def State.unqueue (s : State) (n line : Nat) : State :=
  s.modCluster n (fun c => { c with
    forwards := c.forwards.map (fun g => if g.line = line then { g with queued := g.queued - 1 } else g) })

/-- EVENT_FORWARD_SEND: a queued pulse of a forwarded line leaves as an EVENT packet (R535). -/
def execEventForwardSend (cluster : Fin 6) (line : Nat) (s : State) : Host.Outcome State Fault Refusal :=
  let n := cluster.val
  match (s.cluster n).forwards.find? (·.line == line), s.lineOwner n line with
  | some f, some p =>
    if f.queued = 0 || s.cutStops p then .next s
    else
      let s1 := s.unqueue n line
      .next (match s1.inject p (s.forwardPacket n p f) with
        | .sent s2 => s2.bump (Key.at Key.eventsForwarded n)
        | .waits => s
        | .unreachable => (s1.bump Key.unreachableNacks).faultPitch p fcUnreachable f.unit.module)
  | _, _ => .next s

/-! ### Forwarded lines as objects (R535, R563) -/

/-- EventForwardDefine. -/
def State.doEventForwardDefine (n : Nat) (s : State) (_ : Caller) (v : List Byte) : State × Nat :=
  let d := leNat v
  let line := field d 7 0
  let f : Forward := { line, unit := unitOfBits (field d 46 8), destLine := field d 54 47 }
  if !onlyBits d [(54, 0)] then (s, stRange)
  else match s.lineOwner n line with
    | none => (s, stRefused)
    | some p =>
      if (s.pitch p).credit 0 = 0 || 6 ≤ f.unit.cluster || !s.inTorus f.unit.module then (s, stRefused)
      else (s.modCluster n (fun c => { c with forwards := c.forwards.filter (·.line != line) ++ [f] }), stOk)

def execEventForwardDefine (r : Req) (cluster : Fin 6) (v : List Byte) (s : State) : Host.Outcome State Fault Refusal :=
  .next (s.runCmd r (Key.at Key.eventForwardDefine cluster.val) rkOperator v (State.doEventForwardDefine cluster.val))

/-- EventForwardRemove. -/
def State.doEventForwardRemove (n : Nat) (s : State) (_ : Caller) (v : List Byte) : State × Nat :=
  let line := leNat v
  if (s.cluster n).forwards.any (·.line == line) then
    (s.modCluster n (fun c => { c with forwards := c.forwards.filter (·.line != line) }), stOk)
  else (s, stRefused)

def execEventForwardRemove (r : Req) (cluster : Fin 6) (v : List Byte) (s : State) : Host.Outcome State Fault Refusal :=
  .next (s.runCmd r (Key.at Key.eventForwardRemove cluster.val) rkOperator v (State.doEventForwardRemove cluster.val))

/-! ### Encoding streams as objects (R525, R526, R564) -/

/-- EncStreamAssign, or the release of a stream with bit 15: which of the two the caller asks for. -/
def State.encStream (assign : Bool) (s : State) (v : List Byte) : State × Nat :=
  let d := leNat v
  let k := field d 5 0
  let p := field d 12 8
  if !onlyBits d [(5, 0), (12, 8), (15, 15)] then (s, stRange)
  else if assign then
    if (s.pitch p).st = .free then (s, stRefused) else (s.setStream k { owner := p }, stOk)
  else (s.setStream k (s.stream k).release, stOk)

/-- A write of EncStreamAssign: bit 15 releases. -/
def State.doEncStream (s : State) (_ : Caller) (v : List Byte) : State × Nat := s.encStream (!bit (leNat v) 15) v

/-- ENC_STREAM_ASSIGN: a write of EncStreamAssign with bit 15 clear. -/
def execEncStreamAssign (r : Req) (v : List Byte) (s : State) : Host.Outcome State Fault Refusal :=
  if bit (leNat v) 15 then .next s else .next (s.runCmd r Key.encStreamAssign rkOperator v State.doEncStream)

/-- ENC_STREAM_RELEASE: a write of EncStreamAssign with bit 15 set. -/
def execEncStreamRelease (r : Req) (v : List Byte) (s : State) : Host.Outcome State Fault Refusal :=
  if !bit (leNat v) 15 then .next s else .next (s.runCmd r Key.encStreamAssign rkOperator v State.doEncStream)

/-- EncCountersClear: the stream's three counters return to 0 (R96, R564). -/
def State.doEncCountersClear (s : State) (_ : Caller) (v : List Byte) : State × Nat :=
  let k := leNat v
  if 64 ≤ k then (s, stRange)
  else (s.setStream k { s.stream k with clipped := 0, underflowed := 0, reencoded := 0 }, stOk)

def execEncCountersClear (r : Req) (v : List Byte) (s : State) : Host.Outcome State Fault Refusal :=
  .next (s.runCmd r Key.encCountersClear rkOperator v State.doEncCountersClear)

end Sys2Proof.Machine
end

