-- ==== Sys2Proof/Machine/Collectives.lean ====
section
/-! DEFINITION. Collectives and global operations of a group: the tree, FCOLL and FGLOBAL, and what their packets do at a node
(R536 to R546). -/

namespace Sys2Proof.Machine

/-! ### Groups and their trees (R536, R537) -/

/-- Bit range of a group's definition (R563). -/
def Group.get (g : Group) (hi lo : Nat) : Nat := field (leNat g.record) hi lo
def Group.root (g : Group) : Nat := g.get 54 40
def Group.member (g : Group) : Nat := g.get 4 0
def Group.store (g : Group) : Nat := g.get 70 64

/-- The ends of the box in X, Y and Z. -/
def Group.axes (g : Group) : List (Nat × Nat) := [(g.get 14 10, g.get 19 15), (g.get 24 20, g.get 29 25), (g.get 34 30, g.get 39 35)]

/-- Coordinates as a list, and the torus sizes. -/
def coordList (m : Nat) : List Nat := [(coords m).1, (coords m).2.1, (coords m).2.2]
def State.sizes (s : State) : List Nat := [s.dims.1, s.dims.2.1, s.dims.2.2]

/-- Does the box hold a module. -/
def Group.holds (g : Group) (m : Nat) : Bool :=
  (g.axes.zip (coordList m)).all (fun e => decide (e.1.1 ≤ e.2) && decide (e.2 ≤ e.1.2))

/-- One step along an axis of size k from a toward b within [lo, hi]; around the ring where the box spans it (R537). -/
def axisStep (k lo hi a b : Nat) : Nat :=
  if hi + 1 - lo = k then (if 2 * ((b + k - a) % k) ≤ k then (a + 1) % k else (a + k - 1) % k)
  else if a < b then a + 1 else a - 1

/-- The parent of a module in the group's tree (R537). -/
def State.treeParent (s : State) (g : Group) (m : Nat) : Option Nat :=
  match coordList m, coordList g.root, g.axes, s.sizes with
  | [x, y, z], [rx, ry, rz], [(x0, x1), (y0, y1), (z0, z1)], [kx, ky, kz] =>
    if x ≠ rx then some (moduleOf (axisStep kx x0 x1 x rx) y z)
    else if y ≠ ry then some (moduleOf x (axisStep ky y0 y1 y ry) z)
    else if z ≠ rz then some (moduleOf x y (axisStep kz z0 z1 z rz))
    else none
  | _, _, _, _ => none

/-- The children of this module in the group's tree. -/
def State.treeChildren (s : State) (g : Group) : List Nat :=
  (distinct ((List.range 6).map (s.neighbour s.moduleId))).filter (fun m =>
    m != s.moduleId && g.holds m && s.treeParent g m == some s.moduleId)

/-- The depth of the tree (R537). -/
def State.treeDepth (s : State) (g : Group) : Nat :=
  ((g.axes.zip s.sizes).zip (coordList g.root)).foldl (fun n e =>
    let (((lo, hi), k), r) := e
    n + (if hi + 1 - lo = k then k / 2 else max (r - lo) (hi - r))) 0

def State.group (s : State) (g : Nat) : Group := tabGet s.fabric.groups g {}
def State.setGroup (s : State) (g : Nat) (v : Group) : State :=
  { s with fabric := { s.fabric with groups := tabSet s.fabric.groups g v } }

/-- The tenant tag that a group's member pitch works under. -/
def State.groupTag (s : State) (g : Nat) : Nat := (s.pitch (s.group g).member).tenantTag

/-! ### Collective commands in progress -/

def State.collOf (s : State) (g : Nat) : Option CollOp := s.fabric.colls.find? (·.group == g)
def State.collAt (s : State) (g seq : Nat) : Option CollOp := s.fabric.colls.find? (fun o => o.group == g && o.seq == seq)

def State.modColl (s : State) (g seq : Nat) (f : CollOp → CollOp) : State :=
  { s with fabric := { s.fabric with colls := s.fabric.colls.map (fun o => if o.group = g ∧ o.seq = seq then f o else o) } }

def State.dropColl (s : State) (g seq : Nat) : State :=
  { s with fabric := { s.fabric with colls := s.fabric.colls.filter (fun o => !(o.group == g && o.seq == seq)) } }

/-- Packets of a collective, and the bytes of packet k. -/
def CollOp.packets (o : CollOp) : Nat := ceilDiv o.len 4096
def CollOp.bytesAt (o : CollOp) (k : Nat) : Nat := min 4096 (o.len - 4096 * k)

/-- The fault of a member's command. -/
def State.failColl (s : State) (o : CollOp) (f : PitchFault) : State :=
  match s.jobOf o.slot .xfr with
  | some j => s.faultSlot o.slot (if f.1 = fcDescriptor then (f.1, j.desc) else f) j.opcode j.cmdPtr
  | none => s.faultSlot o.slot f 0xB3 (s.slot o.slot).streamPtr

/-- A packet of a pitch waits for the pitch's own credits behind those that wait already (R473). -/
def State.queueDue (s : State) (pitch : Nat) (p : Packet) : State :=
  { s with fabric := { s.fabric with due := s.fabric.due ++ [(pitch, p)] } }

/-- Send packets of a member's command, each with its pitch's own credits (R473); one without a route tears its pitch down (R30,
R556). -/
def State.collSend (s : State) (o : CollOp) (ps : List Packet) : State :=
  ps.foldl (fun (t : State) p =>
    if t.fabric.due.any (fun e => e.1 == o.pitch && e.2.vc == p.vc) then t.queueDue o.pitch p
    else match t.inject o.pitch p with
      | .sent t' => t'
      | .waits => t.queueDue o.pitch p
      | .unreachable => (t.bump Key.unreachableNacks).failColl o (fcUnreachable, p.dstModule)) s

/-- Packets that waited for their pitch's credits leave as far as those go (R473, R474). -/
def State.sendDue (s : State) : State :=
  s.fabric.due.foldl (fun (t : State) e =>
    if t.cutStops e.1 || t.fabric.due.any (fun x => x.1 == e.1 && x.2.vc == e.2.vc) then t.queueDue e.1 e.2
    else match t.inject e.1 e.2 with
      | .sent t' => t'
      | .waits => t.queueDue e.1 e.2
      | .unreachable => (t.bump Key.unreachableNacks).faultPitch e.1 fcUnreachable e.2.dstModule)
    { s with fabric := { s.fabric with due := [] } }

/-- A packet of a collective (R516). -/
def State.collPacket (s : State) (o : CollOp) (kind : PktKind) (dst index : Nat) (payload : List Byte) (last bad : Bool) : Packet :=
  { s.fabricHeader o.slot kind dst 0 o.cls with
    group := o.group, seq := o.seq, pktIndex := index, cop := o.cop, rop := o.rop, rfmt := o.bf16, len := payload.length,
    last, poison := bad, code := if bad then fcDescriptor else 0, payload }

/-- Packet k of a member's result is written, or counts as done; the command ends with its last (R539). None where the
write waits for tier B space. -/
def State.collResult (s : State) (o : CollOp) (k : Nat) (bytes : Option (List Byte)) : Option State :=
  let note := fun (t : State) =>
    let t1 := t.modColl o.group o.seq (fun o => { o with written := distinct (k :: o.written) })
    match t1.collAt o.group o.seq with
    | none => t1
    | some o' => if o'.packets ≤ o'.written.length then t1.dropColl o.group o.seq else t1
  match bytes with
  | none => some (note s)
  | some bs =>
    let l : Loc := { space := o.space, cluster := o.cluster, addr := o.addr + 4096 * k }
    match s.writeLoc o.slot l bs with
    | (_, some (.stall _ _)) => none
    | (s1, some (.fault f)) => some (s1.failColl o f)
    | (s1, none) =>
      match s1.jobOf o.slot .xfr with
      | none => some (note s1)
      | some j =>
        let (s2, j') := s1.jobRequests j [] (l.requests bs.length)
        some (note (s2.putXfr j'))

/-- A result whose write has to wait has what it waits for started (R263, R301). -/
def State.stallResult (s : State) (o : CollOp) (k : Nat) : State :=
  match s.writeLoc o.slot { space := o.space, cluster := o.cluster, addr := o.addr + 4096 * k } (List.replicate (o.bytesAt k) 0) with
  | (_, some (.stall a w)) => s.stallQuota o.pitch (a, w)
  | _ => s

/-! ### Reduction (R540 to R542) -/

/-- Payload of a contribution as FP32 values. -/
def collValues (bf16 : Bool) (bs : List Byte) : List Word :=
  let n := bs.length / (if bf16 then 2 else 4)
  (List.range n).map (fun k => if bf16 then ofBf16 (codeAt .bf16 bs k) else BitVec.ofNat 32 (codeAt .fp32 bs k))

/-- The values as a payload; a bf16 sum narrows once here (R66). -/
def collPayload (bf16 : Bool) (xs : List Word) : List Byte :=
  let f : Fmt := if bf16 then .bf16 else .fp32
  packCodes f (xs.map (fun x => (narrow f x).bits.toNat))

/-- One reduction of two values (R64, R65, R540). -/
def reduceOp (rop : Nat) (a b : Word) : Word :=
  match rop with
  | 0 => (f32Add a b).bits
  | 1 => (f32Max a b).bits
  | _ => (f32Min a b).bits

/-- A contribution meets those before it, in order of arrival (R540). -/
def Reduction.meet (r : Reduction) (source : Nat) (c : Reduction) : Reduction :=
  { r with
    sources := r.sources ++ [source]
    values := if r.sources.isEmpty then c.values else List.zipWith (reduceOp r.rop) r.values c.values
    bad := r.bad || c.bad || r.cop != c.cop || r.rop != c.rop || r.bf16 != c.bf16 || r.bytes != c.bytes || r.last != c.last }

/-- ABORT: sent down the tree, and the member's command faults with DESCRIPTOR_INVALID (R542). -/
def State.abortColl (s : State) (o : CollOp) : State :=
  let s1 : State := { s with fabric := { s.fabric with
    reductions := s.fabric.reductions.filter (fun r => !(r.group == o.group && r.seq == o.seq)) } }
  (s1.collSend o ((s.treeChildren (s.group o.group)).map (fun m => s.collPacket o .collDown m 0 [] true true))).failColl o badDesc

/-- All contributions of an entry have met (R539): the entry is freed, and one packet goes to the parent, or, at the root,
the result down the tree and into the member's destination. -/
def State.finishReduction (s : State) (o : CollOp) (r : Reduction) : Option State :=
  let g := s.group o.group
  let s1 : State := { s with fabric := { s.fabric with
    reductions := s.fabric.reductions.filter (fun x => !(x.group == r.group && x.seq == r.seq && x.index == r.index)) } }
  let bs := collPayload r.bf16 r.values
  match s.treeParent g s.moduleId with
  | some up =>
    let s2 := s1.collSend o [s.collPacket o .collUp up r.index bs r.last r.bad]
    if o.cop = 1 then s2.collResult o r.index none else some s2
  | none =>
    if r.bad then some ((s1.abortColl o).bump (Key.at Key.collMismatches o.group))
    else
      let s2 := if o.cop = 0 then
          s1.collSend o ((s.treeChildren g).map (fun m => s.collPacket o .collDown m r.index bs r.last false)) else s1
      s2.collResult o r.index (some bs)

/-- A contribution reaches this node (R539, R541). None where it must wait for an entry, or for space for the result. -/
def State.contribute (s : State) (source : Nat) (c : Reduction) : Option State :=
  let g := s.group c.group
  let same := fun (r : Reduction) => r.group == c.group && r.seq == c.seq && r.index == c.index
  let used := (s.fabric.reductions.filter (·.group == c.group)).length
  match s.fabric.reductions.find? same with
  | none =>
    if g.store ≤ used then none
    else
      let r := ({ c with sources := [], values := [], bad := false } : Reduction).meet source c
      let s1 : State := { s with fabric := { s.fabric with reductions := s.fabric.reductions ++ [r] } }
      match (s.treeChildren g).isEmpty, s.collAt c.group c.seq with
      | true, some o => s1.finishReduction o r
      | _, _ => some s1
  | some r0 =>
    if r0.sources.contains source then some s
    else
      let r := r0.meet source c
      let s1 : State := { s with fabric := { s.fabric with reductions := s.fabric.reductions.map (fun x => if same x then r else x) } }
      match (s.moduleId :: s.treeChildren g).all r.sources.contains, s.collAt c.group c.seq with
      | true, some o => s1.finishReduction o r
      | _, _ => some s1

/-- The next own packet of a member's command enters the tree; none where it must wait (R541, R547). -/
def State.collNext (s : State) (g : Nat) : Option State :=
  match s.collOf g with
  | none => none
  | some o =>
    if s.cutStops o.pitch then none
    else
      let up := fun (t : State) => t.modColl g o.seq (fun o => { o with next := o.next + 1 })
      let k := o.next
      let bs := (o.data.drop (4096 * k)).take 4096
      match o.cop with
      | 8 =>
        if k = 0 then
          let arrived := ((s.fabric.barriers.find? (·.group == g)).map (·.arrived)).getD []
          some ({ up s with fabric := { (up s).fabric with
            barriers := s.fabric.barriers.filter (·.group != g) ++ [{ group := g, arrived := arrived ++ [s.moduleId] }] } })
        else none
      | 9 =>
        if (s.group g).root = s.moduleId then
          some (((s.collSend o ((s.treeChildren (s.group g)).map (fun m =>
            { kind := .global, gop := 1, group := g, seq := o.seq, dstModule := m, srcUnit := s.unitOf o.slot, tenant := s.groupTag g,
              vc := 1, len := o.data.length, payload := o.data, last := true }))).dropColl g o.seq).bump Key.globalBroadcasts)
        else none
      | 2 =>
        if (s.group g).root = s.moduleId && k < o.packets then
          ((up s).collSend o ((s.treeChildren (s.group g)).map (fun m =>
            s.collPacket o .collDown m k bs (k + 1 == o.packets) false))).collResult o k (some bs)
        else none
      | _ =>
        if k < o.packets then
          (up s).contribute s.moduleId {
            group := g, seq := o.seq, index := k, values := collValues o.bf16 bs, bytes := bs.length, cop := o.cop, rop := o.rop,
            bf16 := o.bf16, last := k + 1 == o.packets, cls := o.cls, tenant := s.groupTag g }
        else none

/-- Bring a group's own packets into the tree as far as they go. -/
def State.pumpGroup (s : State) (g : Nat) : State :=
  ((List.range (((s.collOf g).elim 0 (·.packets)) + 1)).foldl (fun (acc : State × Bool) _ =>
    if acc.2 then acc else match acc.1.collNext g with
      | some t => (t, false)
      | none => (((acc.1.collOf g).filter (fun o => o.cop != 8 && o.cop != 9 && (acc.1.group g).root == acc.1.moduleId
          && decide (o.next < o.packets))).elim acc.1 (fun o => acc.1.stallResult o o.next), true)) (s, false)).1

/-! ### Barriers (R545) -/

/-- The release reaches this member: it goes on down the tree, and the member's BARRIER is complete. -/
def State.releaseBarrier (s : State) (g : Nat) : State :=
  match s.collOf g with
  | none => s
  | some o =>
    if o.cop ≠ 8 then s
    else
      let down := (s.treeChildren (s.group g)).map (fun m => ({
        kind := .global, gop := 0, cop := 1, group := g, seq := o.seq, dstModule := m, srcUnit := s.unitOf o.slot,
        tenant := s.groupTag g, vc := 1, last := true } : Packet))
      ((s.dropColl g o.seq).bump Key.barriers).collSend o down

/-- Every arrival of a barrier that this node gathers has come: on to the parent, or the root's release. -/
def State.settleBarrier (s : State) (g : Nat) : State :=
  match s.fabric.barriers.find? (·.group == g), s.collOf g with
  | some b, some o =>
    if (s.moduleId :: s.treeChildren (s.group g)).all b.arrived.contains then
      let s1 : State := { s with fabric := { s.fabric with barriers := s.fabric.barriers.filter (·.group != g) } }
      match s.treeParent (s.group g) s.moduleId with
      | none => s1.releaseBarrier g
      | some up => s1.collSend o [{
          kind := .global, gop := 0, group := g, seq := o.seq, dstModule := up, srcUnit := s.unitOf o.slot, tenant := s.groupTag g,
          vc := 1, last := true }]
    else s
  | _, _ => s

/-- Everything a group can do now. -/
def State.serveGroup (s : State) (g : Nat) : State := (s.pumpGroup g).settleBarrier g

/-- Every group with a command in progress. -/
def State.serveGroups (s : State) : State := (s.fabric.colls.map (·.group)).foldl State.serveGroup s

/-! ### FCOLL and FGLOBAL (R538, R539, R544) -/

/-- Is a group defined here, with this pitch as its member. -/
def State.groupOk (s : State) (p g : Nat) : Bool := (s.group g).st == 1 && (s.group g).member == p

/-- A group's next command takes the next sequence number (R539). -/
def State.joinColl (s : State) (o : CollOp) : State :=
  let g := s.group o.group
  let s1 := s.setGroup o.group { g with nextSeq := (g.nextSeq + 1) % 65536 }
  { s1 with fabric := { s1.fabric with colls := s1.fabric.colls ++ [{ o with seq := g.nextSeq }] } }

/-- The work of FCOLL. -/
def State.fcollWork (s : State) (i d : Nat) : Work :=
  let p := (s.slot i).pitch
  let g := field d 303 298
  let cop := field d 297 295
  let rop := field d 294 292
  let bf16 := bit d 291
  let cls := field d 290 289
  let len := field d 288 265 + 1
  let src := locOf (field d 63 0)
  let dst := locOf (field d 127 64)
  if !onlyBits d [(314, 265), (127, 0)] || xSwap d != 0 || !locOk (field d 63 0) || !locOk (field d 127 64) || 2 < cop
      || (cop != 2 && 2 < rop) || len % (if bf16 then 2 else 4) != 0 then { s, err := some badDesc }
  else match firstFault [(!s.groupOk p g, (fcAddress, g)), ((s.pitch p).credit cls == 0, (fcAddress, cls)),
      (s.cmplBad i d, (fcAddress, xCmplLine d))] with
  | some f => { s, err := some f }
  | none =>
    let reads := cop != 2 || (s.group g).root == s.moduleId
    let (s1, bs, e) := if reads then s.readLoc i src len else (s, [], none)
    match e with
    | some e => { s := s1, err := some e }
    | none =>
      { s := s1.joinColl { group := g, seq := 0, slot := i, pitch := p, cop, rop := if cop = 2 then 0 else rop, bf16, cls, len,
                           space := dst.space, cluster := dst.cluster, addr := dst.addr, data := bs }
        cmpl := xCmpl d, reads := if reads then src.requests len else [] }

/-- Issue an FCOLL whose COP is the one of the row; another COP is another row's command. -/
def State.fcoll (s : State) (u : SlotRef) (w : CmdWord) (cop : Nat) : State :=
  let other := match s.readDesc (slotIndex u) w.toNat .d128 with
    | .ok d => field d 297 295 != cop && decide (field d 297 295 ≤ 2)
    | .error _ => false
  if other then s else (s.issueEngine u w 0xB3 .d128 xfrOnly State.fcollWork).serveGroups

/-- FCOLL with COP ALLREDUCE: contributions reduced, the result at every member (R538, R539). -/
def execFcollAllreduce (u : SlotRef) (w : CmdWord) (s : State) : Host.Outcome State Fault Refusal := .next (s.fcoll u w 0)

/-- FCOLL with COP REDUCE: the result at the root only. -/
def execFcollReduce (u : SlotRef) (w : CmdWord) (s : State) : Host.Outcome State Fault Refusal := .next (s.fcoll u w 1)

/-- FCOLL with COP BROADCAST: the root's data at every member. -/
def execFcollBroadcast (u : SlotRef) (w : CmdWord) (s : State) : Host.Outcome State Fault Refusal := .next (s.fcoll u w 2)

/-- The work of FGLOBAL. -/
def State.fglobalWork (s : State) (i d : Nat) : Work :=
  let p := (s.slot i).pitch
  let gop := field d 494 492
  let g := field d 491 486
  let len := field d 485 478
  let loc := locOf (field d 63 0)
  if !onlyBits d (commonBits ++ [(494, 478), (63, 0)]) || !directOp d 0xB4 || 1 < gop || 192 < len || (gop = 0 && len != 0)
      || (gop = 1 && (!locOk (field d 63 0) || !swapLenOk (xSwap d) len)) then { s, err := some badDesc }
  else match firstFault [(!s.groupOk p g, (fcAddress, g)), (s.cmplBad i d, (fcAddress, xCmplLine d))] with
  | some f => { s, err := some f }
  | none =>
    let reads := gop = 1 ∧ (s.group g).root = s.moduleId
    let (s1, bs, e) := if reads then s.readLoc i loc len else (s, [], none)
    match e with
    | some e => { s := s1, err := some e }
    | none =>
      { s := s1.joinColl { group := g, seq := 0, slot := i, pitch := p, cop := 8 + gop, rop := xSwap d, len, space := loc.space,
                           cluster := loc.cluster, addr := loc.addr, data := swapBytes (xSwap d) bs }
        cmpl := xCmpl d, reads := if reads then loc.requests len else [] }

/-- Issue an FGLOBAL whose GOP is the one of the row; another GOP is another row's command. -/
def State.fglobal (s : State) (u : SlotRef) (w : CmdWord) (gop : Nat) : State :=
  let other := match s.readDesc (slotIndex u) w.toNat .d64 with
    | .ok d => field d 494 492 != gop && decide (field d 494 492 ≤ 1)
    | .error _ => false
  if other then s else (s.issueEngine u w 0xB4 .d64 xfrOnly State.fglobalWork).serveGroups

/-- FGLOBAL with GOP BARRIER: complete when the release reaches the member (R545). -/
def execFglobalBarrier (u : SlotRef) (w : CmdWord) (s : State) : Host.Outcome State Fault Refusal := .next (s.fglobal u w 0)

/-- FGLOBAL with GOP BROADCAST: up to 192 B down the tree (R546). -/
def execFglobalBroadcast (u : SlotRef) (w : CmdWord) (s : State) : Host.Outcome State Fault Refusal := .next (s.fglobal u w 1)

/-! ### Packets of the tree (R539, R542, R545, R546) -/

/-- Has the member already issued the command of a sequence number (R539). -/
def State.collPast (s : State) (g seq : Nat) : Bool :=
  let ahead := ((s.group g).nextSeq + 65536 - seq) % 65536
  decide (0 < ahead) && decide (ahead ≤ 32768)

/-- Is a tenant tag that of a group's member, of the current generation (R36). -/
def State.groupTagOk (s : State) (g tenant : Nat) : Bool := tenant == s.groupTag g && s.tagCurrent tenant

/-- Is a tree packet one of a group defined here, of its tenant. -/
def State.treePacket (s : State) (p : Packet) : Bool :=
  (s.group p.group).st == 1 && s.groupTagOk p.group p.tenant

/-- The contribution that a COLL_UP packet carries. -/
def contributionOf (pkt : Packet) : Reduction := {
  group := pkt.group, seq := pkt.seq, index := pkt.pktIndex, values := collValues pkt.rfmt pkt.payload, bytes := pkt.len
  cop := pkt.cop, rop := pkt.rop, bf16 := pkt.rfmt, last := pkt.last, tenant := pkt.tenant, bad := pkt.poison }

/-- Does a contribution differ from the member's own command (R542). -/
def CollOp.differs (o : CollOp) (c : Reduction) : Bool :=
  c.bad || o.cop != c.cop || o.rop != c.rop || o.bf16 != c.bf16 || o.bytesAt c.index != c.bytes || (c.index + 1 == o.packets) != c.last

/-- A child's contribution meets the others; one that finds no entry waits (R539, R541). The root finds a contribution that differs
from its own command, and aborts (R542). -/
def takeCollUp (pkt : Packet) (s : State) : Received :=
  let source := pkt.srcUnit.module
  let c := contributionOf pkt
  if !s.treePacket pkt || !(s.treeChildren (s.group pkt.group)).contains source then (s, true)
  else match s.collAt pkt.group pkt.seq with
    | none =>
      if s.collPast pkt.group pkt.seq then (s, true)
      else (s.contribute source c).elim (s, false) (fun t => (t, true))
    | some o =>
      let root := (s.group pkt.group).root == s.moduleId
      if root && o.differs c then ((s.abortColl o).bump (Key.at Key.collMismatches pkt.group), true)
      else match s.contribute source c with
        | some t => (t.serveGroup pkt.group, true)
        | none => ((if root then s.stallResult o c.index else s).serveGroup pkt.group, false)

/-- COLL_UP. -/
def execCollUp (pkt : Packet) (s : State) : Host.Outcome State Fault Refusal := .next (s.arrive pkt takeCollUp)

/-- The packets that take a result on to the children of this node. -/
def State.resultDown (s : State) (o : CollOp) (pkt : Packet) : List Packet :=
  (s.treeChildren (s.group pkt.group)).map (fun m => s.collPacket o .collDown m pkt.pktIndex pkt.payload pkt.last false)

/-- A result goes on down the tree and is written at the member; ABORT faults its command (R539, R542). It waits until the member has
issued its command. -/
def takeCollDown (pkt : Packet) (s : State) : Received :=
  if !s.treePacket pkt || s.treeParent (s.group pkt.group) s.moduleId != some pkt.srcUnit.module then (s, true)
  else match s.collAt pkt.group pkt.seq with
    | none => (s, s.collPast pkt.group pkt.seq)
    | some o =>
      if pkt.poison then (s.abortColl o, true)
      else
        match (s.collSend o (s.resultDown o pkt)).collResult o pkt.pktIndex (some (pkt.payload.take (o.bytesAt pkt.pktIndex))) with
        | none => (s.stallResult o pkt.pktIndex, false)
        | some s1 => (s1.serveGroup pkt.group, true)

/-- COLL_DOWN. -/
def execCollDown (pkt : Packet) (s : State) : Host.Outcome State Fault Refusal := .next (s.arrive pkt takeCollDown)

/-- A module's arrival at a group's barrier is noted. -/
def State.noteArrival (s : State) (group module : Nat) : State :=
  let arrived := ((s.fabric.barriers.find? (·.group == group)).map (·.arrived)).getD []
  { s with fabric := { s.fabric with
    barriers := s.fabric.barriers.filter (·.group != group) ++ [{ group, arrived := distinct (arrived ++ [module]) }] } }

/-- GLOBAL_BARRIER_ARRIVAL: a child's arrival (R545), dropped with a stale tenant tag (R36). -/
def execGlobalBarrierArrival (group module tenant : Nat) (s : State) : Host.Outcome State Fault Refusal :=
  if (s.group group).st ≠ 1 || !s.groupTagOk group tenant || !(s.treeChildren (s.group group)).contains module then .next s
  else .next ((s.noteArrival group module).settleBarrier group)

/-- GLOBAL_BARRIER_RELEASE: the release reaches this member (R545). -/
def execGlobalBarrierRelease (group tenant : Nat) (s : State) : Host.Outcome State Fault Refusal :=
  .next (if s.groupTagOk group tenant then s.releaseBarrier group else s)

/-- The packets that take a broadcast on to the children of this node. -/
def State.broadcastDown (s : State) (o : CollOp) (payload : List Byte) : List Packet :=
  (s.treeChildren (s.group o.group)).map (fun m => {
    kind := .global, gop := 1, group := o.group, seq := o.seq, dstModule := m, srcUnit := s.unitOf o.slot, tenant := s.groupTag o.group
    vc := 1, len := payload.length, payload, last := true })

/-- The payload goes on down the tree and is written at the member (R546). It waits until the member has issued its command. -/
def takeBroadcast (pkt : Packet) (s : State) : Received :=
  if !s.groupTagOk pkt.group pkt.tenant || (s.group pkt.group).st ≠ 1 || (s.group pkt.group).root = s.moduleId then (s, true)
  else match s.collOf pkt.group with
    | none => (s, false)
    | some o =>
      if o.cop ≠ 9 then (s, false)
      else
        let data := swapBytes o.rop (pkt.payload.take o.len)
        match (s.collSend o (s.broadcastDown o pkt.payload)).collResult { o with len := 1 } 0 (some data) with
        | none => (s.stallResult o 0, false)
        | some s1 => ((s1.dropColl pkt.group o.seq).bump Key.globalBroadcasts, true)

/-- GLOBAL_BROADCAST_PACKET. -/
def execGlobalBroadcastPacket (group tenant : Nat) (payload : List Byte) (s : State) : Host.Outcome State Fault Refusal :=
  .next (s.arrive { kind := .global, gop := 1, group, tenant, dstModule := s.moduleId, vc := 1, len := payload.length, payload }
    takeBroadcast)

/-! ### Groups as objects (R536, R541, R563) -/

/-- CollGroupDefine: refused where the group is defined, the pitch ID FREE, the box or root outside the torus, this module
outside the box, or the store would hold more than 512 entries. -/
def State.doCollGroupDefine (g : Nat) (s : State) (_ : Caller) (v : List Byte) : State × Nat :=
  let d := leNat v
  let r : Group := { st := 1, record := v }
  let others := (s.fabric.groups.filter (fun e => e.1 != g && e.2.st != 0)).foldl (fun n e => n + e.2.store) 0
  if !onlyBits d [(4, 0), (54, 10), (70, 64)] || r.store = 0 || 64 < r.store then (s, stRange)
  else if (s.group g).st ≠ 0 || (s.pitch r.member).st = .free || !(r.axes.zip s.sizes).all (fun e => decide (e.1.1 ≤ e.1.2) && decide (e.1.2 < e.2))
      || !r.holds r.root || !r.holds s.moduleId || 512 < others + r.store then (s, stRefused)
  else (s.setGroup g r, stOk)

def execCollGroupDefine (r : Req) (group : Fin 64) (v : List Byte) (s : State) : Host.Outcome State Fault Refusal :=
  .next (s.runCmd r (Key.at Key.collGroupDefine group.val) rkOperator v (State.doCollGroupDefine group.val))

/-- A group is undefined and its store entries are free (R563). -/
def State.removeGroup (s : State) (g : Nat) : State :=
  let s1 := s.setGroup g {}
  { s1 with fabric := { s1.fabric with
    reductions := s1.fabric.reductions.filter (·.group != g), barriers := s1.fabric.barriers.filter (·.group != g) } }

/-- CollGroupRemove. -/
def State.doCollGroupRemove (g : Nat) (s : State) (_ : Caller) (_ : List Byte) : State × Nat :=
  if (s.group g).st = 0 then (s, stRefused)
  else (s.removeGroup g, stOk)

def execCollGroupRemove (r : Req) (group : Fin 64) (v : List Byte) (s : State) : Host.Outcome State Fault Refusal :=
  .next (s.runCmd r (Key.at Key.collGroupRemove group.val) rkOperator v (State.doCollGroupRemove group.val))

end Sys2Proof.Machine
end

