-- ==== Sys2Proof/Machine/Ports.lean ====
section
/-! DEFINITION. Ports, links, forwarding and fabric time (R498 to R515, R551 to R557). -/

namespace Sys2Proof.Machine

/-- Does the fabric router run: in ACTIVE and DOZE (R14). -/
def State.routerOn (s : State) : Bool := s.power.st == .active || s.power.st == .doze

/-! ### Port states (R501 to R503, R554 to R557) -/

/-- PortState codes (R502). -/
def PortState.code (p : PortState) : Nat :=
  match p with
  | .disabled => 0
  | .training => 1
  | .up => 2
  | .down => 3
  | .miswired => 4
  | .parked => 5

/-- The state of a port, its object with it; what was in flight on a port that is no longer UP is in flight no more (R474). -/
def State.portTo (s : State) (p : Nat) (st : PortState) : State :=
  let s1 := ((s.setPort p { s.port p with st }).setObj (Key.at Key.portState p) st.code).mark (tmPort p)
  if st = .up then s1
  else { s1 with fabric := { s1.fabric with inFlight := s1.fabric.inFlight.filter (·.port != p) } }

/-- Is a port's dimension larger than 1 in a profile with optics on (R502, R557). -/
def State.portUsable (s : State) (p : Nat) : Bool := s.obj Key.profileOptics == 1 && decide (1 < s.sizes.getD (p % 3) 1)

/-- A port's detour entry goes into use, or idle (R554, R556): its bit of DetourPorts; packets held for the port move to
the escape channels. -/
def State.useDetour (s : State) (p : Nat) : State :=
  let bits := s.obj Key.detourPorts
  if bit bits p || (s.detourPort p).isNone then s
  else
    let s1 := (s.setObj Key.detourPorts (bits + 2 ^ p)).bump Key.detourSwitches
    { s1 with fabric := { s1.fabric with held := s1.fabric.held.map (fun h =>
      if h.port = p then { h with escape := true, vc := 6, pkt := { h.pkt with detour := true } } else h) } }

def State.idleDetour (s : State) (p : Nat) : State :=
  let bits := s.obj Key.detourPorts
  if bit bits p then s.setObj Key.detourPorts (bits - 2 ^ p) else s

/-- PORT_TRAINING_DONE: the far end is the expected neighbour on the opposite port, and the port is UP; or it is MISWIRED
(R503, R505). -/
def execPortTrainingDone (port : Fin 6) (farModule farPort : Nat) (s : State) : Host.Outcome State Fault Refusal :=
  let p := port.val
  if (s.port p).st != .training || !s.routerOn then .next s
  else
    let s1 := s.setObj (Key.at Key.portNeighbour p) farModule
    if farModule = s.neighbour s.moduleId p && farPort = (p + 3) % 6 then
      .next (((s1.portTo p .up).bump (Key.at Key.portUpCount p)).idleDetour p)
    else .next (s1.portTo p .miswired)

/-- PORT_DOWN: an UP port fails (R501); a lane's failure is logged (R666, R667); traffic takes its detour (R554, R555). -/
def execPortDown (port : Fin 6) (lane : Option (Bool × Fin 4)) (s : State) : Host.Outcome State Fault Refusal :=
  let p := port.val
  if (s.port p).st != .up then .next s
  else
    let s1 := ((s.portTo p .down).bump (Key.at Key.portDownCount p)).useDetour p
    .next (match lane with
      | none => s1
      | some (tx, k) => s1.logEvent { kind := 7, outcome := ocLaneDown, location := flag tx * 32 + p * 4 + k.val, source := 5 })

/-- PORT_TRAINING_RETRY: a DOWN port trains again every 10 ms, a MISWIRED one every 100 ms (R502). -/
def execPortTrainingRetry (port : Fin 6) (s : State) : Host.Outcome State Fault Refusal :=
  let p := port.val
  if (((s.port p).st == .down && s.passed (tmPort p) 10000000) || ((s.port p).st == .miswired && s.passed (tmPort p) 100000000))
      && s.routerOn then .next (s.portTo p .training) else .next s

/-- Park a port: down in order, at a packet boundary (R557). -/
def State.parkPort (s : State) (p : Nat) : State :=
  match (s.port p).st with
  | .disabled => s
  | .parked => s
  | _ => (s.portTo p .parked).useDetour p

/-- A parked or disabled port trains again (R557). -/
def State.trainPort (s : State) (p : Nat) : State :=
  if ((s.port p).st == .parked || (s.port p).st == .disabled) && s.portUsable p then s.portTo p .training else s

/-- A write of PortEnable (R557). -/
def State.writePortEnable (p : Nat) (s : State) (_ : Caller) (v : Nat) : State × Nat :=
  let s1 := s.setObj (Key.at Key.portEnable p) v
  (if v = 0 then s1.parkPort p else s1.trainPort p, stOk)

/-- PORT_ENABLE: 0 parks the port, 1 starts its training (R557, R560). -/
def execPortEnable (r : Req) (port : Fin 6) (v : List Byte) (s : State) : Host.Outcome State Fault Refusal :=
  .next (s.runScalar r (Key.at Key.portEnable port.val) rkOperator v (State.writePortEnable port.val))

/-- FLIT_CRC_ERROR: the flit is discarded and its replay asked for from its sequence number (R500). -/
def execFlitCrcError (port : Fin 6) (seq : Nat) (s : State) : Host.Outcome State Fault Refusal :=
  let p := port.val
  if (s.port p).st != .up then .next s
  else .next ((s.setPort p { s.port p with replayFrom := seq }).bump (Key.at Key.replayedFlits p))

/-! ### Forwarding (R508 to R514, R554, R556) -/

/-- The escape channel of a packet's next hop (R513): VC7 once it has crossed the dateline of the dimension it goes on in. -/
def State.escapeVc (s : State) (input next vc : Nat) : Nat :=
  let k := s.sizes.getD (input % 3) 1
  let a := (coordList s.moduleId).getD (input % 3) 0
  if input % 3 ≠ next % 3 then 6
  else if (3 ≤ input && a = 0) || (input < 3 && a + 1 = k) then 7
  else if vc = 7 then 7 else 6

/-- Send a packet out of a port on a channel. -/
def State.putOut (s : State) (p : Packet) (port vc : Nat) (detour : Bool) : State :=
  let q := { p with vc := vc, detour := p.detour || detour }
  ({ s with fabric := { s.fabric with sent := s.fabric.sent ++ [(port, vc, q)] } }).bump (Key.at Key.txFlits port) (packetFlits p)

/-- The port of dimension-order routing that a packet takes, or its detour (R513, R554, R556). -/
def State.escapePort (s : State) (dst : Nat) : Option (Nat × Bool) :=
  match (s.productive dst).head? with
  | none => none
  | some p => if s.portUp p then some (p, false) else (s.detourPort p).map (fun q => (q, true))

/-- Answer a packet for which no port is UP toward its destination (R556). -/
def State.unreachableNack (s : State) (p : Packet) : State :=
  (s.bump Key.unreachableNacks).emit { reply p .nack fcUnreachable with dstUnit := { p.dstUnit with module := p.dstModule } }

/-- A packet is held for a port that has no credit (R512). -/
def State.holdPacket (s : State) (pkt : Packet) (port : Nat) : State :=
  { s with fabric := { s.fabric with held := s.fabric.held ++ [{ pkt, port, vc := pkt.vc, since := s.time }] } }

/-- PACKET_FORWARD: a passing packet leaves on the productive port with the most credit, or is held where none has credit
(the counts of credits are no state of the model: which port, if any, has credit is a free value); escape and ORDERED packets
keep dimension order; one bound for a port that is not UP takes its detour (R512 to R514, R554, R556). -/
def execPacketForward (port : Fin 6) (pkt : Packet) (s : State) : Host.Outcome State Fault Refusal :=
  let inp := port.val
  if pkt.dstModule = s.moduleId || !s.routerOn then .next s
  else
    let s1 := s.bump (Key.at Key.rxFlits inp) (packetFlits pkt)
    let ups := (s1.productive pkt.dstModule).filter s1.portUp
    if pkt.vc < 2 || 6 ≤ pkt.vc || ups.isEmpty || pkt.ordered then
      match s1.escapePort pkt.dstModule with
      | none => .next (s1.unreachableNack pkt)
      | some (q, det) =>
        let vc := if pkt.vc < 2 then pkt.vc else if 6 ≤ pkt.vc then s1.escapeVc inp q pkt.vc else if det then 6 else pkt.vc
        .next (s1.putOut pkt q vc det)
    else
      let (k, s2) := s1.fresh
      let ports := sortBy id ups
      let c := Config.freeNat k % (ports.length + 1)
      match ports[c]? with
      | some q => .next (s2.putOut pkt q pkt.vc false)
      | none => .next (s2.holdPacket pkt (ports.headD 0))

/-- A held packet leaves the held ones. -/
def State.unhold (s : State) (index : Nat) : State :=
  { s with fabric := { s.fabric with held := s.fabric.held.eraseIdx index } }

/-- ESCAPE_WAIT_EXPIRY: a held packet has found no credit for EscapeWaitNs and leaves on the escape channels (R512, R513). -/
def execEscapeWaitExpiry (index : Nat) (s : State) : Host.Outcome State Fault Refusal :=
  match s.fabric.held[index]? with
  | none => .next s
  | some h =>
    if s.time < h.since + s.obj Key.escapeWaitNs then .next s
    else
    let s1 := s.unhold index
    match s1.escapePort h.pkt.dstModule with
    | none => .next (s1.unreachableNack h.pkt)
    | some (q, det) => .next (s1.putOut h.pkt q 6 det)

/-! ### Fabric time (R48, R551 to R553) -/

/-- The port one step toward the root (R551); 7 at the root. -/
def State.parentPort (s : State) (root : Nat) : Nat :=
  let hops := ((List.range 3).zip ((coordList s.moduleId).zip (coordList root))).filterMap (fun e =>
    (productiveIn e.1 (s.sizes.getD e.1 1) e.2.1 e.2.2).head?)
  (hops.getLast?).getD 7

/-- Adjust fabric time toward an aligned count (R48): a step forward where the difference exceeds 1 ms, else a slew. -/
def State.alignTime (s : State) (offset : Int) : State :=
  if 1000000 < offset then { s with time := s.time + offset.toNat, mgmt := { s.mgmt with slewTo := 0 } }
  else { s with mgmt := { s.mgmt with slewTo := offset } }

/-- A TIME packet to the neighbour through a port on VC0 (R552). -/
def State.sendTime (s : State) (p : Nat) (payload : List Byte) : State :=
  s.emit { kind := .time, dstModule := s.neighbour s.moduleId p, srcUnit := { module := s.moduleId }, stamp := s.time, vc := 0,
           len := payload.length, payload }

/-- The parent's answer to a child's packet sent at t1: t1 and t2 in its payload, t3 its stamp (DESIGN CHOICE, log entry 128: R552
gives a TIME packet no layout). -/
def State.answerTime (s : State) (p t1 : Nat) : State := s.sendTime p (natLe 8 t1 ++ natLe 8 s.time)

/-- TIME_EXCHANGE: a child starts its exchange with its parent; a parent answers a child with its own time (R50, R552). -/
def execTimeExchange (child : Option (Fin 6 × Nat)) (s : State) : Host.Outcome State Fault Refusal :=
  let p := s.obj Key.timeParentPort
  if !s.routerOn then .next s
  else match child with
    | none => if 6 ≤ p || !s.windowBegun tmExchange 1000000 then .next s else .next ((s.mark tmExchange).sendTime p [])
    | some (port, t1) => if port.val = p || !s.portUp port.val then .next s else .next (s.answerTime port.val t1)

/-- A measured exchange with the parent takes effect: the link delay and the offset are noted, and fabric time is adjusted (R48, R552). -/
def State.takeExchange (s : State) (delay offset : Int) : State :=
  let p := s.obj Key.timeParentPort
  let s1 := (s.fresh.2.setObj Key.timeLinkDelayNs (unsigned 32 delay)).setObj Key.timeOffsetNs (unsigned 32 (-offset))
  let s2 := s1.setObj (Key.at Key.fibreMetres p) (Config.freeNat s.freeCtr % 65536)
  ({ s2 with fabric := { s2.fabric with holdover := false } }.alignTime offset).mark tmTime

/-- TIME_PACKET: the exchange's four stamps at a child (t1 sent here, t2 received and t3 sent at the parent, t4 received
here): the link delay and the offset are measured and fabric time is adjusted (R48, R552). -/
def execTimePacket (t1 t2 t3 t4 : Nat) (s : State) : Host.Outcome State Fault Refusal :=
  if 6 ≤ s.obj Key.timeParentPort then .next s
  else .next (s.takeExchange ((((t4 : Int) - t1) - ((t3 : Int) - t2)) / 2) ((((t2 : Int) - t1) + ((t3 : Int) - t4)) / 2))

/-- The time base runs on its own rate (R553). -/
def State.beginHoldover (s : State) : State := ({ s with fabric := { s.fabric with holdover := true } }).bump Key.timeHoldovers

/-- TIME_HOLDOVER: no TIME packet for 3 ms (R553). -/
def execTimeHoldover (s : State) : Host.Outcome State Fault Refusal :=
  if 6 ≤ s.obj Key.timeParentPort || s.fabric.holdover || !s.passed tmTime 3000000 then .next s
  else .next s.beginHoldover

/-- The tree of fabric time has a root (R551). -/
def State.takeRoot (s : State) (root : Nat) : State :=
  let s1 := (s.setObj Key.timeRootModule root).setObj Key.timeParentPort (s.parentPort root)
  { s1 with fabric := { s1.fabric with holdover := false } }

/-- TIME_ROOT_TAKEOVER: the next root under R551; a module takes it over itself only where it is eligible (R553). -/
def execTimeRootTakeover (root : Nat) (s : State) : Host.Outcome State Fault Refusal :=
  if !s.inTorus root || (root = s.moduleId && s.obj Key.timeRootEligible = 0) then .next s
  else
    .next (s.takeRoot root)

end Sys2Proof.Machine
end

