-- ==== Sys2Proof/Machine/Listening.lean ====
section
/-! DEFINITION. Listening and the wake cascade (chapter 11): the acoustic front end and its ring, the audio streams, L0 and L1,
the stages' wakes and drops, glimpse, and playback. -/

namespace Sys2Proof.Machine

/-! ### Samples (R569 to R577) -/

/-- Change the listening part of the state. -/
def State.modListen (s : State) (f : Listening → Listening) : State := { s with listen := f s.listen }

/-- Is the Lantern domain powered (R737), and its islands up. -/
def State.lanternOn (s : State) : Bool :=
  (s.power.st == .active || s.power.st == .doze || s.power.st == .lantern) && s.up 57 && s.up 58

/-- m·2^e / 256 rounded to the nearest integer, ties away from zero (R572). -/
def roundOver256 (m : Nat) (e : Int) : Nat :=
  if 8 ≤ e then m * 2 ^ (e - 8).toNat else (2 * m + 2 ^ (8 - e).toNat) / (2 * 2 ^ (8 - e).toNat)

/-- Narrow ±r to 16 bits (R572): the value, and whether it saturated. -/
def narrow16 (neg : Bool) (r : Nat) : Int × Bool :=
  if neg then (if 32768 < r then (-32767, true) else (-(r : Int), false))
  else (if 32767 < r then (32767, true) else ((r : Int), false))

/-- Narrow a 24-bit sample to 16 bits (R572). -/
def narrowSample (v : Int) : Int × Bool := narrow16 (decide (v < 0)) (roundOver256 v.natAbs 0)

/-- Narrow a beam's FP32 value to 16 bits (R572, R573); a NaN has no stated result. -/
def State.narrowBeam (s : State) (x : Word) : State × Int × Bool :=
  match f32Value x with
  | .nan => (s.fresh.2, signed 16 (Config.freeNat s.freeCtr), false)
  | .inf neg => (s, if neg then -32767 else 32767, true)
  | .fin neg m e => let r := narrow16 neg (roundOver256 m e); (s, r.1, r.2)

/-- FP32 pattern of a 24-bit sample. -/
def sampleF32 (v : Int) : Word := f32Of (.fin (decide (v < 0)) v.natAbs 0)

/-- The result of one channel's 31-tap filter (R573): taps in ascending order (DESIGN CHOICE, log entry 61). -/
def firChannel (coeffs : List Byte) (c : Nat) (xs : List Int) : Word :=
  (List.range 31).foldl (fun acc k =>
    (f32Add acc (f32Mul (ofBf16 (leNat ((coeffs.drop (2 * (31 * c + k))).take 2))) (sampleF32 (xs.getD k 0))).bits).bits) 0

/-- One beam sample: the 16 channel results summed in FP32, in ascending channel order (R573). -/
def beamSum (coeffs : List Byte) (history : Tab (List Int)) : Word :=
  (List.range 16).foldl (fun acc c => (f32Add acc (firChannel coeffs c (tabGet history c []))).bits) 0

/-- A channel's sample as it enters the chain: a disabled microphone gives 0 (R602). -/
def State.channelIn (s : State) (c : Nat) (v : Int) : Int :=
  if c < 16 && !bit (s.obj Key.pdmChannelEnable) c then 0 else v

/-- Take a channel's sample through its trim (R570): a whole number of samples delays it exactly; the result of a fractional
delay is not stated. -/
def State.trimChannel (s : State) (c : Nat) (v : Int) : State :=
  let l := s.listen
  let raw := (v :: tabGet l.raw c []).take 9
  let t := s.obj (Key.channelTrim + c)
  let y := if t % 64 = 0 then raw.getD (t / 64) 0 else signed 24 (Config.freeNat s.freeCtr)
  let s1 := if t % 64 = 0 then s else s.fresh.2
  s1.modListen (fun l => { l with raw := tabSet l.raw c raw, history := tabSet l.history c ((y :: tabGet l.history c []).take 31) })

/-- Count saturated samples (R572). -/
def State.countSat (s : State) (n : Nat) : State :=
  if n = 0 then s else (s.bump Key.channelSaturations n).modListen (fun l => { l with blockSat := true })

/-- Form the beams of the current index; a disabled beam outputs 0 (R573). -/
def State.formBeams (s : State) : State × List Int :=
  (List.range 4).foldl (fun (acc : State × List Int) b =>
    if bit (acc.1.obj Key.beamEnable) b then
      let (t, v, sat) := acc.1.narrowBeam (beamSum (acc.1.domain (Key.beamCoeffs + b)) acc.1.listen.history)
      (t.countSat (flag sat), acc.2 ++ [v])
    else (acc.1, acc.2 ++ [0])) (s, [])

/-- The bone sample of the current index (R574). -/
def State.boneSample (s : State) : Int :=
  let b := s.obj Key.tdmBoneSlot
  if 8 ≤ b then 0 else (narrowSample ((tabGet s.listen.history (16 + b) []).getD 15 0)).1

/-- A block of 160 samples is complete (R578, R579): what was noted of it, and its RAW packet. -/
def State.endBlock (s : State) (n : Nat) : State :=
  let l := s.listen
  let voice := l.voiced.foldl (fun a b => a + 2 ^ b) 0
  let info : BlockInfo := { block := n / 160, voice, sat := l.blockSat }
  let raw := if s.obj (Key.at Key.streamQueue 3) < 32 && l.rawBlock.length == 7680
      && (s.power.st == .active || s.power.st == .doze) then
      [{ block := n / 160, stamp := l.rawStamp, data := l.rawBlock : RawBlock }] else []
  s.modListen (fun l => { l with
    infos := (info :: l.infos).take 411, blockSat := false, rawBlock := [], rawReady := l.rawReady ++ raw })

/-- The frame of index n enters the ring and the RAW block: `frame` its 10 B, `now` the narrowed channels, `stamp` its stamp
(R576, R577, R600). -/
def Listening.putFrame (l : Listening) (stamp : Nat) (frame : List Byte) (now : List Int) : Listening :=
  let n := l.index
  let recent := (stamp :: l.recent).take 16
  let ringStamp := recent.getD 15 (stamp - 937500)
  { l with
    recent
    ring := memWrite l.ring (10 * (n % 65536)) frame
    groundPoison := l.groundPoison.filter (fun e =>
      !(decide (10 * (n % 65536) < 64 * e.1 + 64) && decide (64 * e.1 + 64 ≤ 10 * (n % 65536) + 10)))
    stamps := if n % 64 = 0 then memWrite l.stamps (8 * (n / 64 % 1024)) (natLe 8 (ringStamp / 4 * 4)) else l.stamps
    rawStamp := if n % 160 = 0 then stamp else l.rawStamp
    rawBlock := (if n % 160 = 0 then [] else l.rawBlock) ++ now.flatMap (fun v => natLe 2 (unsigned 16 v))
    index := n + 1 }

/-- The state once every channel has taken its sample, saturated ones counted, and the channels as 16-bit values. -/
def State.takeChannels (s : State) (samples : List Int) : State × List Int :=
  let s1 := (List.range 24).foldl (fun (t : State) c => t.trimChannel c (t.channelIn c (samples.getD c 0))) s
  let now := (List.range 24).map (fun c => narrowSample ((tabGet s1.listen.history c []).getD 0 0))
  (s1.countSat (now.filter (·.2)).length, now.map (·.1))

/-- AUDIO_SAMPLE: the sample of index n on every channel, with its stamp (R569 to R577, R600). -/
def execAudioSample (samples : List Int) (s : State) : Host.Outcome State Fault Refusal :=
  if !s.lanternOn then .next s
  else
    let n := s.listen.index
    let (s2, now) := s.takeChannels samples
    let (s3, beams) := s2.formBeams
    let frame := (beams ++ [s3.boneSample]).flatMap (fun v => natLe 2 (unsigned 16 v))
    let s4 := s3.modListen (fun l => l.putFrame ((s.time - 1000000) / 4 * 4) frame now)
    .next (if n % 160 = 159 then s4.endBlock n else s4)

/-! ### The ring as blocks (R577, R580, R594) -/

/-- The stamp of a frame of the ring (R577); where the next entry is not yet written, one sample is 62,500 ns. -/
def Listening.stampOf (l : Listening) (i : Nat) : Nat :=
  let j := i / 64 % 1024
  let e0 := memNat l.stamps (8 * j) 8 / 4 * 4
  let e1 := memNat l.stamps (8 * ((j + 1) % 1024)) 8 / 4 * 4
  let d := if (i / 64 + 1) * 64 < l.index then i % 64 * (e1 - e0) / 64 else i % 64 * 62500
  e0 + d / 4 * 4

/-- The first index that the ring holds, and the first and the end of its whole blocks. -/
def Listening.oldest (l : Listening) : Nat := max l.ringStart (l.index - 65536)
def Listening.firstBlock (l : Listening) : Nat := ceilDiv l.oldest 160
def Listening.endBlocks (l : Listening) : Nat := l.index / 160

/-- What was noted of a block. -/
def Listening.info (l : Listening) (b : Nat) : BlockInfo := (l.infos.find? (·.block == b)).getD { block := b }

/-- PROD_FLAGS of a block (R579, R594, R653): INVALID on the first block after a restart whose first index is not the first
after it, and on a block with a poisoned frame. -/
def Listening.prodFlags (l : Listening) (b : Nat) (short replay : Bool) : Nat :=
  let i := l.info b
  let restart := l.ringStart != 0 && b == ceilDiv l.ringStart 160 && l.ringStart % 160 != 0
  let invalid := restart || (poisonIn l.groundPoison (1600 * b % 655360) 1600).isSome
  2 * flag replay + 4 * flag short + 8 * flag invalid + 16 * flag i.sat
    + i.trigger.elim 0 (fun beam => 32 + 64 * beam) + 256 * i.voice

/-- The queue of a stream (R603). -/
def State.streamQ (s : State) (k : Nat) : Nat := s.obj (Key.at Key.streamQueue k)

/-- Commit a block of a stage stream from the ring (R578 to R580). -/
def State.commitBlock (s : State) (k b : Nat) (replay : Bool) : State :=
  let l := s.listen
  let short := l.streamShort.contains k
  let payload := (List.range 1600).map (fun i => s.ringByte ((1600 * b + i) % 655360))
  let s1 := (s.burstPacket 57 (s.streamQ k) (l.stampOf (160 * b)) (l.prodFlags b short replay) payload).bump
    (Key.at Key.streamPackets k)
  s1.modListen (fun l => { l with streamPos := tabSet l.streamPos k (b + 1), streamShort := l.streamShort.filter (· != k) })

/-- A stream begins with the block that holds the sample stamped T − WakeLookBackMs, or the oldest valid one (R580, R594). -/
def State.startStream (s : State) (k t : Nat) : State :=
  let l := s.listen
  let look : Int := (t : Int) - 1000000 * s.obj Key.wakeLookBackMs
  let blocks := (List.range (l.endBlocks - l.firstBlock)).map (· + l.firstBlock)
  let old := (blocks.filter (fun b => decide ((l.stampOf (160 * b) : Int) ≤ look))).getLast?
  let start := old.getD (min l.firstBlock l.endBlocks)
  s.modListen (fun l => { l with
    streamsOn := l.streamsOn.filter (· != k) ++ [k]
    streamPos := tabSet l.streamPos k start
    streamEnd := tabSet l.streamEnd k l.endBlocks
    streamShort := l.streamShort.filter (· != k) ++ (if old.isNone then [k] else []) })

/-- Skip a block that the ring no longer holds whole: counted as lost in the stream's queue (R580, R594). -/
def State.skipBlock (s : State) (k b : Nat) : State :=
  let s1 := s.modListen (fun l => { l with streamPos := tabSet l.streamPos k (b + 1) })
  if s.streamQ k < 32 then
    (s1.modQueue (s.streamQ k) (fun r => { r with lostSince := r.lostSince + 1 })).bump (Key.at Key.lostPackets (s.streamQ k))
  else s1

/-- Does the ring still hold a block whole. -/
def Listening.holdsBlock (l : Listening) (b : Nat) : Bool := decide (l.oldest ≤ 160 * b)

/-- May a block enter a queue now: its cluster's network runs, or returns within ACTIVE (R738, R876). -/
def State.queueReachable (s : State) (q : Nat) : Bool :=
  s.power.st == .active || (s.power.st == .doze && !(s.cluster (s.queueCluster q)).gated)

/-- AUDIO_BLOCK_COMMIT: a complete block enters its stream's queue in one burst; one for a gated cluster waits for its return
and calls it (R578, R579, R876). -/
def execAudioBlockCommit (stream : Fin 4) (s : State) : Host.Outcome State Fault Refusal :=
  let k := stream.val
  let q := s.streamQ k
  let l := s.listen
  let waits := if q < 32 && s.power.st = .doze then s.callCluster (s.queueCluster q) else s
  if k = 3 then
    match l.rawReady with
    | [] => .next s
    | r :: rest =>
      if 32 ≤ q then .next (s.modListen (fun l => { l with rawReady := rest }))
      else if !s.queueReachable q then .next waits
      else .next (((s.modListen (fun l => { l with rawReady := rest })).burstPacket 57 q r.stamp (l.prodFlags r.block false false)
        r.data).bump (Key.at Key.streamPackets k))
  else
    let b := tabGet l.streamPos k 0
    if !l.streamsOn.contains k || b < tabGet l.streamEnd k 0 || l.endBlocks ≤ b || 32 ≤ q then .next s
    else if !l.holdsBlock b then .next (s.skipBlock k b)
    else if !s.queueReachable q then .next waits
    else .next (s.commitBlock k b false)

/-- REPLAY_BLOCK, at most once every 10 µs: the next backlog block of a stage stream, which waits for a free slot and overwrites none (R580). -/
def execReplayBlock (stream : Fin 4) (s : State) : Host.Outcome State Fault Refusal :=
  let k := stream.val
  let q := s.streamQ k
  let b := tabGet s.listen.streamPos k 0
  if k = 3 || !s.listen.streamsOn.contains k || tabGet s.listen.streamEnd k 0 ≤ b || 32 ≤ q || !s.queueReachable q
      || !s.passed (tmReplay k) 10000 then .next s
  else if !s.listen.holdsBlock b then .next (s.skipBlock k b)
  else if (s.pickSlot q).2.isSome && s.obj (Key.at Key.queueEnable q) == 1 then .next s
  else .next ((s.mark (tmReplay k)).commitBlock k b true)

/-! ### L0, L1 and the cascade (R581 to R591) -/

/-- L0 for one beam's frame score (R582). -/
def State.scoreBeam (s : State) (b score : Nat) : State :=
  s.modListen (fun l =>
    if s.obj Key.vadThreshold ≤ score then
      let n := tabGet l.attack b 0 + 1
      { l with
        attack := tabSet l.attack b n, below := tabSet l.below b 0
        voiced := if s.obj Key.vadAttackFrames ≤ n && !l.voiced.contains b then l.voiced ++ [b] else l.voiced }
    else
      let n := tabGet l.below b 0 + 1
      { l with
        below := tabSet l.below b n, attack := tabSet l.attack b 0
        voiced := if s.obj Key.vadHoldFrames ≤ n then l.voiced.filter (· != b) else l.voiced })

/-- Block `i`, the last complete one, takes the voice flags of now (R579). -/
def Listening.flagVoice (l : Listening) : Listening :=
  { l with infos := match l.infos with
      | [] => []
      | i :: rest => { i with voice := l.voiced.foldl (fun a b => a + 2 ^ b) 0 } :: rest }

/-- L0_FRAME: the frame that ends with the last complete block is scored; the block's voice flags are those at its end
(R579, R582). Each frame is scored once. -/
def execL0Frame (scores : List Nat) (s : State) : Host.Outcome State Fault Refusal :=
  if !s.lanternOn || s.listen.endBlocks ≤ s.listen.l0Next then .next s
  else .next ((((List.range 4).zip scores).foldl (fun (t : State) e => t.scoreBeam e.1 e.2) s).modListen (fun l =>
    { l.flagVoice with l0Next := l.endBlocks }))

/-- The beam voiced in the hop that scores highest, and its score: the lowest of equals (R583). -/
def State.hopTop (s : State) (scores : List Nat) : Option (Nat × Nat) :=
  let l := s.listen
  let h := l.index / 320
  let infos := l.infos.filter (fun i => decide (0 < h) && (i.block == 2 * h - 2 || i.block == 2 * h - 1))
  let beams := (List.range 4).filter (fun b => infos.any (fun i => bit i.voice b))
  beams.foldl (fun (m : Option (Nat × Nat)) b =>
    let v := scores.getD b 0
    if m.elim true (fun x => decide (x.2 < v)) then some (b, v) else m) none

/-- A trigger of a beam is recorded: counted, its stamp and its block's flag (R579, R583). -/
def State.recordTrigger (s : State) (beam : Nat) : State :=
  let h := s.listen.index / 320
  ((s.bump Key.kwsTriggers).setObj Key.kwsLastStamp s.time).modListen (fun l => { l with
    lastTrigger := some s.time
    infos := l.infos.map (fun i => if i.block = 2 * h - 1 then { i with trigger := some beam } else i) })

/-- Was a trigger raised in the KwsHoldMs before now (R51, R583). -/
def State.kwsHeld (s : State) : Bool :=
  s.listen.lastTrigger.elim false (fun t => decide (s.time < t + 1000000 * s.obj Key.kwsHoldMs))

/-- L1_HOP: the model's scores for the beams voiced in the last complete hop, evaluated once; the largest raises a trigger (R583, R589,
R590). -/
def execL1Hop (scores : List Nat) (s : State) : Host.Outcome State Fault Refusal :=
  if !s.lanternOn || s.listen.model.isEmpty || s.listen.index / 320 ≤ s.listen.l1Next then .next s
  else
    let t := s.modListen (fun l => { l with l1Next := l.index / 320 })
    match s.hopTop scores with
    | none => .next t
    | some (beam, v) => .next (if v < s.obj Key.kwsThreshold || s.kwsHeld then t else (t.recordTrigger beam).cascadeTrigger s.time)

/-- The clusters in which pitches have a share or a slot. -/
def State.clustersOf (s : State) (ps : List Nat) : List Nat :=
  (List.range 6).filter (fun n => ps.any (fun p => ((s.pitch p).share n).2 != 0 || !(s.slotsIn p n).isEmpty))

/-- Bring clusters to ACTIVE. -/
def State.callClusters (s : State) (ns : List Nat) : State := ns.foldl (fun (t : State) n => t.callCluster n) s

/-- Start a pitch that is CREATED, TORN_DOWN or COMPLETE (R457, R586). -/
def State.startStagePitch (s : State) (p : Nat) : State :=
  (s.doPitchStart { role := .integrator, path := .internal } (natLe 1 p)).1

/-- Stage k is awake (R586). -/
def State.awakenStage (s : State) (k : Nat) : State :=
  let ps := s.stagePitches k
  let s1 := s.callClusters (s.clustersOf ps)
  let s2 := ps.foldl (fun (t : State) p => t.startStagePitch p) s1
  let s3 := (s2.startStream (k - 2) s2.listen.triggerStamp).systemPulse 230 ps
  let s4 := (s3.setObj Key.wakeStage k).modListen (fun l => { l with stageWaking := none, stageSince := s.time })
  let s5 := if k = 2 then s4.bump Key.wakeCount else s4
  if k = 3 && s5.obj Key.wakeEarlyPower == 1 then s5.callClusters (s5.clustersOf (s5.stagePitches 4)) else s5

/-- STAGE_WAKE: with the module in ACTIVE, the stage's clusters return, its pitches start, its stream begins with the trigger's
T, and line 230 is raised (R586). -/
def execStageWake (s : State) : Host.Outcome State Fault Refusal :=
  match s.listen.stageWaking with
  | none => .next s
  | some k =>
    if s.power.st != .active then .next s else .next (s.awakenStage k)

/-- Has the highest awake stage reached its WakeTimeoutMs without an ADVANCE that wakes the next, or a RELEASE (R587). -/
def State.stageLate (s : State) (stage : Nat) : Bool :=
  let ms := s.obj (Key.wakeTimeoutMs + (stage - 2))
  decide (2 ≤ stage) && s.obj Key.wakeStage == stage && ms != 0 && s.listen.stageWaking.isNone && s.listen.dropTo.isNone
    && decide (s.listen.stageSince + 1000000 * ms ≤ s.time)

/-- STAGE_TIMEOUT: the highest awake stage reaches its WakeTimeoutMs and is abandoned (R587). -/
def execStageTimeout (stage : Nat) (s : State) : Host.Outcome State Fault Refusal :=
  .next (if s.stageLate stage then (s.bump Key.wakeTimeouts).abandonStage stage else s)

/-- DROP_GRACE_EXPIRY: WakeDropGraceUs after the drop began, pitches of the dropped stages with a slot still otherwise are torn down,
the cascade stands at its target, and a trigger held meanwhile proceeds (R588, R591). -/
def execDropGraceExpiry (s : State) : Host.Outcome State Fault Refusal :=
  match s.listen.dropTo with
  | none => .next s
  | some k => .next (if s.listen.dropSince + 1000 * s.obj Key.wakeDropGraceUs ≤ s.time then s.finishDrop k else s)

/-- WAKE_OUT_HOLD_EXPIRY: WAKE_OUT has been asserted for WakeOutHoldMs (R589). -/
def execWakeOutHoldExpiry (s : State) : Host.Outcome State Fault Refusal :=
  .next (if s.listen.wakeOutSince + 1000000 * s.obj Key.wakeOutHoldMs ≤ s.time then s.modListen (fun l => { l with wakeOut := false })
    else s)

/-- Restart the ring: every stamp table entry is marked INVALID, and the next sample is the first (R593). -/
def State.restartRing (s : State) : State :=
  (s.bump Key.ringRestarts).modListen (fun l => { l with
    stamps := (List.range 1024).foldl (fun m j => memWrite m (8 * j) (natLe 8 (memNat m (8 * j) 8 / 4 * 4 + 1))) l.stamps
    ringStart := l.index, rawBlock := [], rawReady := [], raw := [], history := [], recent := [], blockSat := false })

/-- LANTERN_BROWNOUT: in LANTERN the engine and the front end reset; the groundsheet survives (R593). -/
def execLanternBrownout (s : State) : Host.Outcome State Fault Refusal :=
  if s.power.st != .lantern then .next s
  else
    let s1 := s.restartRing.modListen (fun l => { l with
      attack := [], below := [], voiced := [], lastTrigger := none, heldTrigger := none, stageWaking := none })
    .next ((s1.bump Key.lanternBrownouts).bump Key.lanternBrownoutsLife)

/-! ### Glimpse (R595 to R597) -/

/-- Sum of absolute differences of a 16 × 16 cell of two frames of a width. -/
def cellDiff (a b : List Byte) (w cx cy : Nat) : Nat :=
  (List.range 16).foldl (fun n y =>
    let o := (16 * cy + y) * w + 16 * cx
    (List.zip ((a.drop o).take 16) ((b.drop o).take 16)).foldl (fun n p => n + ((p.1.toNat : Int) - p.2.toNat).natAbs) n) 0

/-- The motion score of two frames (R596). -/
def motionScore (a b : List Byte) (w h threshold : Nat) : Nat :=
  let cells := (List.range (h / 16)).flatMap (fun y => (List.range (w / 16)).map (fun x => (x, y)))
  let changed := cells.filter (fun c => decide (threshold * 256 ≤ cellDiff a b w c.1 c.2))
  255 * changed.length / max 1 cells.length

/-- GLIMPSE_FRAME: a kept frame is scored against the one before and acted on (R595 to R597). -/
def execGlimpseFrame (stamp : Nat) (luma : List Byte) (s : State) : Host.Outcome State Fault Refusal :=
  if s.power.st != .lantern || s.obj Key.glimpseEnable = 0 then .next s
  else
    let w := s.obj Key.glimpseWidth
    let h := s.obj Key.glimpseHeight
    let f := fitBytes (w * h) luma
    let s1 := s.modListen (fun l => { l with glimpse := f })
    if s.listen.glimpse.length != w * h then .next s1
    else
      let score := motionScore s.listen.glimpse f w h (s.obj Key.glimpseCellThreshold)
      let s2 := s1.setObj Key.glimpseLastScore score
      if score < s2.obj Key.glimpseScoreThreshold then .next s2
      else .next (match s2.obj Key.glimpseAction with
        | 1 => s2.cascadeTrigger stamp
        | 2 => s2.assertWakeOut 1
        | _ => s2)

/-- A write of GlimpseEnable (R595, R596). -/
def State.writeGlimpseEnable (s : State) (_ : Caller) (v : Nat) : State × Nat :=
  ((s.setObj Key.glimpseEnable v).modListen (fun l => { l with glimpse := [] }), stOk)

/-- GLIMPSE_ENABLE. -/
def execGlimpseEnable (r : Req) (v : List Byte) (s : State) : Host.Outcome State Fault Refusal :=
  .next (s.runScalar r Key.glimpseEnable rkOperator v State.writeGlimpseEnable)

/-! ### Playback (R598, R599) -/

/-- Bytes of a playback block (R598). -/
def State.playbackBytes (s : State) : Nat := if s.obj Key.tdmFrameRateHz = 48000 then 7680 else 2560

/-- May a block be played: the peg is the playback pitch's, in its cluster, and holds a block (R598). -/
def State.playReady (s : State) : Bool :=
  let n := s.obj Key.playbackCluster
  let peg := s.obj Key.playbackFillPeg
  s.power.st == .active && decide (0 < (s.peg n (peg % 1024)).value.toNat) && s.mayUsePeg (s.obj Key.playbackPitch) peg && peg / 1024 == n

/-- The last frame of a block of the playback ring has left: line 233 is raised (R598). -/
def State.endPlayed (s : State) : State :=
  if s.listen.playing then (s.modListen (fun l => { l with playing := false })).systemPulse 233 [s.obj Key.playbackPitch] else s

/-- The next block of the playback ring is sent, and 1 is taken from its peg (R598). -/
def State.playBlock (s : State) : State :=
  let p := s.obj Key.playbackPitch
  let n := s.obj Key.playbackCluster
  let peg := s.obj Key.playbackFillPeg % 1024
  let size := s.playbackBytes
  let off := ((s.pitch p).share n).1 + s.obj Key.playbackSramOffset + size * s.listen.playPos
  let g := s.peg n peg
  let s2 := s.setPeg n peg { g with value := g.value - 1 }
  s2.modListen (fun l => { l with
    tdmOut := s2.readSram n off size
    playing := true
    playPos := (l.playPos + 1) % max 1 (s.obj Key.playbackBlocks) })

/-- PLAYBACK_BLOCK_DUE: the block before has left; 1 is taken from PlaybackFillPeg and the next block is sent, else zeros (R598,
R599). -/
def execPlaybackBlockDue (s : State) : Host.Outcome State Fault Refusal :=
  if !s.lanternOn then .next s
  else if s.obj Key.playbackEnable = 0 then .next s.endPlayed
  else
    let s1 := s.endPlayed.callCluster (s.obj Key.playbackCluster)
    .next (if s1.playReady then s1.playBlock
      else (s1.bump Key.playbackUnderruns).modListen (fun l => { l with tdmOut := List.replicate s.playbackBytes 0 }))

/-- A write of PlaybackEnable: 1 starts at block 0 (R598, R604). -/
def State.writePlaybackEnable (s : State) (_ : Caller) (v : Nat) : State × Nat :=
  ((s.setObj Key.playbackEnable v).modListen (fun l => { l with playPos := 0 }), stOk)

/-- PLAYBACK_ENABLE. -/
def execPlaybackEnable (r : Req) (v : List Byte) (s : State) : Host.Outcome State Fault Refusal :=
  .next (s.runScalar r Key.playbackEnable rkOperator v State.writePlaybackEnable)

/-! ### The keyword model (R584, R685) -/

/-- Numbers of the measurement registers (R685). -/
def mRom := 0
def mSec := 1
def mMc := 2
def mLantern := 3
def mNv := 4

/-- Write a measurement register. -/
def State.measure (s : State) (register : Nat) (image : List Byte) : State :=
  { s with sec := { s.sec with measure := tabSet s.sec.measure register (sha256 image) } }

/-- The image of a slot (R805): slot A holds the factory image until it is written. -/
def State.slotImage (s : State) (slot : Nat) : List Byte :=
  if slot = 0 then (if s.update.slotA.isEmpty then Config.factoryImage else s.update.slotA) else s.update.slotB

/-- The image of the active slot. -/
def State.activeImage (s : State) : List Byte := s.slotImage s.update.activeSlot

/-- A field of an image's header (R806), and a component: offset and length at `at_` of the header. -/
def imgField (img : List Byte) (off n : Nat) : Nat := leNat ((img.drop off).take n)
def imgComponent (img : List Byte) (at_ : Nat) : List Byte := (img.drop (imgField img at_ 4)).take (imgField img (at_ + 4) 4)

def compSec := 0x20
def compMc := 0x50
def compLantern := 0x80

/-- Measure the Lantern program and the keyword model in force. -/
def State.measureLantern (s : State) : State := s.measure mLantern (imgComponent s.activeImage compLantern ++ s.listen.model)

/-- KwsModelLoad (R584, R685). -/
def State.doKwsModelLoad (s : State) (_ : Caller) (v : List Byte) : State × Nat :=
  let (weights, program) := Config.modelHeader v
  if 262144 < weights || 32768 < program then (s, stRefused)
  else ((s.modListen (fun l => { l with model := v })).measureLantern, stOk)

/-- KWS_MODEL_LOAD. -/
def execKwsModelLoad (r : Req) (v : List Byte) (s : State) : Host.Outcome State Fault Refusal :=
  .next (s.runCmd r Key.kwsModelLoad rkOperator v State.doKwsModelLoad)

end Sys2Proof.Machine
end

