-- ==== Sys2Proof/Machine/Cameras.lean ====
section
/-! DEFINITION. Cameras: CSI-2 receive, frames, the line arbiter, bands, frame sync and camera control (chapter 12, R605 to
R645). -/

namespace Sys2Proof.Machine

/-! ### Marks (R634) -/

def mkCrc := 8
def mkHdr := 16
def mkLate := 32
def mkShort := 64
def mkLong := 128
def mkTruncated := 256
def mkLen := 512

/-- Set a mark of a frame. -/
def Frame.mark (f : Frame) (m : Nat) : Frame := { f with marks := f.marks ||| m }

def State.modCams (s : State) (g : Cameras → Cameras) : State := { s with cams := g s.cams }

/-- Change one frame. -/
def State.modFrame (s : State) (id : Nat) (g : Frame → Frame) : State :=
  s.modCams (fun c => { c with frames := c.frames.map (fun f => if f.id = id then g f else f) })

/-- The frame open in a context. -/
def State.openFrame (s : State) (ctx : Nat) : Option Frame := s.cams.frames.find? (fun f => f.ctx == ctx && !f.ended)

/-! ### Settings of a frame (R641) -/

/-- Objects that a frame of a context begins under: the context's, its outputs', its tuning set's. -/
def State.frameScalars (s : State) (c : Nat) : Tab Nat :=
  let set := s.obj (Key.at Key.ctxTuningSet c)
  let keys := ([Key.ctxDataType, Key.ctxWidth, Key.ctxHeight, Key.ctxMosaic, Key.ctxStageBypass, Key.cscMode,
    Key.frameTimeoutUs].map (Key.at · c))
    ++ ((List.range 3).flatMap (fun o => [Key.outEnable, Key.outFormat, Key.outQueue, Key.outSize, Key.outBandLines].map
      (Key.at · (4 * c + o))))
    ++ ([Key.greenImbalanceLimit, Key.defectThreshold].map (Key.at · set)) ++ [Key.at Key.ctxTuningSet c]
  keys.foldl (fun t k => tabSet t k (s.obj k)) []

def State.frameDomains (s : State) (c : Nat) : Tab (List Byte) :=
  let set := s.obj (Key.at Key.ctxTuningSet c)
  let keys := ((List.range 3).flatMap (fun o => [Key.outCrop, Key.outNorm].map (Key.at · (4 * c + o))))
    ++ ([Key.xtalkKernels, Key.defectList, Key.shadingGrid, Key.noiseStrength, Key.noiseLimit, Key.colourMatrix, Key.toneLut].map
      (Key.at · set))
  keys.foldl (fun t k => tabSet t k (s.domain k)) []

def Frame.get (f : Frame) (key : Nat) : Nat := tabGet f.scalars (Key.at key f.ctx) 0
/-- The end of the interval in which its Frame End is due (R612). -/
def Frame.timeout (f : Frame) : Nat := f.stamp + 1000 * f.get Key.frameTimeoutUs
def Frame.width (f : Frame) : Nat := f.get Key.ctxWidth
def Frame.height (f : Frame) : Nat := f.get Key.ctxHeight
def Frame.yuv (f : Frame) : Bool := f.get Key.ctxDataType == 0x1E
def Frame.mosaic (f : Frame) : Mosaic := { bits := f.get Key.ctxMosaic, w := f.width, h := f.height }

/-- The tuning a frame began with. -/
def Frame.tuning (f : Frame) : Tuning :=
  let set := f.get Key.ctxTuningSet
  let n := fun (k : Nat) => tabGet f.scalars (Key.at k set) 0
  let d := fun (k : Nat) => tabGet f.domains (Key.at k set) []
  { bypass := f.get Key.ctxStageBypass, csc := f.get Key.cscMode, giLimit := n Key.greenImbalanceLimit,
    defThreshold := n Key.defectThreshold, xtalk := d Key.xtalkKernels, defects := d Key.defectList,
    shading := d Key.shadingGrid, strength := d Key.noiseStrength, limits := d Key.noiseLimit,
    colour := d Key.colourMatrix, tone := d Key.toneLut }

/-- An output from its objects (R630, R631); an OutCrop never written is the full frame. -/
def outputOf (get : Nat → Nat) (dom : Nat → List Byte) (w h : Nat) : Output :=
  let crop := leNat (dom Key.outCrop)
  let full := (dom Key.outCrop).isEmpty
  { format := get Key.outFormat, queue := get Key.outQueue,
    x0 := if full then 0 else field crop 15 0, y0 := if full then 0 else field crop 31 16,
    w := if full then w else field crop 47 32, h := if full then h else field crop 63 48,
    ow := field (get Key.outSize) 15 0, oh := field (get Key.outSize) 31 16, bandLines := get Key.outBandLines,
    norm := dom Key.outNorm }

/-- Output `o` of a frame, and whether it is enabled. -/
def Frame.output (f : Frame) (o : Nat) : Output :=
  outputOf (fun k => tabGet f.scalars (Key.at k (4 * f.ctx + o)) 0) (fun k => tabGet f.domains (Key.at k (4 * f.ctx + o)) [])
    f.width f.height
def Frame.outOn (f : Frame) (o : Nat) : Bool := tabGet f.scalars (Key.at Key.outEnable (4 * f.ctx + o)) 0 == 1
def Frame.out (f : Frame) (o : Nat) : OutState := tabGet f.outs o {}

/-- Output `o` of a context as its objects stand now. -/
def State.outputNow (s : State) (c o : Nat) : Output :=
  outputOf (fun k => s.obj (Key.at k (4 * c + o))) (fun k => s.domain (Key.at k (4 * c + o)))
    (s.obj (Key.at Key.ctxWidth c)) (s.obj (Key.at Key.ctxHeight c))

/-- Bytes of a band's payload of `n` lines (R632). -/
def Output.bandBytes (o : Output) (n : Nat) : Nat := 64 + formatPlanes o.format * n * o.lineBytes

/-- May an output be enabled (R630 to R632). -/
def State.outputOk (s : State) (c o : Nat) : Bool :=
  let u := s.outputNow c o
  let w := s.obj (Key.at Key.ctxWidth c)
  let h := s.obj (Key.at Key.ctxHeight c)
  let yuv := s.obj (Key.at Key.ctxDataType c) == 0x1E
  let m : Mosaic := { bits := s.obj (Key.at Key.ctxMosaic c), w, h }
  decide (u.x0 + u.w ≤ w) && decide (u.y0 + u.h ≤ h) && decide (1 ≤ u.ow) && decide (1 ≤ u.oh) && decide (u.ow ≤ u.w)
    && decide (u.oh ≤ u.h) && decide (u.w ≤ 16 * u.ow) && decide (u.h ≤ 16 * u.oh)
    && (match u.format with
      | 0 => !yuv
      | 3 => !yuv
      | 4 => !yuv && m.has 4
      | 6 => !yuv && o == 0 && u.ow == u.w && u.oh == u.h
      | 7 => yuv && o == 0 && u.ow == u.w && u.oh == u.h
      | _ => true)
    && (32 ≤ u.queue || decide (32 + u.bandBytes (min u.bandLines u.oh) ≤ s.obj (Key.at Key.slotBytes u.queue)))

/-- Is the value of a context's or output's object permitted beside the others (R619, R630 to R632, R644). -/
def State.ctxWriteOk (s : State) (key v : Nat) : Bool :=
  let c := key / 256 % 256
  let base := key - 256 * c
  let shape := base == Key.ctxDataType || base == Key.ctxWidth || base == Key.ctxHeight || base == Key.ctxMosaic
  let t := s.setObj key v
  !(shape && s.obj (Key.at Key.ctxEnable c) == 1)
    && (!shape || mosaicOk (t.obj (Key.at Key.ctxMosaic c)) (t.obj (Key.at Key.ctxWidth c)) (t.obj (Key.at Key.ctxHeight c)))

/-- Is an output's setting permitted: it is disabled after the write, or may be enabled. -/
def State.outWriteOk (t : State) (key : Nat) : Bool :=
  let k := key / 256 % 256
  t.obj (Key.at Key.outEnable k) == 0 || (decide (k % 4 < 3) && t.outputOk (k / 4) (k % 4))

/-! ### Closing (R612, R616, R639) -/

/-- Are lines of a frame still in a line buffer. -/
def State.buffered (s : State) (id : Nat) : Bool := s.cams.buffers.any (fun e => e.2.any (·.frame == id))

/-- Close a frame with marks, and SHORT where lines are missing (R612). -/
def State.closeFrame (s : State) (f : Frame) (marks endStamp : Nat) : State :=
  let m := f.marks ||| marks ||| (if f.received < f.height then mkShort else 0)
  let s1 := s.modFrame f.id (fun f => { f with ended := true, endStamp, marks := m })
  let s2 := s1.bump (Key.at Key.framesDelivered f.ctx)
  if m = 0 then s2 else s2.bump (Key.at Key.framesMarked f.ctx)

/-- A frame whose lines have all passed and whose enabled outputs have all sent their last band is done (R632, R634). -/
def State.tidyFrames (s : State) : State :=
  let done := fun (f : Frame) => f.ended && !s.buffered f.id && (List.range 3).all (fun o => !f.outOn o || (f.out o).last)
  let gone := s.cams.frames.filter done
  let s1 := s.modCams (fun c => { c with frames := c.frames.filter (fun f => !done f) })
  gone.foldl (fun (t : State) f =>
    if f.yuv then t
    else t.bump (Key.at Key.defectsCorrected f.ctx) (thresholdDefects f.mosaic f.tuning f.lines f.lines.length)) s1

/-! ### Short packets (R609 to R612) -/

/-- Do the CSI-2 receivers serve a port now (R639, R643, R678). -/
def State.portServed (s : State) (p : Nat) : Bool := s.power.st == .active && s.up 56 && s.obj (Key.at Key.camPortEnable p) == 1

/-- What a header's check does (R609): the packet is used or not. -/
def State.checkHeader (s : State) (p : Nat) (check : HeaderCheck) : State × Bool :=
  match check with
  | .good => (s, true)
  | .corrected => (s.bump (Key.at Key.headerCorrected p), true)
  | .bad =>
    ((s.bump (Key.at Key.headerErrors p)).modCams (fun c => { c with
      frames := c.frames.map (fun f => if f.ctx / 4 = p ∧ !f.ended then f.mark mkHdr else f) }), false)

/-- Frames with equal frame-start stamps hold their numbers in descending order of port priority, then by context (R611). -/
def State.orderNumbers (s : State) (stamp : Nat) : State :=
  let equal := s.cams.frames.filter (fun f => f.stamp == stamp)
  let numbers := sortBy id (equal.map (·.number))
  let order := (sortBy (fun (f : Frame) => (7 - s.obj (Key.at Key.camPortPriority (f.ctx / 4))) * 16 + f.ctx) equal).map (·.id)
  s.modCams (fun c => { c with frames := c.frames.map (fun f =>
    if f.stamp = stamp then { f with number := numbers.getD (order.idxOf f.id) f.number } else f) })

/-- A frame opens in a context with its stamp, its window and the next frame number (R610, R611, R641). -/
def State.startFrame (s : State) (c : Nat) : State :=
  let number := (s.obj Key.lastFrameNo + 1) % 2 ^ 32
  let f : Frame := { id := s.cams.nextFrame, ctx := c, number, stamp := s.time,
                     window := s.time / max 1 (s.obj Key.fusionWindowNs), scalars := s.frameScalars c, domains := s.frameDomains c }
  let s1 := s.modCams (fun k => { k with
    frames := k.frames ++ [f], nextFrame := k.nextFrame + 1
    overflowed := k.overflowed.filter (· != c), quiet := k.quiet.filter (· != c) })
  (((s1.setObj Key.lastFrameNo number).bump Key.framesStarted).orderNumbers s1.time).tidyFrames

/-- CSI_FRAME_START: a frame opens with its stamp and the next frame number; one still open in the context closes LATE
(R610 to R612, R641). -/
def execCsiFrameStart (port : Fin 4) (vc : Fin 4) (check : HeaderCheck) (s : State) : Host.Outcome State Fault Refusal :=
  let p := port.val
  let c := 4 * p + vc.val
  if !s.portServed p then .next s
  else match s.checkHeader p check with
    | (s1, false) => .next s1
    | (s1, true) =>
      let s2 := match s1.openFrame c with
        | none => s1
        | some f => s1.closeFrame f mkLate 0
      if s2.obj (Key.at Key.ctxEnable c) = 0 then .next s2.tidyFrames
      else .next (s2.startFrame c)

/-- CSI_FRAME_END: the open frame closes with its frame-end stamp; at or after its timeout it closes LATE (R610, R612,
R642). -/
def execCsiFrameEnd (port : Fin 4) (vc : Fin 4) (check : HeaderCheck) (s : State) : Host.Outcome State Fault Refusal :=
  let p := port.val
  if !s.portServed p then .next s
  else match s.checkHeader p check with
    | (s1, false) => .next s1
    | (s1, true) =>
      match s1.openFrame (4 * p + vc.val) with
      | none => .next s1
      | some f =>
        if f.timeout ≤ s1.time then .next ((s1.closeFrame f mkLate 0).tidyFrames)
        else .next ((s1.closeFrame f 0 s1.time).tidyFrames)

/-- FRAME_TIMEOUT: no Frame End within FrameTimeoutUs; the frame closes LATE (R51, R612). -/
def execFrameTimeout (ctx : Fin 16) (s : State) : Host.Outcome State Fault Refusal :=
  match s.openFrame ctx.val with
  | none => .next s
  | some f => .next (if f.timeout ≤ s.time then (s.closeFrame f mkLate 0).tidyFrames else s)

/-! ### Long packets (R607 to R609, R612, R613, R616) -/

/-- Bits of a RAW data type (R606). -/
def rawBits (t : Nat) : Nat := 8 + 2 * (t - 0x2A)

/-- The pixels of a payload (R608): RAW values aligned to 16 bits; for YUV422 the pairs Cb, Y0, Cr, Y1. -/
def payloadPixels (t : Nat) (payload : List Nat) : List Nat :=
  if t = 0x1E then
    (List.range (payload.length / 4)).flatMap (fun k =>
      let v := fun (i : Nat) => payload.getD (4 * k + i) 0 % 256
      [v 1 + 256 * v 0 + 65536 * v 2, v 3 + 256 * v 0 + 65536 * v 2])
  else payload.map (fun v => v % 2 ^ rawBits t * 2 ^ (16 - rawBits t))

/-- A line of the context's width: completed by its last pixel, or cut (R609). -/
def fitLine (w : Nat) (xs : List Nat) : List Nat := xs.take w ++ List.replicate (w - xs.length) (xs.getLastD 0)

/-- A line that comes while both lines of its port's buffer wait: the frame is truncated (R616). -/
def State.overflowLine (s : State) (p : Nat) (f : Frame) : State :=
  let s1 := (s.closeFrame f mkTruncated 0).modCams (fun c => { c with overflowed := c.overflowed ++ [f.ctx] })
  ((s1.bump (Key.at Key.linesOverflowed p)).bump (Key.at Key.framesTruncated p)).tidyFrames

/-- A line of an open frame enters its port's buffer, with the marks and counts of what was wrong with it (R608, R609, R613). -/
def State.placeLine (s : State) (p : Nat) (f : Frame) (dataType : Nat) (payload : List Nat) (crcOk : Bool) : State :=
  let xs := payloadPixels dataType payload
  let s2 := if crcOk then s else (s.bump (Key.at Key.crcErrors p)).modFrame f.id (·.mark mkCrc)
  let s3 := if xs.length = f.width then s2 else (s2.bump (Key.at Key.lineLengthErrors p)).modFrame f.id (·.mark mkLen)
  let line : RawLine := { frame := f.id, pixels := fitLine f.width xs }
  (s3.modFrame f.id (fun f => { f with received := f.received + 1 })).modCams (fun k => { k with
    buffers := tabSet k.buffers p (tabGet k.buffers p [] ++ [line]) })

/-- CSI_LONG_PACKET: a line is checked, completed or cut, and placed in its port's line buffer; or it is discarded under its
counter. -/
def execCsiLongPacket (port : Fin 4) (vc : Fin 4) (dataType : Nat) (check : HeaderCheck) (payload : List Nat) (crcOk : Bool)
    (s : State) : Host.Outcome State Fault Refusal :=
  let p := port.val
  let c := 4 * p + vc.val
  if !s.portServed p then .next s
  else match s.checkHeader p check with
    | (s1, false) => .next s1
    | (s1, true) =>
      let open_ := s1.openFrame c
      let type := open_.elim (s1.obj (Key.at Key.ctxDataType c)) (fun f => f.get Key.ctxDataType)
      if (s1.obj (Key.at Key.ctxEnable c) = 0 && open_.isNone) || dataType ≠ type then
        .next (s1.bump (Key.at Key.unknownPackets p))
      else if s1.cams.overflowed.contains c then .next (s1.bump (Key.at Key.linesOverflowed p))
      else if s1.cams.quiet.contains c then .next s1
      else match open_ with
        | none => .next (s1.bump (Key.at Key.orphanLines p))
        | some f =>
          let buffer := tabGet s1.cams.buffers p []
          if f.height ≤ f.received then .next ((s1.bump (Key.at Key.extraLines c)).modFrame f.id (·.mark mkLong))
          else if 2 ≤ buffer.length then .next (s1.overflowLine p f)
          else .next (s1.placeLine p f dataType payload crcOk)

/-! ### The arbiter (R614) -/

/-- The port that the arbiter serves next: highest priority, then round robin after the one served last among them. -/
def State.arbiterPort (s : State) : Option Nat :=
  let ready := (List.range 4).filter (fun p => !(tabGet s.cams.buffers p []).isEmpty)
  let top := ready.foldl (fun m p => max m (s.obj (Key.at Key.camPortPriority p))) 0
  let equal := (List.range 4).filter (fun p => s.obj (Key.at Key.camPortPriority p) == top)
  let last := (s.cams.served.find? equal.contains).getD 3
  (((List.range 4).map (fun k => (last + 1 + k) % 4)).filter (fun p => equal.contains p && ready.contains p)).head?

/-- Pass one complete line of a port through the pipeline. -/
def State.takeLine (s : State) (p : Nat) : State :=
  match tabGet s.cams.buffers p [] with
  | [] => s
  | l :: rest =>
    (s.modFrame l.frame (fun f => { f with lines := f.lines ++ [l.pixels] })).modCams (fun c => { c with
      buffers := tabSet c.buffers p rest, served := p :: c.served.filter (· != p) })

/-! ### Bands (R632 to R635) -/

/-- Output lines that the lines so far support (R612, R620, R630). -/
def Frame.supported (f : Frame) (o : Output) : Nat :=
  let ahead := lookAhead f.mosaic f.tuning f.yuv (decide (o.format = 6) || decide (o.format = 7))
  ((List.range o.oh).filter (fun r =>
    decide (min f.height (o.y0 + ceilDiv ((r + 1) * o.h) o.oh + ahead) ≤ f.lines.length))).length

/-- The band descriptor (R633). -/
def Frame.descriptor (f : Frame) (o : Output) (n first lines : Nat) (last : Bool) : List Byte :=
  natLe 64 (f.number % 2 ^ 32 + first % 65536 * 2 ^ 32 + lines % 65536 * 2 ^ 48 + o.ow * 2 ^ 64 + o.oh * 2 ^ 80
    + o.lineBytes % 2 ^ 32 * 2 ^ 96 + o.format % 64 * 2 ^ 128 + f.ctx / 4 * 2 ^ 134 + f.ctx % 4 * 2 ^ 136 + n * 2 ^ 138
    + f.received % 65536 * 2 ^ 144 + f.window % 2 ^ 32 * 2 ^ 160 + (if last then f.endStamp % 2 ^ 64 else 0) * 2 ^ 192)

/-- The band that an output of a frame delivers next, if it is ready: its lines, and whether it is the last (R612, R632,
R634). -/
def State.nextBand (s : State) (f : Frame) (n : Nat) : Option (Nat × Bool) :=
  let o := f.output n
  let x := f.out n
  let have_ := f.supported o
  let stop := min o.oh ((x.next / max 1 o.bandLines + 1) * max 1 o.bandLines)
  if !f.outOn n || x.last then none
  else if f.ended && !s.buffered f.id then some (min stop have_ - x.next, decide (have_ ≤ stop))
  else if stop < o.oh && decide (stop ≤ have_) then some (stop - x.next, false)
  else none

/-- A band of an output begins: its packet takes a slot of the output's queue (R234, R240). Into a gated cluster, which it calls, its
bytes are held in the output's write buffer, which they may overfill: how far the cluster's return has come the model leaves free
(R27, R635, R738). -/
def State.openBand (s : State) (f : Frame) (n : Nat) : State :=
  let q := (f.output n).queue
  let gated := (s.cluster (s.queueCluster q)).gated
  let s1 := if gated then s.fresh.2 else s
  let (s2, k) := (s1.callCluster (s1.queueCluster q)).startPacket q
  s2.modFrame f.id (fun f => { f with
    outs := tabSet f.outs n { f.out n with began := true, slot := k, bad := gated && Config.freeBool s.freeCtr } })

/-- A band begins with its first line. -/
def State.beginBand (s : State) (f : Frame) (n : Nat) : State :=
  let o := f.output n
  let x := f.out n
  if !f.outOn n || x.last || x.began || 32 ≤ o.queue || f.supported o ≤ x.next then s else s.openBand f n

/-- The bands that a line through the pipeline begins. -/
def State.beginBands (s : State) : State :=
  (s.cams.frames.flatMap (fun f => [(f, 0), (f, 1), (f, 2)])).foldl (fun (t : State) x => t.beginBand x.1 x.2) s

/-- LINE_ARBITRATION: the arbiter takes a complete line through the pipeline, and the bands begin whose first lines it gives (R240,
R614). -/
def execLineArbitration (s : State) : Host.Outcome State Fault Refusal :=
  if s.power.st != .active then .next s
  else match s.arbiterPort with
    | none => .next s
    | some p => .next (s.takeLine p).beginBands

/-- Deliver a band: one packet of the output's queue (R632 to R635). -/
def State.deliverBand (s : State) (f : Frame) (n lines : Nat) (last : Bool) : State :=
  let o := f.output n
  let x := f.out n
  let img := colourImage f.mosaic f.tuning f.yuv f.lines
  let data := (List.range (formatPlanes o.format)).flatMap (fun k =>
    (List.range lines).flatMap (fun r => o.line f.lines img k (x.next + r)))
  let out := 3 * f.ctx + n
  let flags := flag (!x.first) + 2 * flag last + f.marks + 1024 * flag (s.cams.dropped.contains out)
  let sent : OutState := { next := x.next + lines, first := true, last }
  let done := fun (t : State) => t.modFrame f.id (fun f => { f with outs := tabSet f.outs n sent })
  if 32 ≤ o.queue then done s
  else
    let s1 := if x.began then s else s.openBand f n
    let y := (s1.cams.frames.find? (·.id == f.id)).elim x (·.out n)
    let payload := f.descriptor o n x.next lines last ++ data
    match y.slot, y.bad with
    | none, _ => done s1
    | some k, true => ((done (s1.rewindPacket o.queue k)).bump (Key.at Key.outDrops (4 * f.ctx + n))).modCams (fun c => { c with
        dropped := c.dropped.filter (· != out) ++ [out] })
    | some k, false =>
      ((done ((s1.putPayload o.queue k 0 payload).commitPacket 56 o.queue k f.stamp flags payload.length)).modCams (fun c => { c with
        dropped := c.dropped.filter (· != out) })).beginBands

/-- Deliver the next band of an output of a context, where one is ready: the oldest frame first. -/
def State.serveBand (s : State) (ctx n : Nat) : State :=
  match s.cams.frames.find? (fun f => f.ctx == ctx && f.outOn n && !(f.out n).last) with
  | none => s
  | some f =>
    match s.nextBand f n with
    | none => s
    | some (lines, last) => (s.deliverBand f n lines last).tidyFrames

/-- BAND_COMMIT: an output's band, complete, commits to its queue. -/
def execBandCommit (ctx : Fin 16) (out : Fin 3) (s : State) : Host.Outcome State Fault Refusal :=
  if s.power.st != .active then .next s else .next (s.serveBand ctx.val out.val)

/-- Leaving ACTIVE: every open frame closes with TRUNCATED, what is buffered is processed, and the bands that can be delivered
are delivered; lines before the next Frame Start of each context are not counted (R639). -/
def State.closeCameras (s : State) : State :=
  let s1 := (s.cams.frames.filter (fun f => !f.ended)).foldl (fun (t : State) f =>
    (t.closeFrame f mkTruncated 0).bump (Key.at Key.framesTruncated (f.ctx / 4))) s
  let s2 := (List.range 8).foldl (fun (t : State) _ =>
    match t.arbiterPort with
    | none => t
    | some p => (t.takeLine p).beginBands) s1
  let rounds := s2.cams.frames.foldl (fun n f => n + (List.range 3).foldl (fun n o => n + (f.output o).oh + 1) 0) 0
  let s3 := (List.range rounds).foldl (fun (t : State) _ =>
    match t.cams.frames.findSome? (fun f => (List.range 3).findSome? (fun o =>
      if (t.nextBand f o).isSome then some (f.ctx, o) else none)) with
    | none => t
    | some (c, o) => t.serveBand c o) s2
  s3.tidyFrames.modCams (fun c => { c with quiet := List.range 16, overflowed := [] })

/-! ### Frame sync and camera control (R638) -/

/-- FSYNC_PULSE: CAMn_FSYNC of the enabled ports rises, or falls 1 µs later; in LANTERN only port 0's (R638, R639). -/
def execFsyncPulse (rising : Bool) (s : State) : Host.Outcome State Fault Refusal :=
  let ports := (List.range 4).filter (fun p => bit (s.obj Key.camFsyncEnable) p
    && (s.power.st == .active || (s.power.st == .lantern && p == 0)))
  if (s.power.st != .active && s.power.st != .lantern) || s.obj Key.camFsyncPeriodNs = 0 then .next s
  else .next (s.modCams (fun c => { c with fsync := if rising then ports else [] }))

/-- A camera control transfer (R638, R645): it begins on a bus. -/
def State.beginCci (s : State) (v : List Byte) : State :=
  let bus := leNat (v.take 4) % 2
  s.modCams (fun c => { c with cci := tabSet c.cci bus v, cciBusy := some bus, cciResult := [0xFF] })

/-- A write of CciTransfer (R645). -/
def State.doCciTransfer (s : State) (_ : Caller) (v : List Byte) : State × Nat :=
  let d := leNat (v.take 4)
  let w := field d 15 8
  if v.length < 4 then (s, stLength)
  else if field d 31 24 != 0 || 64 < w || 64 < field d 23 16 then (s, stRange)
  else if v.length != 4 + w then (s, stLength)
  else if s.cams.cciBusy.isSome then (s, stBusy)
  else (s.beginCci v, stOk)

/-- CCI_TRANSFER. -/
def execCciTransfer (r : Req) (v : List Byte) (s : State) : Host.Outcome State Fault Refusal :=
  .next (s.runCmd r Key.cciTransfer rkOperator v State.doCciTransfer)

/-- CCI_TRANSFER_DONE: the transfer in progress ends with its status, and the bytes read (R638, R645). -/
def execCciTransferDone (bus : Fin 2) (status : Nat) (data : List Byte) (s : State) : Host.Outcome State Fault Refusal :=
  if s.cams.cciBusy != some bus.val || (s.power.st != .active && s.power.st != .doze) then .next s
  else
    let n := ((tabGet s.cams.cci bus.val []).getD 2 0).toNat
    .next (s.modCams (fun c => { c with
      cciBusy := none
      cciResult := BitVec.ofNat 8 status :: (if status = 0 then fitBytes n data else []) }))

end Sys2Proof.Machine
end

