-- ==== Sys2Proof/Machine/Codes.lean ====
section
/-! DEFINITION. The inline codes of LPDDR4X lines and the poison marker (R646, R647, R656). A byte is a number below 256. -/

namespace Sys2Proof.Machine

/-- Product in GF(2^8) of the field that a polynomial of degree 8 generates, by the bits of `b` from the highest. -/
def gfMul (poly a b : Nat) : Nat :=
  (List.range 8).foldl (fun acc i =>
    let twice := 2 * acc
    let low := if 256 ≤ twice then twice ^^^ poly else twice
    if b.testBit (7 - i) then low ^^^ a else low) 0

/-- The field of the Reed–Solomon codes (R647). -/
def rsPoly := 0x11D
def rsMul (a b : Nat) : Nat := gfMul rsPoly a b

/-- α^i; α is the field's element x (R647). -/
def alphaPow : Nat → Nat
  | 0 => 1
  | i + 1 => rsMul 2 (alphaPow i)

/-- A polynomial, coefficients from the highest degree, times x − c. -/
def timesRoot (p : List Nat) (c : Nat) : List Nat := (List.zip (p ++ [0]) (0 :: p)).map (fun x => x.1 ^^^ rsMul c x.2)

/-- The generator Π (x − α^i) for i from 0 to n − 1 (R647), without its leading coefficient 1. -/
def generatorTail (n : Nat) : List Nat := ((List.range n).foldl (fun p i => timesRoot p (alphaPow i)) [1]).drop 1

/-- One data symbol enters the division by the generator whose tail is given: the remainder so far, highest degree first. -/
def divideStep (gen rem : List Nat) (d : Nat) : List Nat :=
  let f := d ^^^ rem.headD 0
  (List.zip (rem.drop 1 ++ [0]) gen).map (fun x => x.1 ^^^ rsMul f x.2)

/-- The n check symbols of data bytes, the first the coefficient of highest degree: the remainder of the data times x^n by the
generator (R647). -/
def checkSymbols (n : Nat) (data : List Nat) : List Nat := data.foldl (divideStep (generatorTail n)) (List.replicate n 0)

/-- The value of a polynomial at a field element. -/
def polyAt (p : List Nat) (x : Nat) : Nat := p.foldl (fun acc c => rsMul acc x ^^^ c) 0

/-- One byte enters the CRC-8 with polynomial x^8 + x^2 + x + 1, its highest bit first. -/
def crcStep (crc d : Nat) : Nat :=
  (List.range 8).foldl (fun c _ => if 128 ≤ c then (2 * c) % 256 ^^^ 0x07 else 2 * c) (crc ^^^ d)

/-- The CRC-8 of class L; the spec states neither what it starts from nor whether it is inverted. -/
def crc8 (data : List Nat) : Nat := data.foldl crcStep (Config.crcStart % 256) ^^^ Config.crcFinal % 256

/-- The check bytes of a class: 8 or 4 check symbols, or the CRC (R646). -/
def lineCheck (cls : Nat) (data : List Nat) : List Nat :=
  match cls with
  | 0 => checkSymbols 8 data
  | 1 => checkSymbols 4 data
  | _ => [crc8 data]

/-- The stored line of a class: the 64 data bytes, then the check bytes, which a poisoned line has XORed with 0x5A (R646, R656). -/
def codeLine (cls : Nat) (data : List Nat) (poisoned : Bool) : List Nat :=
  data ++ (lineCheck cls data).map (fun c => if poisoned then c ^^^ 0x5A else c)

/-- What the decoder takes a stored line for (R646, R656). -/
inductive LineRead
  | good | marked | wrong
  deriving DecidableEq, Repr

/-- The decoder's view of a stored line: its check bytes fit, or are the marker's, or neither. -/
def readLine (cls : Nat) (stored : List Nat) : LineRead :=
  let data := stored.take 64
  if stored = codeLine cls data false then .good
  else if stored = codeLine cls data true then .marked
  else .wrong

/-- Symbols that a class corrects (R646). -/
def classCorrects (cls : Nat) : Nat :=
  match cls with
  | 0 => 4
  | 1 => 2
  | _ => 0

/-- Does the decoder of a class correct a stored line to a data line: the two differ in no more symbols than the class corrects. -/
def correctsTo (cls : Nat) (stored data : List Nat) : Bool :=
  decide (((List.zip stored (codeLine cls data false)).filter (fun x => x.1 != x.2)).length ≤ classCorrects cls)

end Sys2Proof.Machine
end

