-- ==== Sys2Proof/Machine/Aes.lean ====
section
/-! DEFINITION. AES-256 in the XTS mode of IEEE 1619 over lines of 64 B (R703), on bytes as numbers below 256. -/

namespace Sys2Proof.Machine

/-- Product in the field of AES. -/
def aesMul (a b : Nat) : Nat := gfMul 0x11B a b

/-- Bytes XORed in pairs. -/
def xorBlock (xs ys : List Nat) : List Nat := (List.zip xs ys).map (fun p => p.1 ^^^ p.2)

/-- The inverse in the field of AES, 0 for 0: the 254th power, by squares. -/
def aesInverse (a : Nat) : Nat :=
  ((List.range 6).foldl (fun (acc : Nat × Nat) _ =>
    let sq := aesMul acc.1 acc.1
    (sq, aesMul acc.2 sq)) (aesMul a a, aesMul a a)).2

/-- A byte turned left by n bits. -/
def turnLeft (n b : Nat) : Nat := (b * 2 ^ n) % 256 + b / 2 ^ (8 - n)

/-- The substitution of AES: the field's inverse, then the affine map. -/
def subByte (b : Nat) : Nat :=
  let x := aesInverse b
  x ^^^ turnLeft 1 x ^^^ turnLeft 2 x ^^^ turnLeft 3 x ^^^ turnLeft 4 x ^^^ 0x63

/-- Its inverse. -/
def unsubByte (b : Nat) : Nat := aesInverse (turnLeft 1 b ^^^ turnLeft 3 b ^^^ turnLeft 6 b ^^^ 0x05)

/-- The rows of a block of 16 bytes in columns, each turned by its number; `dir` 1 to the left, 3 back. -/
def shiftRows (dir : Nat) (s : List Nat) : List Nat :=
  (List.range 16).map (fun i => nth s ((i + 4 * dir * (i % 4)) % 16) 0)

/-- Each column of a block times a polynomial with coefficients m. -/
def mixWith (m : List Nat) (s : List Nat) : List Nat :=
  (List.range 16).map (fun i => (List.range 4).foldl (fun acc k =>
    acc ^^^ aesMul (nth m ((4 + k - i % 4) % 4) 0) (nth s (4 * (i / 4) + k) 0)) 0)
def mixColumns (s : List Nat) : List Nat := mixWith [2, 3, 1, 1] s
def unmixColumns (s : List Nat) : List Nat := mixWith [14, 11, 13, 9] s

/-- One word of four bytes of the key schedule, from the words so far, the last one first. -/
def nextKeyWord (n : Nat) (ws : List (List Nat)) : List Nat :=
  let prev := nth ws 0 []
  let t := if n % 8 = 0 then xorBlock ((prev.drop 1 ++ prev.take 1).map subByte) [2 ^ (n / 8 - 1), 0, 0, 0]
    else if n % 8 = 4 then prev.map subByte else prev
  xorBlock (nth ws 7 []) t

/-- The 15 round keys of a key of 32 bytes. -/
def roundKeys (key : List Nat) : List (List Nat) :=
  let first := ((List.range 8).map (fun i => (key.drop (4 * i)).take 4)).reverse
  let all := ((List.range 52).foldl (fun ws i => nextKeyWord (8 + i) ws :: ws) first).reverse
  (List.range 15).map (fun r => ((all.drop (4 * r)).take 4).flatten)

/-- AES-256 of one block under its round keys. -/
def aesEncrypt (ks : List (List Nat)) (block : List Nat) : List Nat :=
  let s := (List.range 13).foldl (fun s r => xorBlock (mixColumns (shiftRows 1 (s.map subByte))) (nth ks (r + 1) []))
    (xorBlock block (nth ks 0 []))
  xorBlock (shiftRows 1 (s.map subByte)) (nth ks 14 [])

/-- Its inverse. -/
def aesDecrypt (ks : List (List Nat)) (block : List Nat) : List Nat :=
  let s := (List.range 13).foldl (fun s r => unmixColumns (xorBlock ((shiftRows 3 s).map unsubByte) (nth ks (13 - r) [])))
    (xorBlock block (nth ks 14 []))
  xorBlock ((shiftRows 3 s).map unsubByte) (nth ks 0 [])

/-- The next block's mask of XTS: times x in GF(2^128), the first byte least significant. -/
def nextMask (m : Nat) : Nat := if 2 ^ 127 ≤ m then (2 * m) % 2 ^ 128 ^^^ 0x87 else 2 * m

/-- A number as 16 bytes, least significant first, and back. -/
def blockOf (v : Nat) : List Nat := (natLe 16 v).map (·.toNat)
def blockNat (b : List Nat) : Nat := leNat (b.map (BitVec.ofNat 8))

/-- The masks of the four blocks of a line for a tweak, under the tweak key's round keys. -/
def lineMasks (ks : List (List Nat)) (tweak : Nat) : List (List Nat) :=
  let m0 := blockNat (aesEncrypt ks (blockOf tweak))
  [m0, nextMask m0, nextMask (nextMask m0), nextMask (nextMask (nextMask m0))].map blockOf

/-- A line of 64 bytes block by block: masked, passed through `f`, and masked again. -/
def throughBlocks (f : List Nat → List Nat) (masks : List (List Nat)) (line : List Nat) : List Nat :=
  (List.range 4).flatMap (fun i =>
    let m := nth masks i []
    xorBlock (f (xorBlock ((line.drop (16 * i)).take 16) m)) m)

/-- AES-256-XTS of a line under 64 bytes of key material: the data key, then the tweak key (R698, R703). -/
def xtsEncrypt (material : List Nat) (tweak : Nat) (line : List Nat) : List Nat :=
  throughBlocks (aesEncrypt (roundKeys (material.take 32))) (lineMasks (roundKeys (material.drop 32)) tweak) line
def xtsDecrypt (material : List Nat) (tweak : Nat) (line : List Nat) : List Nat :=
  throughBlocks (aesDecrypt (roundKeys (material.take 32))) (lineMasks (roundKeys (material.drop 32)) tweak) line

end Sys2Proof.Machine
end

