-- ==== Sys2Proof/Machine/Inline.lean ====
section
/-! DEFINITION. Inline encryption and the stored lines of tiers B and C (R262, R646, R656, R657, R698, R703 to R705). State holds each
page's data as a pitch sees it; what lies in the LPDDR4X and in flash is computed from it here (log entry 134). -/

namespace Sys2Proof.Machine

/-- The tweak of a line: EXTENT_NONCE, TENANT and LINE (R703). -/
def lineTweak (nonce tag addr : Nat) : Nat := addr / 64 % 2 ^ 42 + tag % 2 ^ 16 * 2 ^ 42 + nonce % 2 ^ 32 * 2 ^ 96

/-- The nonce of a page's extent: of its pitch, or of its state set while that is detached (R704). -/
def State.nonceOf (s : State) (g : Page) : Nat :=
  match g.owner with
  | some p => (s.extentAt p g.addr).elim 0 (·.nonce)
  | none => (s.tier.sets.find? (·.id == g.stateSet)).elim 0 (fun t => (t.extents.find? (·.holds g.addr)).elim 0 (·.nonce))

/-- The key material of a page's entry, while the entry has it (R700). -/
def State.pageMaterial (s : State) (g : Page) : Option (List Nat) :=
  let e := tabGet s.sec.keys g.keyIndex {}
  if e.material = 0 || e.epoch != g.epoch then none else some ((fitBytes 64 (Config.keyMaterial e.material)).map (·.toNat))

/-- The ciphertext of a line of a page (R703); none once the key is zeroised. -/
def State.cipherLine (s : State) (g : Page) (l : Nat) : Option (List Nat) :=
  (s.pageMaterial g).map (fun k =>
    xtsEncrypt k (lineTweak (s.nonceOf g) g.tenantTag (g.addr + 64 * l)) ((memRead g.data (64 * l) 64).map (·.toNat)))

/-- The line as the tier unit decrypts it under the page's entry (R703). -/
def State.plainLine (s : State) (g : Page) (l : Nat) (cipher : List Nat) : Option (List Nat) :=
  (s.pageMaterial g).map (fun k => xtsDecrypt k (lineTweak (s.nonceOf g) g.tenantTag (g.addr + 64 * l)) cipher)

/-- The stored line of a page in tier B: its ciphertext under the code of its class, with the marker where it is poisoned (R646, R656). -/
def State.storedLine (s : State) (g : Page) (l : Nat) : Option (List Nat) :=
  (s.cipherLine g l).map (fun c => codeLine g.codeClass c (tabFind g.poison l).isSome)

/-- The 64-bit poison map of a tile in flash (R657). -/
def Page.poisonMap (g : Page) (tile : Nat) : Nat :=
  (List.range 64).foldl (fun n i => n + flag (tabFind g.poison (64 * tile + i)).isSome * 2 ^ i) 0

/-- A tile of a page in flash: the ciphertext of its 64 lines, and its poison map (R657, R703). -/
def State.storedTile (s : State) (g : Page) (tile : Nat) : Option (List Nat × Nat) :=
  ((List.range 64).mapM (fun i => s.cipherLine g (64 * tile + i))).map (fun ls => (ls.flatten, g.poisonMap tile))

/-- What the decoder of the tier unit takes the line of a tier B page for. -/
def State.lineStatus (s : State) (g : Page) (l : Nat) : Option LineRead := (s.storedLine g l).map (readLine g.codeClass)

end Sys2Proof.Machine
end

