-- ==== Sys2Proof/Machine/Errors.lean ====
section
/-! DEFINITION. Error protection and fault containment: the scrubber and the sweeps, the fault log's commits, island brown-outs,
core and flash die faults, and retirement (chapter 13, R646 to R682). -/

namespace Sys2Proof.Machine

def State.modErrors (s : State) (f : Errors → Errors) : State := { s with errors := f s.errors }

/-! ### The scrubber and the sweeps (R655, R656, R660 to R663) -/

/-- Is the memory tier unit running (R739), and not browned out. -/
def State.tierOn (s : State) : Bool := s.power.st == .active && !s.errors.islandsDown.contains 54

/-- Poison the line of a tier B frame in the page that has its authoritative data there (R657, R663). -/
def State.poisonFrame (s : State) (frame line : Nat) : State :=
  match s.tier.pages.find? (fun g => decide (g.frameB ≤ frame) && decide (frame < g.frameB + g.tiles)
      && (g.tier == .b || (g.tier == .c && g.arrived (frame - g.frameB)))) with
  | none => s
  | some g => s.modPage g.id (fun g => { g with poison := tabSet g.poison (64 * (frame - g.frameB) + line % 64) fcEccUncorr })

/-- The frames that a scrub pass of a class reads, as a count (R660): 3 is the system region, and a free granule counts as class S. -/
def State.scrubGranules (s : State) (cls : Nat) : List Nat :=
  (List.range s.granuleCount).filter (fun g => (s.granuleClass g).getD 0 == cls)
def State.scrubFrames (s : State) (cls : Nat) : Nat :=
  if cls = 3 then s.firstFrame * 64 / 72 else (s.scrubGranules cls).length * granuleFrames cls

/-- The frame of slice i, in ascending order of frames (R661). -/
def State.scrubFrame (s : State) (cls i : Nat) : Nat :=
  if cls = 3 then i
  else s.firstFrame + 262144 * nth (s.scrubGranules cls) (i / granuleFrames cls) 0 + i % granuleFrames cls

/-- The pass time of a class in ns; 0 disables it. -/
def State.scrubPeriod (s : State) (cls : Nat) : Nat :=
  3600000000000 * s.obj (if cls = 3 then Key.scrubPassHoursSystem else Key.scrubPassHoursS + cls)

/-- The scrubber's place in a class: the start of its pass, a multiple of the pass time, and the slices read of it; after the last
slice the next pass begins (R661). -/
def State.scrubPlace (s : State) (cls : Nat) : Nat × Nat :=
  let p := s.scrubPeriod cls
  let (start, i) := tabGet s.errors.scrub cls (s.time / p * p, 0)
  if start % p ≠ 0 then (ceilDiv start p * p, 0)
  else if s.scrubFrames cls ≤ i then (start + p, 0) else (start, i)

/-- What the scrub read of a line of a frame found (R650, R656, R662, R663): counted and logged; an uncorrectable line is stored as
poison. -/
def State.scrubLine (s : State) (cls frame : Nat) (f : Nat × Finding) : State :=
  let s1 := s.lpddrFound 1 (cls % 3) frame (lpddrLine frame (f.1 % 64)) s.time f.2 none
  if f.2 = .uncorrectable then s1.poisonFrame frame f.1 else s1

/-- SCRUB_SLICE: the next frame slice of a class's pass is read once it is due, under a tag of the tier unit's reserve, with what its
lines held; one read at or after its window's end is late, and a retired frame is passed over (R51, R53, R224, R645, R660 to R663). -/
def execScrubSlice (cls : Nat) (found : List (Nat × Finding)) (s : State) : Host.Outcome State Fault Refusal :=
  let p := s.scrubPeriod cls
  let n := s.scrubFrames cls
  let (start, i) := s.scrubPlace cls
  if 3 < cls || !s.tierOn || p = 0 || n = 0 || s.time < start + i * p / n then .next s
  else
    let frame := s.scrubFrame cls i
    let s1 := if s.frameRetired frame then s else found.foldl (fun (t : State) f => t.scrubLine cls frame f) (s.passTag .tierUnit)
    let s2 := s1.modErrors (fun e => { e with scrub := tabSet e.scrub cls (start, i + 1) })
    let s3 := if start + (i + 1) * p / n ≤ s.time then s2.bump Key.scrubLateSlices else s2
    .next (if i + 1 = n then s3.bump Key.scrubPasses else s3)

/-- Poison the 64 B line of a cluster's SRAM, or of the tier A page that lies there. -/
def State.poisonSramLine (s : State) (n line : Nat) : State :=
  match s.tier.pages.find? (fun g => g.tier == .a && g.home == n && decide (g.frameA ≤ 64 * line)
      && decide (64 * line < g.frameA + g.size)) with
  | some g => s.modPage g.id (fun g => { g with poison := tabSet g.poison (line - g.frameA / 64) fcEccUncorr })
  | none => s.modCluster n (fun c => { c with sramPoison := tabSet c.sramPoison line fcEccUncorr })

/-- A line that the sweep of a cluster's SRAM reports: counted, logged, and poisoned where it is uncorrectable (R655, R656). -/
def State.sweptLine (s : State) (n : Nat) (l : SweptLine) : State :=
  let inPage := s.tier.pages.any (fun g => g.tier == .a && g.home == n && decide (g.frameA ≤ 64 * l.line)
    && decide (64 * l.line < g.frameA + g.size))
  let t := s.sramFound 1 l.location 4 l.finding none (if inPage then l.line / 64 else 0)
  if l.finding = .uncorrectable then t.poisonSramLine n l.line else t

/-- A line that the sweep of the groundsheet reports. -/
def State.sweptGround (s : State) (l : SweptLine) : State :=
  let t := s.sramFound 4 l.location 4 l.finding
  if l.finding = .uncorrectable then t.modListen (fun k => { k with groundPoison := tabSet k.groundPoison l.line fcEccUncorr }) else t

/-- SRAM_SWEEP, once per SramSweepMs: what the sweep of a cluster's SRAM found (R653, R655, R656). -/
def execSramSweep (cluster : Fin 6) (found : List SweptLine) (s : State) : Host.Outcome State Fault Refusal :=
  let n := cluster.val
  if s.power.st != .active || (s.cluster n).gated || s.errors.islandsDown.contains (48 + n)
      || !s.passed (tmSweep n) (1000000 * s.obj Key.sramSweepMs) then .next s
  else .next (found.foldl (fun (t : State) l => t.sweptLine n l) (s.mark (tmSweep n)))

/-- GROUNDSHEET_SWEEP, once every 10 s: what the sweep of the groundsheet found (R653 to R655). -/
def execGroundsheetSweep (found : List SweptLine) (s : State) : Host.Outcome State Fault Refusal :=
  if !s.lanternOn || !s.passed (tmSweep 6) 10000000000 then .next s
  else .next (found.foldl State.sweptGround (s.mark (tmSweep 6)))

/-- CE_WINDOW: a window of corrected events begins: every bank's count in it is 0 (R664). The counts of the window before stay for
requests issued in it. -/
def execCeWindow (s : State) : Host.Outcome State Fault Refusal :=
  let w := s.ceWindowOf s.time
  if w ≤ s.errors.ceWindow then .next s
  else .next ((s.modErrors (fun e => { e with
    ceWindow := w, bankCounts := e.bankCounts.filter (fun b => decide (512 * (w - 1) ≤ b.1)) })).setObj Key.ceBanksOverThreshold 0)

/-! ### The fault log in flash (R669) -/

/-- The severe entries of the fault log are committed; other committed entries stand as they were (R669). -/
def Errors.commitLog (e : Errors) : Errors :=
  let now := e.log.filter (fun x => severe x.outcome)
  { e with committedLog := e.committedLog.filter (fun c => !now.any (·.seq == c.seq)) ++ now, logDirty := false }

/-- FAULT_LOG_COMMIT: entries with a severe outcome are committed to flash, a program that is charged; other committed entries stand
as they were (R297). -/
def execFaultLogCommit (s : State) : Host.Outcome State Fault Refusal :=
  if !s.errors.logDirty then .next s
  else .next (s.modErrors Errors.commitLog).chargeRecord

/-- FaultLogClear: only benign entries are removed (R669). -/
def State.doFaultLogClear (s : State) (_ : Caller) (_ : List Byte) : State × Nat :=
  (s.modErrors (fun e => { e with log := e.log.filter (fun x => !benign x.outcome) }), stOk)

/-- FAULT_LOG_CLEAR. -/
def execFaultLogClear (r : Req) (v : List Byte) (s : State) : Host.Outcome State Fault Refusal :=
  .next (s.runCmd r Key.faultLogClear rkOperator v State.doFaultLogClear)

/-! ### Islands (R670, R671, R677, R678) -/

/-- Tear down pitches for a brown-out of an island (R485). -/
def State.brownPitches (s : State) (island : Nat) (ps : List Nat) : State :=
  ps.foldl (fun (t : State) p => t.faultPitch p fcBrownout island) s

/-- Pitch IDs that meet a condition. -/
def State.pitchesWhere (s : State) (f : Nat → Pitch → Bool) : List Nat :=
  (List.range 32).filter (fun p => (s.pitch p).st != .free && f p (s.pitch p))

/-- A core loses its state (R677, R678): the pitches with a slot on it are torn down, and its memories' contents are lost; the DIV in
effect is the power controller's (R756). -/
def State.loseCore (s : State) (c : Nat) : State :=
  let s1 := s.brownPitches c (s.pitchesWhere (fun _ r => r.slots.any (fun i => coreOfSlot i == c)))
  let k : Core := {
    scratch := freeMemory s1.freeCtr 4194304, acc := freeMemory (s1.freeCtr + 1) 524288, mode := 0x8000 ||| ((s1.core c).mode &&& 0x700) }
  { s1.setCore c k with freeCtr := s1.freeCtr + 2 }

/-- A cluster network loses its state (R678): the pitches with a slot, a share or a tier A page there are torn down. -/
def State.loseCluster (s : State) (n : Nat) : State :=
  let s1 := s.brownPitches (48 + n) (s.pitchesWhere (fun p r => r.slots.any (fun i => clusterOfSlot i == n) || (r.share n).2 != 0
    || s.tier.pages.any (fun g => g.owner == some p && g.tier == .a && g.home == n)))
  let s2 := s1.modCluster n (fun c => { forwards := c.forwards.map (fun f => { f with queued := 0 }) })
  { s2 with queues := s2.queues.map (fun e => if s2.queueCluster e.1 = n then (e.1, { e.2 with packets := [] }) else e) }

/-- Every line of a returned cluster's SRAM, tier A frames and shares alike, is stored with the poison marker (R678). -/
def State.poisonCluster (s : State) (n : Nat) : State :=
  let s1 := s.modCluster n (fun c => { c with
    sram := freeMemory s.freeCtr 16777216, sramPoison := (List.range 262144).map (fun l => (l, fcEccUncorr)) })
  { s1.fresh.2 with tier := { s1.tier with pages := s1.tier.pages.map (fun g =>
    if g.tier = .a ∧ g.home = n then { g with poison := (List.range (64 * g.tiles)).map (fun l => (l, fcEccUncorr)) } else g) } }

/-- Does a pitch have fabric traffic in flight. -/
def State.fabricBusy (s : State) (p : Nat) : Bool :=
  (s.pitch p).slots.any (fun i => s.fabric.ops.any (·.slot == i) || s.fabric.colls.any (·.slot == i)
    || (s.core (coreOfSlot i)).jobs.any (fun j => j.slot == i && !j.sends.isEmpty))

/-- The router loses its state (R678): every port goes DOWN, and the pitches with fabric traffic in flight are torn down. -/
def State.loseRouter (s : State) : State :=
  let ps := s.pitchesWhere (fun p _ => s.fabricBusy p)
  let s1 := ps.foldl (fun (t : State) p => t.faultPitch p fcUnreachable t.moduleId) s
  let s2 := (List.range 6).foldl (fun (t : State) k =>
    if (t.port k).st = .up then (t.portTo k .down).bump (Key.at Key.portDownCount k)
    else if (t.port k).st = .training then t.portTo k .down else t) s1
  { s2 with fabric := { s2.fabric with held := [], reductions := [], barriers := [], cut := none, cuts := [], arrivals := [], due := [], inFlight := [] } }

/-- The front end or the Lantern engine restarts as under R593 (R678). -/
def State.loseListening (s : State) : State :=
  s.restartRing.modListen (fun l => { l with
    attack := [], below := [], voiced := [], lastTrigger := none, heldTrigger := none, stageWaking := none })

/-- What a brown-out of each island takes with it (R678). -/
def State.loseIsland (s : State) (k : Nat) : State :=
  if k < 48 then s.loseCore k
  else if k < 54 then s.loseCluster (k - 48)
  else match k with
    | 54 =>
      let s1 := s.brownPitches 54 (s.pitchesWhere (fun _ _ => true))
      { s1 with tier := { s1.tier with tags := s1.tier.tags.filter (·.holder == .tierUnit), leaving := [], stalled := [] } }
    | 55 => s.loseRouter
    | 56 => s.closeCameras
    | 57 => s.loseListening
    | 58 => s.loseListening
    | 61 => { s with host := { s.host with connected := false, asks := [] } }
    | _ => s

/-- An island goes down with an outcome: logged, counted, and its state lost (R666, R667, R671). -/
def State.islandDown (s : State) (k outcome : Nat) : State :=
  let s1 := (s.logEvent { kind := 6, outcome, location := k, source := 5 }).bump Key.islandBrownouts
  ((s1.loseIsland k).modErrors (fun e => { e with islandsDown := e.islandsDown ++ [k] })).mark (tmIsland k)

/-- ISLAND_BROWNOUT. -/
def execIslandBrownout (island : Nat) (s : State) : Host.Outcome State Fault Refusal :=
  if 62 ≤ island || s.errors.islandsDown.contains island then .next s else .next (s.islandDown island ocBrownout)

/-- What was held at an island's crossing goes on (R27): packets of transfer commands, and operands of STOP. -/
def State.resume (s : State) : State := (s.slots.map (·.1)).foldl (fun (t : State) i => (t.pushMove i).settle i) s

/-- The least time that an island is away: 20 µs after its supply recovers; 50 ms the MC, 5 ms the security island (R671, R678). -/
def awayNs (island : Nat) : Nat := if island = 59 then 50000000 else if island = 60 then 5000000 else 20000

/-- ISLAND_RETURN: 20 µs after the supply recovers (R671): a cluster's SRAM returns poisoned, the router's ports train
(R678). -/
def execIslandReturn (island : Nat) (s : State) : Host.Outcome State Fault Refusal :=
  if !s.errors.islandsDown.contains island || !s.passed (tmIsland island) (awayNs island) then .next s
  else
    let s1 := (s.modErrors (fun e => { e with islandsDown := e.islandsDown.filter (· != island) })).resume
    if 48 ≤ island && island < 54 then .next (s1.poisonCluster (island - 48))
    else if island = 55 then .next ((List.range 6).foldl (fun (t : State) k =>
      if (t.port k).st = .down then t.portTo k .training else t) s1)
    else .next (if island = 59 then s1.postLate else s1)

/-- CORE_HEARTBEAT_MISS: a core that fails its parity check or does not answer is gated and treated as browned out, logged
UNIT_FAULT (R671). -/
def execCoreHeartbeatMiss (c : CoreRef) (s : State) : Host.Outcome State Fault Refusal :=
  let k := coreIndex c
  if s.errors.islandsDown.contains k then .next s else .next (s.islandDown k ocUnitFault)

/-! ### Flash dies (R674, R678) -/

/-- Tiles of a page whose copy programmed last below a bound lies on a flash die. -/
def State.tilesOnDie (s : State) (g : Page) (die bound : Nat) : List Nat :=
  (List.range g.tiles).filter (fun t => (s.flashPageOf g.id t bound).elim false (fun f => 2 * f.channel + f.die == die))

/-- A page without what a die held of it: clean copies there are void, and tiles whose authoritative copy lies only there are unreadable
(R293, R674). -/
def Page.loseTiles (g : Page) (gone : List Nat) : Page :=
  if g.tier = .c then { g with unreadable := distinct (g.unreadable ++ gone.filter g.inFlash) }
  else { g with cleanCopy := g.cleanCopy.filter (fun t => !gone.contains t) }

/-- A die is withdrawn, for pages and for the committed images of sets (R293, R674). -/
def State.loseDie (s : State) (die : Nat) : State :=
  { s with tier := { s.tier with
    retiredDies := s.tier.retiredDies ++ [die]
    pages := s.tier.pages.map (fun g => g.loseTiles (s.tilesOnDie g die (2 ^ 64)))
    sets := s.tier.sets.map (fun t => { t with
      committedPages := t.committedPages.map (fun g => g.loseTiles (s.tilesOnDie g die t.commitSeq)) }) } }

/-- A die fails: its chip enable is withdrawn, logged, and demotions to tier C in progress are abandoned (R279, R678). -/
def State.failDie (s : State) (d : Nat) : State :=
  let down := fun (g : Page) => g.migration.elim false (fun m => m.dest == .c)
  let s1 := ((s.loseDie d).logEvent { kind := 5, outcome := ocUnitFault, location := d * 2 ^ 29 }).countAborts down
  { s1 with tier := { s1.tier with pages := s1.tier.pages.map (fun g => if down g then { g with migration := none } else g) } }

/-- FLASH_DIE_FAULT: the die's chip enable is withdrawn; demotions to tier C in progress are abandoned (R279, R678). -/
def execFlashDieFault (channel die : Nat) (s : State) : Host.Outcome State Fault Refusal :=
  let d := 2 * (channel % 8) + die % 2
  if s.tier.retiredDies.contains d then .next s
  else .next (s.failDie d)

/-! ### Retirement (R673, R674) -/

/-- Is a retirement recorded. -/
def State.isRetired (s : State) (key arg : Nat) : Bool := s.tier.retired.any (fun r => r.1 == key % 256 && r.2.1 == arg)

/-- Record a retirement in flash, a program that is charged, and its RETIRED log entry (R297, R667, R673, R682). -/
def State.recordRetire (s : State) (key arg : Nat) (ev : FaultEntry) : State :=
  let s1 := s.logEvent { ev with outcome := ocRetired }
  let seq := (s1.errors.log.find? (fun e => e.kind == ev.kind && e.location == ev.location && e.outcome == ocRetired)).elim 0 (·.seq)
  ({ s1 with tier := { s1.tier with retired := s1.tier.retired ++ [(key % 256, arg, seq, s.time)] } }).chargeRecord

/-- Every page moves off retired frames. -/
def State.relocateAll (s : State) : State := (s.tier.pages.map (·.id)).foldl State.relocate s

/-- A frame is retired by command (R674). -/
def State.retireFrame (s : State) (f : Nat) : State :=
  ((s.recordRetire Key.frameRetire f { kind := 0, outcome := 0, location := lpddrLine f 0, frame := f, cls := 3 }).bump
    Key.retiredFrames).relocateAll

/-- FrameRetire (R674). -/
def State.doFrameRetire (s : State) (_ : Caller) (v : List Byte) : State × Nat :=
  let f := leNat v
  if s.firstFrame + 262144 * s.granuleCount ≤ f then (s, stRange)
  else if f < s.firstFrame then (s, stRefused)
  else if s.isRetired Key.frameRetire f then (s, stOk)
  else (s.retireFrame f, stOk)

/-- Frames of a bank: 1/32 of tier B as class S holds it (R674). -/
def State.bankFrames (s : State) : Nat := s.granuleCount * granuleFrames 0 / 32

/-- The pages that hold a frame which the retirement of a bank would retire. -/
def State.bankPages (s : State) (d : Nat) : List Page :=
  let t : State := { s with tier := { s.tier with retired := s.tier.retired ++ [(7, d, 0, s.time)] } }
  s.framedPages.filter (fun g => !t.framesClear g.frameB g.tiles)

/-- A bank of LPDDR4X is retired (R674). -/
def State.retireBank (s : State) (d : Nat) : State :=
  ((s.recordRetire Key.lpddrBankRetire d { kind := 0, outcome := 0, location := d * 2 ^ 27 }).bump Key.retiredFrames
    s.bankFrames).relocateAll

/-- LpddrBankRetire (R674, R681). -/
def State.doLpddrBankRetire (s : State) (_ : Caller) (v : List Byte) : State × Nat :=
  let d := leNat v
  if 512 ≤ d then (s, stRange)
  else if s.isRetired Key.lpddrBankRetire d then (s, stOk)
  else if s.tierBFree < 4096 * s.bankFrames + (s.bankPages d).foldl (fun n g => n + g.size) 0 then (s, stRefused)
  else (s.retireBank d, stOk)

/-- Tear pitches down by a command of the MC (R674). -/
def State.retirePitches (s : State) (ps : List Nat) : State :=
  ps.foldl (fun (t : State) p => t.faultPitch p fcRemoved 0 { byCommand := true }) s

/-- The SRAM range of a sensor queue (R229, R243). -/
def State.queueRange (s : State) (q : Nat) : Nat × Nat :=
  (((s.pitch (s.obj (Key.at Key.queuePitch q))).share (s.queueCluster q)).1 + s.obj (Key.at Key.queueSramOffset q),
    2 * s.obj (Key.at Key.slotsPerBank q) * s.obj (Key.at Key.slotBytes q))

/-- A bank of a cluster's SRAM is retired: the pitches with a share or a queue in its quarter are torn down, and tier A pages there
move (R674, R675). -/
def State.retireSram (s : State) (d : Nat) : State :=
  let n := d / 256
  let quarter := (4194304 * (d % 64 / 16), 4194304)
  let queues := (List.range 32).filter (fun q => s.obj (Key.at Key.queueEnable q) == 1 && s.queueCluster q == n
    && overlap (s.queueRange q) quarter)
  let ps := s.pitchesWhere (fun p r => overlap (r.share n) quarter || queues.any (fun q => s.obj (Key.at Key.queuePitch q) == p))
  let s1 := s.recordRetire Key.sramBankRetire d { kind := 1, outcome := 0, location := n * 2 ^ 21 + d % 64 * 2 ^ 15 }
  (s1.retirePitches ps).enforceAll

/-- A core is retired: its pitches are torn down, and it stays gated (R674). -/
def State.retireCore (s : State) (c : Nat) : State :=
  let s1 := s.recordRetire Key.coreRetire c { kind := 6, outcome := 0, location := c }
  let s2 := s1.retirePitches (s.pitchesWhere (fun _ r => r.slots.any (fun i => coreOfSlot i == c)))
  s2.modCore c (fun k => { k with mode := k.mode ||| 0x8000 })

/-- SramBankRetire (R674, R675). -/
def State.doSramBankRetire (s : State) (_ : Caller) (v : List Byte) : State × Nat :=
  let d := leNat v
  if !onlyBits d [(5, 0), (10, 8)] || 6 ≤ d / 256 then (s, stRange)
  else if s.isRetired Key.sramBankRetire d then (s, stOk)
  else (s.retireSram d, stOk)

/-- CoreRetire (R674): the core stays gated. -/
def State.doCoreRetire (s : State) (_ : Caller) (v : List Byte) : State × Nat :=
  let c := leNat v
  if 48 ≤ c then (s, stRange)
  else if s.isRetired Key.coreRetire c then (s, stOk)
  else (s.retireCore c, stOk)

/-- FlashDieRetire (R674). -/
def State.doFlashDieRetire (s : State) (_ : Caller) (v : List Byte) : State × Nat :=
  let d := leNat v
  if 16 ≤ d then (s, stRange)
  else if s.isRetired Key.flashDieRetire d then (s, stOk)
  else ((s.recordRetire Key.flashDieRetire d { kind := 5, outcome := 0, location := d * 2 ^ 29 }).loseDie d, stOk)

/-- RetireClear (R673): the commanded retirements end at the next reset. -/
def State.doRetireClear (s : State) (_ : Caller) (_ : List Byte) : State × Nat :=
  ({ s with tier := { s.tier with retireClearPending := true } }, stOk)

/-- FRAME_RETIRE. -/
def execFrameRetire (r : Req) (v : List Byte) (s : State) : Host.Outcome State Fault Refusal :=
  .next (s.runCmd r Key.frameRetire rkOperator v State.doFrameRetire)

/-- LPDDR_BANK_RETIRE. -/
def execLpddrBankRetire (r : Req) (v : List Byte) (s : State) : Host.Outcome State Fault Refusal :=
  .next (s.runCmd r Key.lpddrBankRetire rkOperator v State.doLpddrBankRetire)

/-- SRAM_BANK_RETIRE. -/
def execSramBankRetire (r : Req) (v : List Byte) (s : State) : Host.Outcome State Fault Refusal :=
  .next (s.runCmd r Key.sramBankRetire rkOperator v State.doSramBankRetire)

/-- CORE_RETIRE. -/
def execCoreRetire (r : Req) (v : List Byte) (s : State) : Host.Outcome State Fault Refusal :=
  .next (s.runCmd r Key.coreRetire rkOperator v State.doCoreRetire)

/-- FLASH_DIE_RETIRE. -/
def execFlashDieRetire (r : Req) (v : List Byte) (s : State) : Host.Outcome State Fault Refusal :=
  .next (s.runCmd r Key.flashDieRetire rkOperator v State.doFlashDieRetire)

/-- RETIRE_CLEAR: a vendor-signed write. -/
def execRetireClear (r : Req) (v : List Byte) (s : State) : Host.Outcome State Fault Refusal :=
  .next (s.runSigned r Key.retireClear v State.doRetireClear)

end Sys2Proof.Machine
end

