-- ==== Sys2Proof/Machine/Security.lean ====
section
/-! DEFINITION. The security island: attestation, sessions, debug, rollback, tenants and their keys, rolls, expiry and re-keys
(chapter 14, R683 to R731). Tenant removal stands in Machine/Removal.lean. -/

namespace Sys2Proof.Machine

def State.modSec (s : State) (f : Security → Security) : State := { s with sec := f s.sec }
def State.setTenant (s : State) (t : Nat) (v : Tenant) : State := s.modSec (fun c => { c with tenants := tabSet c.tenants t v })
def State.modTenant (s : State) (t : Nat) (f : Tenant → Tenant) : State := s.setTenant t (f (s.tenant t))

/-- Does the security island run (R678, R737). -/
def State.islandOn (s : State) : Bool :=
  (s.power.st == .active || s.power.st == .doze) && !s.errors.islandsDown.contains 60

/-! ### Attestation (R686 to R688) -/

/-- FLAGS of the report (R686, R693, R695). -/
def State.reportFlags (s : State) : Nat :=
  flag s.sec.confidential + 2 * flag (!s.sec.debugUnlocked) + 4 * flag s.sec.confidential + 8 * flag Config.debugFused
    + 16 * flag s.sec.debugUnlocked + 32 * s.obj Key.keyStoreLost

/-- Bytes 0x000 to 0x17F of the report (R686). -/
def State.reportBody (s : State) (ephemeral : Nat) : List Byte :=
  ([0x57, 0x5A, 0x41, 0x52] : List Byte) ++ natLe 2 1 ++ natLe 2 768 ++ natLe 8 Config.dieSerial ++ fitBytes 32 (sha256 Config.identityKey)
    ++ natLe 2 0x00B0 ++ natLe 1 (if s.mb then 2 else 1) ++ natLe 1 s.profile ++ natLe 4 s.reportFlags ++ natLe 4 s.sec.rollback
    ++ natLe 4 (imgField s.activeImage 8 4) ++ natLe 2 s.moduleId ++ natLe 2 s.sec.attestTag ++ natLe 4 0 ++ natLe 8 s.time
    ++ fitBytes 32 s.sec.attestNonce ++ (List.range 5).flatMap (fun k => fitBytes 32 (tabGet s.sec.measure k []))
    ++ natLe 8 0 ++ fitBytes 97 (Config.ephemeralPublic ephemeral) ++ natLe 7 0

/-- AttestRequest (R686, R688): the nonce is taken, and an unused ephemeral key is zeroised. -/
def State.doAttestRequest (s : State) (c : Caller) (v : List Byte) : State × Nat :=
  let tag := match c.role with
    | .tenant t => s.tenantTag t
    | _ => 0xFFFF
  if v.length != 32 then (s, stLength)
  else if s.sec.attestBusy then (s, stBusy)
  else (s.modSec (fun k => { k with attestNonce := v, attestTag := tag, attestBusy := true, ephemeral := none }), stOk)

/-- ATTEST_REQUEST. -/
def execAttestRequest (r : Req) (v : List Byte) (s : State) : Host.Outcome State Fault Refusal :=
  .next (s.runCmd r Key.attestRequest rkAny v State.doAttestRequest)

/-- The attestation report is formed and signed under a fresh ephemeral key (R686, R687). -/
def State.signReport (s : State) : State :=
  let (k, s1) := s.fresh
  let body := s1.reportBody k
  s1.modSec (fun x => { x with
    report := body ++ fitBytes 384 (Config.pssSign k body), ephemeral := some k, ephemeralStamp := s.time, attestBusy := false })

/-- ATTEST_REPORT_READY: a fresh ephemeral key, and the report signed with the identity key (R686, R687). -/
def execAttestReportReady (s : State) : Host.Outcome State Fault Refusal :=
  if !s.sec.attestBusy || !s.islandOn then .next s
  else .next s.signReport

/-- EPHEMERAL_KEY_EXPIRY: 60 s after signing the unused key is zeroised (R688). -/
def execEphemeralKeyExpiry (s : State) : Host.Outcome State Fault Refusal :=
  if s.time < s.sec.ephemeralStamp + 60000000000 then .next s
  else .next (s.modSec (fun k => { k with ephemeral := none }))

/-! ### Sessions (R689 to R692) -/

/-- The key that verifies a session record's signature, its tenant where it names one, and whether the record may be served
(R689, R690). -/
def State.sessionKey (s : State) (who : Nat) : Option (List Byte) :=
  if who < 64 then (if (s.tenant who).st = .active then some (s.tenant who).key else none)
  else tabFind s.sec.roleKeys who

/-- A session opens: its keys are derived from the ephemeral key, which is used up (R690, R691). -/
def State.openSession (s : State) (who e : Nat) (peer : List Byte) (path : Path) : State :=
  let digest := sha256 (s.sec.report ++ peer)
  let id := s.sec.nextSession
  let info := ([0x57, 0x5A, 0x34, 0x38, 0x20, 0x73, 0x65, 0x73, 0x73, 0x69, 0x6F, 0x6E, 0x20, 0x76, 0x31] : List Byte) ++ digest
  let x : Session := {
    id, role := if who < 64 then 0 else who, tenant := if who < 64 then who else 0,
    keys := Config.hkdf s.sec.attestNonce (Config.ecdh e peer) info 88, path, stamp := s.time }
  (s.modSec (fun k => { k with
    sessions := k.sessions ++ [x], nextSession := (id + 1) % 2 ^ 32, ephemeral := none })).setObj Key.sessionLastId id

/-- SessionOpen (R689, R690, R692). -/
def State.doSessionOpen (s : State) (c : Caller) (v : List Byte) : State × Nat :=
  let who := leNat (v.take 1)
  let peer := (v.drop 4).take 97
  let sig := (v.drop 104).take 384
  let digest := sha256 (s.sec.report ++ peer)
  if v.length != 488 then (s, stLength)
  else if leNat ((v.drop 1).take 3) != 0 || leNat ((v.drop 101).take 3) != 0 then (s, stRange)
  else match s.sessionKey who, s.sec.ephemeral with
    | some key, some e =>
      if 16 ≤ s.sec.sessions.length || s.sec.ephemeralStamp + 60000000000 ≤ s.time || !Config.pssVerify key digest sig then
        (s, stRefused)
      else (s.openSession who e peer c.path, stOk)
    | _, _ => (s, stRefused)

/-- SESSION_OPEN. -/
def execSessionOpen (r : Req) (v : List Byte) (s : State) : Host.Outcome State Fault Refusal :=
  .next (s.runCmd r Key.sessionOpen rkAny v State.doSessionOpen)

/-- Close sessions: their keys are zeroised, and what the MC keeps for them ends (R692, R773, R796). -/
def State.closeSessions (s : State) (gone : Session → Bool) : State :=
  let ids := (s.sec.sessions.filter gone).map (·.id)
  let s1 := s.modSec (fun k => { k with sessions := k.sessions.filter (fun x => !gone x) })
  { s1 with mgmt := { s1.mgmt with
    selects := s1.mgmt.selects.filter (fun x => !ids.contains x.session)
    kept := s1.mgmt.kept.filter (fun x => !ids.contains x.session)
    staged := s1.mgmt.staged.filter (fun x => !ids.contains x.session)
    subs := s1.mgmt.subs.filter (fun x => !ids.contains x.session) } }

/-- SessionClose (R692): of an open session, by itself or by OPERATOR and above. -/
def State.doSessionClose (s : State) (c : Caller) (v : List Byte) : State × Nat :=
  let id := leNat v
  if c.role.rank < rkOperator && c.session != id then (s, stRole)
  else if id = 0 || !s.sec.sessions.any (·.id == id) then (s, stRefused)
  else (s.closeSessions (·.id == id), stOk)

/-- SESSION_CLOSE. -/
def execSessionClose (r : Req) (v : List Byte) (s : State) : Host.Outcome State Fault Refusal :=
  .next (s.runCmd r Key.sessionClose rkTenant v State.doSessionClose)

/-- SESSION_IDLE_TIMEOUT: SessionIdleS without a valid frame (R692). -/
def execSessionIdleTimeout (session : Nat) (s : State) : Host.Outcome State Fault Refusal :=
  .next (s.closeSessions (fun x => x.id == session && decide (x.stamp + 1000000000 * s.obj Key.sessionIdleS ≤ s.time)))

/-! ### Debug and rollback (R693, R695, R727, R728) -/

/-- DebugUnlock (R693, R695). -/
def State.doDebugUnlock (s : State) (_ : Caller) (_ : List Byte) : State × Nat :=
  if s.sec.confidential || Config.debugFused || s.sec.tenants.any (fun e => e.2.st == .active) then (s, stRefused)
  else (s.modSec (fun k => { k with debugUnlocked := true }), stOk)

/-- DEBUG_UNLOCK: a vendor-signed write. -/
def execDebugUnlock (r : Req) (v : List Byte) (s : State) : Host.Outcome State Fault Refusal :=
  .next (s.runSigned r Key.debugUnlock v State.doDebugUnlock)

/-- The counter advances to the running image's SECURITY_VERSION, to 64 at most, while VIN is present (R728). -/
def State.advanceRollback (s : State) : State :=
  if !s.power.vin then s
  else s.modSec (fun k => { k with rollback := max k.rollback (min 64 (imgField s.activeImage 12 4)) })

/-- RollbackAdvanceNow (R728). -/
def State.doRollbackAdvanceNow (s : State) (_ : Caller) (_ : List Byte) : State × Nat := (s.advanceRollback, stOk)

/-- ROLLBACK_ADVANCE_NOW: a vendor-signed write. -/
def execRollbackAdvanceNow (r : Req) (v : List Byte) (s : State) : Host.Outcome State Fault Refusal :=
  .next (s.runSigned r Key.rollbackAdvanceNow v State.doRollbackAdvanceNow)

/-- ROLLBACK_ADVANCE: after 600 s of running in one boot (R728). -/
def execRollbackAdvance (s : State) : Host.Outcome State Fault Refusal :=
  if s.power.st = .stowed || s.power.st = .off || tabGet s.timers tmRun 0 < 600000000000 then .next s else .next s.advanceRollback

/-! ### Key entries (R696, R698 to R700) -/

/-- The day number of a standing key (R698). -/
def standingEpoch : Nat := 0xFFFFF

/-- Change one key entry. -/
def State.modKey (s : State) (i : Nat) (f : KeyEntry → KeyEntry) : State :=
  s.modSec (fun c => { c with keys := tabMod c.keys i {} f, storeDirty := true })

def State.keyEntry (s : State) (i : Nat) : KeyEntry := tabGet s.sec.keys i {}

/-- Entries of a tenant that are not FREE. -/
def State.keysOf (s : State) (t : Nat) : List (Nat × KeyEntry) :=
  s.sec.keys.filter (fun e => decide (64 ≤ e.1) && e.2.st != .free && e.2.tenant == t)

/-- FREE tenant entries. -/
def State.freeKeys (s : State) : Nat :=
  4032 - (s.sec.keys.filter (fun e => decide (64 ≤ e.1) && e.2.st != .free)).length

/-- Entries that pages or checkpoints still name. -/
def State.namedKeys (s : State) : List Nat :=
  s.tier.pages.map (·.keyIndex) ++ s.tier.sets.flatMap (fun t => t.committedPages.map (·.keyIndex))

/-- The lowest FREE tenant entry that no page still names. -/
def State.freeKey (s : State) : Option Nat :=
  let used := (s.sec.keys.filter (fun e => decide (64 ≤ e.1) && e.2.st != .free)).map (·.1)
  let i := firstGap 64 (sortBy id (distinct (used ++ s.namedKeys.filter (fun k => decide (64 ≤ k)))))
  if i < 4096 then some i else none

/-- Make an entry from the DRBG (R700): its index, and the state; nothing where no entry is FREE. -/
def State.makeKey (s : State) (t epoch : Nat) (standing : Bool) (st : KeyState) (rekey pair : Nat) : Option (Nat × State) :=
  s.freeKey.map (fun i =>
    let e : KeyEntry := {
      st, epoch, gen := (s.tenant t).generation, tenant := t, standing, pair, rekeys := rekey,
      material := s.sec.nextKey }
    (i, s.modSec (fun c => { c with keys := tabSet c.keys i e, nextKey := c.nextKey + 1, storeDirty := true })))

/-- Make an entry where one is FREE. -/
def State.withKey (s : State) (t epoch : Nat) (standing : Bool) (st : KeyState) : State :=
  ((s.makeKey t epoch standing st 0 0).map (·.2)).getD s

/-- Σ (RetentionDays + 3) over the ACTIVE tenants that meet a condition (R696). -/
def State.keyReserve (s : State) (f : Nat → Bool) : Nat :=
  (s.sec.tenants.filter (fun e => e.2.st == .active && f e.1)).foldl (fun n e => n + e.2.retentionDays + 3) 0

/-! ### Tenants (R696, R697, R710, R801) -/

/-- A tenant is created with its first day key and its standing key (R696, R710). -/
def State.makeTenant (s : State) (v : List Byte) : State :=
  let t := field (leNat (v.take 2)) 5 0
  let s1 := s.setTenant t {
    st := .active, generation := (s.tenant t).generation, retentionDays := leNat ((v.drop 2).take 2)
    rollOffset := leNat ((v.drop 4).take 4), requireConfidential := bit (leNat (v.take 2)) 8, key := (v.drop 12).take 384 ++ (v.drop 8).take 4 }
  (s1.withKey t (s1.dayOf t s1.time) false .write).withKey t standingEpoch true .write

/-- TenantCreate (R696, R730). -/
def State.doTenantCreate (s : State) (_ : Caller) (v : List Byte) : State × Nat :=
  let t := field (leNat (v.take 2)) 5 0
  let conf := bit (leNat (v.take 2)) 8
  let days := leNat ((v.drop 2).take 2)
  let off := leNat ((v.drop 4).take 4)
  let x := s.tenant t
  if v.length != 396 then (s, stLength)
  else if !onlyBits (leNat (v.take 2)) [(5, 0), (8, 8)] then (s, stRange)
  else if x.st ≠ .free || (conf && !s.sec.confidential) || days = 0 || 3650 < days || off % 900 ≠ 0 || 86400 ≤ off
      || 4032 < s.keyReserve (fun _ => true) + days + 3 || !s.mgmt.calendarValid then (s, stRefused)
  else (s.makeTenant v, stOk)

/-- TENANT_CREATE. -/
def execTenantCreate (r : Req) (v : List Byte) (s : State) : Host.Outcome State Fault Refusal :=
  .next (s.runCmd r Key.tenantCreate rkOperator v State.doTenantCreate)

/-- A write of RetentionDays (R696, R710): raised at once, lowered from the next boundary. -/
def State.writeRetention (t : Nat) (s : State) (c : Caller) (v : Nat) : State × Nat :=
  let x := s.tenant t
  if !c.reaches t then (s, stRole)
  else if x.st ≠ .active then (s, stRefused)
  else if v < x.retentionDays then
    ((s.setTenant t { x with retentionNext := some v }).modSec (fun k => { k with storeDirty := true }), stOk)
  else if 4032 < s.keyReserve (· != t) + v + 3 then (s, stRefused)
  else ((s.setTenant t { x with retentionDays := v, retentionNext := none }).modSec (fun k => { k with storeDirty := true }), stOk)

/-- RETENTION_DAYS_WRITE. -/
def execRetentionDaysWrite (r : Req) (tenant : Fin 64) (v : List Byte) (s : State) : Host.Outcome State Fault Refusal :=
  .next (s.runScalar r (Key.at Key.retentionDays tenant.val) rkTenant v (State.writeRetention tenant.val))

/-! ### Rolls (R707 to R709) -/

/-- The key of a delayed roll's epoch is made, and is WRITE at once (R709). -/
def State.lateRoll (s : State) (t : Nat) : State :=
  let s1 := match s.writeKey t false with
    | some (i, _) => s.modKey i (fun e => { e with st := .read })
    | none => s
  (s1.withKey t (s1.dayOf t s1.time) false .write).modTenant t (fun x => { x with rollDelayed := false })

/-- A missing entry is made before any other key operation of the tenant (R709). -/
def State.ownRoll (s : State) (t : Nat) : State := if (s.tenant t).rollDelayed && s.islandOn then s.lateRoll t else s

/-- PENDING_KEY_CREATE: the next epoch's entry is made; after a roll that found none, the missing entry is made and is WRITE at
once (R708, R709). -/
def execPendingKeyCreate (tenant : Fin 64) (s : State) : Host.Outcome State Fault Refusal :=
  let t := tenant.val
  let x := s.tenant t
  if x.st ≠ .active || !s.islandOn then .next s
  else if x.rollDelayed then .next (s.lateRoll t)
  else if (s.keysOf t).any (fun e => e.2.st == .pending) then .next s
  else match s.writeKey t false with
    | none => .next s
    | some (_, e) => .next (s.withKey t (e.epoch + 1) false .pending)

/-- The roll of a tenant's day key, where its boundary has passed: the PENDING entry becomes WRITE and the WRITE entry READ; a lowered
RetentionDays comes into force; without an entry for the new epoch the roll is delayed (R708 to R710). -/
def State.rollKey (s : State) (t : Nat) : State :=
  let x := s.tenant t
  let now := s.dayOf t s.time
  match s.writeKey t false with
  | none => s
  | some (old, e) =>
    if x.st ≠ .active || now ≤ e.epoch || x.rollDelayed then s
    else
      let s1 := s.modTenant t (fun x => { x with retentionDays := x.retentionNext.getD x.retentionDays, retentionNext := none })
      match (s1.keysOf t).find? (fun k => k.2.st == .pending) with
      | some (i, p) =>
        if p.epoch = now then (s1.modKey old (fun e => { e with st := .read })).modKey i (fun e => { e with st := .write })
        else ((s1.modKey i (fun _ => {})).modTenant t (fun x => { x with rollDelayed := true })).bump (Key.at Key.rollsDelayed t)
      | none => (s1.modTenant t (fun x => { x with rollDelayed := true })).bump (Key.at Key.rollsDelayed t)

/-- DAY_KEY_ROLL: at a tenant's boundary, in ACTIVE and DOZE. -/
def execDayKeyRoll (tenant : Fin 64) (s : State) : Host.Outcome State Fault Refusal :=
  .next (if s.power.st = .active ∨ s.power.st = .doze then s.rollKey tenant.val else s)

/-! ### Expiry (R710 to R715, R720) -/

/-- Is an entry's fence due (R710, R719): asked for, or its epoch's retention has passed. -/
def State.fenceDue (s : State) (e : KeyEntry) : Bool :=
  (e.st == .read || e.st == .write || e.st == .rekeyOld) && (s.tenant e.tenant).st == .active
    && (e.due || (!e.standing && e.st != .write
      && decide (e.epoch + (s.tenant e.tenant).retentionDays ≤ s.dayOf e.tenant s.time)))

/-- The entries whose fences are due, in the order of R715. -/
def State.dueFences (s : State) : List Nat :=
  (sortBy (fun (e : Nat × KeyEntry) => e.2.tenant * 2 ^ 20 + e.2.epoch)
    (s.sec.keys.filter (fun e => decide (64 ≤ e.1) && s.fenceDue e.2))).map (·.1)

/-- Has an entry's epoch passed its tenant's retention (R710). -/
def State.epochOver (s : State) (e : KeyEntry) : Bool :=
  !e.standing && decide (e.epoch + (s.tenant e.tenant).retentionDays ≤ s.dayOf e.tenant s.time)

/-- The entries that one fence covers: with the epoch's expiry, both of a re-key in progress (R720); after a sweep, the old one. -/
def State.fenceCovers (s : State) (i : Nat) : List Nat :=
  let e := s.keyEntry i
  if e.st = .rekeyOld && e.due && !s.epochOver e then [i]
  else i :: ((s.keysOf e.tenant).filter (fun k =>
    k.1 != i && k.2.epoch == e.epoch && (k.2.st == .rekeyOld || k.2.st == .read))).map (·.1)

/-- The open spans of a sequence under entries end at the highest position assigned to any layer (R713). -/
def KvSeq.fixUnder (q : KvSeq) (ls : List KvLayout) (es : List Nat) : KvSeq :=
  let layers := (ls.find? (·.number == q.layout)).elim 0 (·.layers)
  if q.spans.any (fun sp => es.contains sp.keyIndex && !q.closed layers sp) then q.fixEnd (q.top layers) else q

/-- Fix the ends of open KV spans under entries, in the pitches and in detached state sets (R713). -/
def State.fixSpans (s : State) (es : List Nat) : State :=
  { s with
    pitches := s.pitches.map (fun e => (e.1, { e.2 with seqs := e.2.seqs.map (·.fixUnder e.2.layouts es) }))
    tier := { s.tier with sets := s.tier.sets.map (fun t => { t with seqs := t.seqs.map (·.fixUnder t.layouts es) }) } }

/-- Steps 1 and 2 of a fence (R711, R713): the entries are FENCED; an expiring standing key is replaced at once (R710);
migrations of their pages are abandoned and checkpoints write none of their tiles (R729). -/
def State.startFence (s : State) (i : Nat) : State :=
  let es := s.fenceCovers i
  let e := s.keyEntry i
  let s1 := es.foldl (fun (t : State) k => t.modKey k (fun x => { x with st := .fenced, due := false })) s
  let s2 := if e.standing && e.st == .write then s1.withKey e.tenant standingEpoch true .write else s1
  let hit := fun (g : Page) => es.contains g.keyIndex && g.migration.isSome
  let s3 := s2.countAborts hit
  let s4 : State := { s3 with tier := { s3.tier with
    pages := s3.tier.pages.map (fun g => if hit g then { g with migration := none } else g) } }
  (s4.fixSpans es).modSec (fun c => { c with fence := some i, fenceStart := s.time })

/-- EXPIRY_FENCE: the first due fence starts; fences run one at a time (R711, R715). -/
def execExpiryFence (entry : Nat) (s : State) : Host.Outcome State Fault Refusal :=
  if s.sec.fence.isSome || s.dueFences.head? != some entry || s.power.st != .active || !s.islandOn then .next s
  else .next (s.startFence entry)

/-- The state addresses of the requests of a command in progress that have not returned: outstanding, or waiting for a tag. -/
def State.tilesOut (s : State) (j : Job) : List Nat :=
  (s.tier.tags.filter (fun t => t.slot == j.slot && j.tags.contains t.tag)).map (·.addr)
    ++ (match j.wait with
      | .tag reads writes => reads ++ writes
      | _ => [])

/-- What is open to pages under entries (R372, R711): a KV read command's reference to a page, until the last tile of it has returned, and
any other request, as pitch, slot and the state address of its first tile. -/
def State.openReferences (s : State) (es : List Nat) : List (Nat × Nat × Nat) :=
  let under := fun (p a : Nat) => (s.pageAt p a).elim false (fun g => es.contains g.keyIndex)
  let jobs := s.cores.flatMap (fun c => c.2.jobs)
  jobs.flatMap (fun j =>
    let p := (s.slot j.slot).pitch
    let out := (s.tilesOut j).filter (under p)
    let pages := (s.tier.pages.filter (fun g => j.pages.contains g.id)).filterMap (fun g => out.find? (g.covers p))
    let others := out.filter (fun a => !j.pages.any (fun id => (s.page id).elim false (·.covers p a)))
    (pages ++ others).map (fun a => (p, j.slot, a)))
  ++ (s.tier.tags.filter (fun t => t.slot != noSlot && !t.fabric && under t.pitch t.addr && !jobs.any (fun j => j.tags.contains t.tag))).map (fun t => (t.pitch, t.slot, t.addr))

/-- Entries that the running fence covers. -/
def State.fencedEntries (s : State) (i : Nat) : List Nat :=
  let e := s.keyEntry i
  ((s.keysOf e.tenant).filter (fun k => k.2.st == .fenced && k.2.epoch == e.epoch && k.2.material != 0)).map (·.1)

/-- Step 4 of a fence (R711): the material is zeroised, and tier A frames of the entries' pages are cleared. -/
def State.zeroise (s : State) (es : List Nat) : State :=
  let s1 := es.foldl (fun (t : State) k => t.modKey k (fun x => { x with material := 0 })) s
  { s1 with tier := { s1.tier with pages := s1.tier.pages.map (fun g =>
    if g.tier = .a ∧ es.contains g.keyIndex then { g with data := [], poison := [] } else g) } }

/-- EXPIRY_DRAIN_DONE: every reference has returned (R711). -/
def execExpiryDrainDone (entry : Nat) (s : State) : Host.Outcome State Fault Refusal :=
  let es := s.fencedEntries entry
  if s.sec.fence != some entry || es.isEmpty || !(s.openReferences es).isEmpty || !s.islandOn then .next s else .next (s.zeroise es)

/-- The references still open to a fence's entries are cut: the pitch of each is torn down once with KEY_EXPIRED, DETAIL the first tile
that returns poisoned to it (R712). -/
def State.cutReferences (s : State) (entry : Nat) (cut : List (Nat × Nat × Nat)) : State :=
  let s1 := (List.range 32).foldl (fun (t : State) p =>
    match cut.find? (·.1 == p) with
    | none => t
    | some k => t.faultPitch p fcKeyExpired k.2.2 { slot := if k.2.1 < noSlot then some k.2.1 else none }) s
  if cut.isEmpty then s1 else s1.bump (Key.at Key.expiryCutReads (s.keyEntry entry).tenant) cut.length

/-- EXPIRY_DRAIN_CUT: references still open ExpiryDrainUs after the fence began are cut, and the pitch of each is torn down once with
KEY_EXPIRED (R712). -/
def execExpiryDrainCut (entry : Nat) (s : State) : Host.Outcome State Fault Refusal :=
  let es := s.fencedEntries entry
  if s.sec.fence != some entry || es.isEmpty || decide (s.time < s.sec.fenceStart + 1000 * s.obj Key.expiryDrainUs) || !s.islandOn then .next s
  else .next ((s.cutReferences entry (s.openReferences es)).zeroise es)

/-- Tenant and epoch of EpochExpire and RekeyStart (R730). -/
def epochNames (v : List Byte) : Option (Nat × Nat) :=
  let d := leNat v
  if onlyBits d [(5, 0), (31, 12)] then some (field d 5 0, field d 31 12) else none

/-- An entry's fence is due by command, and starts at once where none runs (R710). -/
def State.expireEntry (s : State) (i : Nat) : State :=
  let s1 := s.modKey i (fun x => { x with due := true })
  if s1.sec.fence.isNone && s1.power.st == .active && s1.islandOn then s1.startFence i else s1

/-- EpochExpire (R710): of a READ epoch, or of the standing key. -/
def State.doEpochExpire (s : State) (c : Caller) (v : List Byte) : State × Nat :=
  match epochNames v with
  | none => (s, stRange)
  | some (t, e) =>
    if !c.reaches t then (s, stRole)
    else
      let s := s.ownRoll t
      match (s.keysOf t).find? (fun k => k.2.epoch == e && (if e = standingEpoch then k.2.st == .write else k.2.st == .read)) with
      | none => (s, stRefused)
      | some (i, _) =>
        (s.expireEntry i, stOk)

/-- EPOCH_EXPIRE. -/
def execEpochExpire (r : Req) (v : List Byte) (s : State) : Host.Outcome State Fault Refusal :=
  .next (s.runCmd r Key.epochExpire rkTenant v State.doEpochExpire)

/-! ### Re-key (R716 to R720) -/

/-- KV spans take another key entry of their epoch: the pages that they gain from now on lie under it. -/
def State.respan (s : State) (i j : Nat) : State :=
  let seq := fun (q : KvSeq) => { q with spans := q.spans.map (fun sp => if sp.keyIndex = i then { sp with keyIndex := j } else sp) }
  { s with
    pitches := s.pitches.map (fun e => (e.1, { e.2 with seqs := e.2.seqs.map seq }))
    tier := { s.tier with sets := s.tier.sets.map (fun t => { t with
      seqs := t.seqs.map seq
      pendingSeqs := t.pendingSeqs.map seq
      committedSeqs := t.committedSeqs.map seq }) } }

/-- A re-key of an entry begins under a new entry of its epoch, and its sweep with it (R716, R717); none where no entry is FREE. -/
def State.startRekey (s : State) (t e i : Nat) (k : KeyEntry) : Option State :=
  (s.makeKey t e k.standing k.st (k.rekeys + 1) i).map (fun x =>
    ((x.2.modKey i (fun y => { y with st := .rekeyOld, pair := x.1 })).respan i x.1).sweep)

/-- May an entry be re-keyed now: fewer than 15 re-keys, none of its epoch in progress, the standing key not fenced, and entries in
reserve (R716). -/
def State.rekeyAllowed (s : State) (t e : Nat) (k : KeyEntry) : Bool :=
  let mine := s.keysOf t
  let others := s.keyReserve (· != t)
  let held := (s.sec.tenants.filter (fun x => x.2.st == .active && x.1 != t)).foldl (fun n x => n + (s.keysOf x.1).length) 0
  !(mine.any (fun x => x.2.epoch == e && x.2.st == .rekeyOld) || decide (15 ≤ k.rekeys)
    || mine.any (fun x => x.2.standing && x.2.st == .fenced)
    || (mine.any (fun x => x.2.st == .rekeyOld) && decide (s.freeKeys ≤ others - held)))

/-- RekeyStart (R716). -/
def State.doRekeyStart (s : State) (c : Caller) (v : List Byte) : State × Nat :=
  match epochNames v with
  | none => (s, stRange)
  | some (t, e) =>
    if !c.reaches t then (s, stRole)
    else
      let s := s.ownRoll t
      match (s.keysOf t).find? (fun k => k.2.epoch == e && (k.2.st == .write || k.2.st == .read)) with
      | none => (s, stRefused)
      | some (i, k) =>
        if !s.rekeyAllowed t e k then (s, stRefused)
        else match s.startRekey t e i k with
          | none => (s, stRefused)
          | some s1 => (s1, stOk)

/-- REKEY_START. -/
def execRekeyStart (r : Req) (v : List Byte) (s : State) : Host.Outcome State Fault Refusal :=
  .next (s.runCmd r Key.rekeyStart rkTenant v State.doRekeyStart)

/-- Pages under an entry that its re-key still has to visit (R717). -/
def State.rekeyPages (s : State) (i : Nat) : List Page := s.tier.pages.filter (·.keyIndex == i)

/-- Pages that keep a re-key's sweep from its end: those of tiers B and C under the old entry (R717). -/
def State.sweepLeft (s : State) (i : Nat) : Bool := (s.rekeyPages i).any (fun g => g.tier != .a)

/-- The sweep of a re-key ends (R717, R719): pages in tier A, where tiles are plaintext, name the new entry; the tiles of committed
checkpoints that are no page's present copy are programmed anew under it; and the old entry's fence is due. -/
def State.endRekey (s : State) (i : Nat) (k : KeyEntry) : State :=
  let move := fun (g : Page) => if g.keyIndex = i then g.underKey (k.pair, g.epoch) else g
  let rename := fun (g : Page) => if g.keyIndex = i then { g with keyIndex := k.pair } else g
  let old := s.tier.sets.flatMap (fun t => (t.committedPages.filter (·.keyIndex == i)).map (fun o => (o, s.onlyCommitted t o)))
  let s1 := old.foldl (fun (t : State) o => t.programTiles (rename o.1) o.2) s
  let s2 : State := { s1 with tier := { s1.tier with
      pages := s1.tier.pages.map move
      sets := s1.tier.sets.map (fun t => { t with
        pendingPages := t.pendingPages.map rename
        committedPages := t.committedPages.map rename }) } }
  s2.modKey i (fun x => { x with due := true })

/-- REKEY_SWEEP_DONE: every page of tiers B and C under a tenant's old entry has switched to the new one, and the old one's fence is due
(R717, R719). -/
def execRekeySweepDone (tenant : Fin 64) (s : State) : Host.Outcome State Fault Refusal :=
  match (s.keysOf tenant.val).find? (fun k => k.2.st == .rekeyOld && !k.2.due && !s.sweepLeft k.1) with
  | none => .next s
  | some (i, k) =>
    if !s.tierOn || (s.tenant tenant.val).st ≠ .active then .next s
    else .next (s.endRekey i k)

/-- The descriptor of an entry (R698). -/
def KeyEntry.descriptor (e : KeyEntry) : Nat :=
  let st := match e.st with
    | .free => 0
    | .pending => 1
    | .write => 2
    | .read => 3
    | .fenced => 4
    | .rekeyOld => 5
  e.pair % 4096 * 2 ^ 8 + flag e.standing * 2 ^ 20 + e.tenant % 64 * 2 ^ 21 + e.gen % 1024 * 2 ^ 27 + e.epoch % 2 ^ 20 * 2 ^ 37
    + e.rekeys % 16 * 2 ^ 57 + st * 2 ^ 61

end Sys2Proof.Machine
end

