-- ==== Sys2Proof/Machine/Removal.lean ====
section
/-! DEFINITION. Snapshots, resets and fences across the fabric, tenant removal and the key store's commit (R547 to R549, R701, R711,
R715, R721 to R723). -/

namespace Sys2Proof.Machine

/-! ### Packets of global operations (R517, R547 to R549) -/

/-- Internal codes of the global operations that the modules' routers exchange on VC1. -/
def gopSnapshot := 2
def gopReset := 3
def gopFence := 4
def gopReport := 5

/-- One VC1 packet to every other module of the torus. -/
def State.broadcastGlobal (s : State) (gop tag : Nat) : State :=
  (s.torus.filter (· != s.moduleId)).foldl (fun (t : State) m =>
    t.emit { kind := .global, gop, dstModule := m, srcUnit := { module := s.moduleId }, tenant := tag, vc := 1, last := true }) s

/-- The input ports and virtual channels on which a marker is due: every channel of every UP port (R508, R547). -/
def State.markerChannels (s : State) : List (Nat × Nat) :=
  ((List.range 6).filter s.portUp).flatMap (fun p => (List.range 8).map (fun v => (p, v)))

/-- Send a MARKER on every channel of every UP port. -/
def State.sendMarkers (s : State) (tag : Nat) : State :=
  s.markerChannels.foldl (fun (t : State) x =>
    let p : Packet := { kind := .marker, dstModule := s.neighbour s.moduleId x.1, srcUnit := { module := s.moduleId }, tenant := tag,
                        vc := x.2, last := true, stamp := s.time }
    ({ t with fabric := { t.fabric with sent := t.fabric.sent ++ [(x.1, x.2, p)] } }).bump (Key.at Key.txFlits x.1)) s

def State.setCut (s : State) (c : Option Cut) : State := { s with fabric := { s.fabric with cut := c } }

/-! ### The parts of a removal (R721) -/

/-- Pitches of a tenant. -/
def State.tenantPitches (s : State) (t : Nat) : List Nat :=
  (List.range 32).filter (fun p => (s.pitch p).st != .free && tenantOfTag (s.pitch p).tenantTag == t)

/-- Requests that the block holds for a tenant's pitches (R38, R549). -/
def State.tenantRequests (s : State) (t : Nat) : List TagEntry :=
  s.tier.tags.filter (fun e => e.slot != noSlot && (s.tenantPitches t).contains e.pitch)

/-- Step 1 (R721): the tenant is REMOVING, its sessions close, and its re-key or expiry in progress stops (R731). -/
def State.acceptRemoval (s : State) (t : Nat) (fabric : Bool) : State :=
  let s1 := s.modTenant t (fun x => { x with
    st := .removing, removal := 1, fabricRemoval := fabric, fenced := false, rollDelayed := false })
  (s1.closeSessions (fun x => x.role == 0 && x.tenant == t)).modSec (fun c => { c with
    storeDirty := true
    fence := if c.fence.elim false (fun i => (tabGet c.keys i {}).tenant == t) then none else c.fence })

/-- Steps 3 and 4 (R721): the generation changes, and every pitch of the tenant is torn down with TENANT_REVOKED. -/
def State.revokeTenant (s : State) (t gen : Nat) : State :=
  let ps := s.tenantPitches t
  let s1 := s.modTenant t (fun x => { x with generation := gen, removal := if x.st = .removing then 2 else x.removal })
  ps.foldl (fun (u : State) p => u.faultPitch p fcTenant (s.pitch p).tenantTag { byCommand := true }) s1

/-- Steps 6 to 8 up to the commit (R721): keys zeroised, pitches removed and scrubbed, state sets deleted. -/
def State.endTenant (s : State) (t : Nat) : State :=
  let ks := (s.keysOf t).map (·.1)
  let s1 := ks.foldl (fun (u : State) k => u.modKey k (fun e => { e with st := .fenced, due := false })) (s.zeroise ks)
  let s2 := (s1.tenantPitches t).foldl State.removePitch s1
  let s3 := ((s2.tier.sets.filter (·.tenant == t)).map (·.id)).foldl State.deleteSet s2
  (s3.modTenant t (fun x => { x with removal := 3 })).modSec (fun c => { c with storeDirty := true })

/-- Is the removal's intent committed to the key store (step 2). -/
def State.intentCommitted (s : State) (t : Nat) : Bool := (tabGet s.sec.committedTenants t {}).st == .removing

/-- May steps 6 to 8 of a removal run: its pitches are down, nothing of the tenant is outstanding, and with scope FABRIC the
fence is complete (R721, R722). -/
def State.removalDue (s : State) (t : Nat) : Bool :=
  let x := s.tenant t
  x.st == .removing && x.removal == 2 && s.intentCommitted t && (!x.fabricRemoval || x.fenced) && s.islandOn
    && (s.tenantPitches t).all (fun p => (s.pitch p).st != .teardown && (s.pitch p).st != .running)
    && (s.tenantRequests t).isEmpty

/-! ### Cuts (R547, R549) -/

/-- Is a cut's tenant still there: the one of its generation, not being removed (R729). -/
def State.cutTenant (s : State) (c : Cut) : Bool := (s.tenant c.tenant).st == .active && (s.tenant c.tenant).generation == c.newGen

/-- The cut is complete when every module has reported (R547, R549): the starting module records it; a fence lets the removal
that waits for it go on. -/
def State.finishCut (s : State) (c : Cut) : State :=
  if !s.torus.all c.reports.contains then s
  else
    let s1 : State := { s with fabric := { s.fabric with cut := s.fabric.cuts.head?, cuts := s.fabric.cuts.drop 1 } }
    let own := c.origin == s.moduleId
    if c.fence then
      let s2 := s1.modTenant c.tenant (fun x => { x with fenced := x.st == .removing })
      if own then (s2.bump Key.tenantFences).setObj Key.lastFenceNs (min 0xFFFFFFFF (s.time - c.start)) else s2
    else if own && s1.cutTenant c then s1.setObj Key.snapshotLastStamp c.start
    else s1

/-- This module reports to every module, itself among them. -/
def State.reportCut (s : State) (c : Cut) : State :=
  let c1 : Cut := { c with reported := true, reports := distinct (s.moduleId :: c.reports) }
  ((s.setCut (some c1)).broadcastGlobal gopReport (c.tenant * 1024 + c.newGen)).finishCut c1

/-- A snapshot at this module whose writes have committed: a checkpoint of every state set of the tenant starts, unless its removal
has begun (R729), and injection resumes (step 4 of R547). -/
def State.cutCheckpoints (s : State) (c : Cut) : State :=
  let s1 := ((s.tier.sets.filter (fun t => s.cutTenant c && t.tenant == c.tenant)).map (·.id)).foldl (fun (t : State) id => t.startCheckpoint id true) s
  let s2 := s1.reportCut c
  ((s2.tenantPitches c.tenant).flatMap (fun p => (s2.pitch p).slots)).foldl State.pushSends s2

/-- Requests to other modules' routers that a fence's markers have flushed: no answer to them can come any more. -/
def State.dropFenced (s : State) (t : Nat) : State :=
  let gone := ((s.tenantRequests t).filter (·.fabric)).map (·.tag)
  gone.foldl (fun (u : State) k => u.closeOp k) s

/-- Step 3 of R547: with a marker on every channel of every UP input port, its own injection stopped, and what the router held gone,
the router sends its markers. -/
def State.passMarkers (s : State) : State :=
  match s.fabric.cut with
  | none => s
  | some c =>
    if c.sentMarkers || !s.markerChannels.all c.markersIn.contains || !s.fabric.held.isEmpty then s
    else
      let s1 := (s.setCut (some { c with sentMarkers := true })).sendMarkers (c.tenant * 1024 + c.newGen)
      if c.fence then s1.dropFenced c.tenant else s1

/-- A cut goes on: markers, then the module's checkpoints and report when nothing of the tenant is outstanding. -/
def State.advanceCut (s : State) : State :=
  let s1 := s.passMarkers
  match s1.fabric.cut with
  | none => s1
  | some c =>
    if !c.sentMarkers || c.reported then s1
    else if c.fence then
      (if (s1.tenantRequests c.tenant).isEmpty then s1.reportCut c else s1)
    else if (s1.tenantRequests c.tenant).any (·.write)
        || s1.fabric.arrivals.any (fun p => p.kind == .write && tenantOfTag p.tenant == c.tenant) then s1
    else (s1.cutCheckpoints c).serveGroups

/-- Start a cut at this module (R547, R549), after one in progress. -/
def State.startCut (s : State) (c : Cut) : State :=
  if s.fabric.cut.isSome then { s with fabric := { s.fabric with cuts := s.fabric.cuts ++ [c] } } else (s.setCut (some c)).advanceCut

/-- Start a fence across the fabric with a new generation (R549). -/
def State.startTenantFence (s : State) (t gen : Nat) : State :=
  (s.broadcastGlobal gopFence (t * 1024 + gen)).startCut { tenant := t, fence := true, newGen := gen, origin := s.moduleId, start := s.time }

/-- A removal goes on: the fence of one with scope FABRIC, then steps 6 to 8 (R721, R722). -/
def State.advanceRemoval (s : State) (t : Nat) : State :=
  let x := s.tenant t
  let s1 := if x.st == .removing && x.removal == 2 && x.fabricRemoval && !x.fenced && s.fabric.cut.isNone
    then s.startTenantFence t x.generation else s
  if s1.removalDue t then s1.endTenant t else s1

/-- Everything that waits for outstanding requests or teardowns: a cut, and removals. -/
def State.afterRequests (s : State) : State :=
  let s1 := s.advanceCut
  (s1.sec.tenants.filter (fun e => e.2.st == .removing)).foldl (fun (t : State) e => t.advanceRemoval e.1) s1

/-- A cut in progress goes on when what it waited for has passed, and then what waits for it. -/
def State.advanceCuts (s : State) : State := if s.fabric.cut.isSome then s.afterRequests else s

/-! ### Commands of a cut -/

/-- SnapshotStart (R547). -/
def State.doSnapshotStart (s : State) (_ : Caller) (v : List Byte) : State × Nat :=
  let t := leNat v
  if 64 ≤ t then (s, stRange)
  else if (s.tenant t).st ≠ .active then (s, stRefused)
  else if s.fabric.cut.isSome then (s, stBusy)
  else
    let gen := (s.tenant t).generation
    ((s.broadcastGlobal gopSnapshot (t * 1024 + gen)).startCut {
      tenant := t, fence := false, newGen := gen, origin := s.moduleId, start := s.time }, stInProgress)

/-- SNAPSHOT_START. -/
def execSnapshotStart (r : Req) (v : List Byte) (s : State) : Host.Outcome State Fault Refusal :=
  .next (s.runCmd r Key.snapshotStart rkOperator v State.doSnapshotStart)

/-- A fence of a tenant reaches this module: steps 1, 3 and 4 of R721 for a tenant it holds (R722). -/
def State.fenceTenant (s : State) (t gen : Nat) : State :=
  let s1 := if (s.tenant t).st = .active then s.acceptRemoval t true else s
  (s1.modTenant t (fun x => { x with fabricRemoval := x.fabricRemoval || x.st == .removing, fenced := false })).revokeTenant t gen

/-- TenantFence (R549). -/
def State.doTenantFence (s : State) (_ : Caller) (v : List Byte) : State × Nat :=
  let d := leNat v
  let t := field d 5 0
  if !onlyBits d [(5, 0), (25, 16)] then (s, stRange)
  else if s.fabric.cut.isSome then (s, stBusy)
  else (((s.fenceTenant t (field d 25 16)).startTenantFence t (field d 25 16)).afterRequests, stInProgress)

/-- TENANT_FENCE. -/
def execTenantFence (r : Req) (v : List Byte) (s : State) : Host.Outcome State Fault Refusal :=
  .next (s.runCmd r Key.tenantFence rkOperator v State.doTenantFence)

/-- A reset of the fabric at this module (R548): every pitch is torn down with code 0x00, and the router's buffers are
empty. -/
def State.resetFabric (s : State) : State :=
  let s1 := (List.range 32).foldl (fun (t : State) p => t.faultPitch p fcRemoved 0 { byCommand := true }) s
  { s1 with fabric := { s1.fabric with held := [], reductions := [], barriers := [], arrivals := [], due := [], inFlight := [] } }

/-- FabricReset (R548). -/
def State.doFabricReset (s : State) (_ : Caller) (_ : List Byte) : State × Nat := ((s.broadcastGlobal gopReset 0).resetFabric, stOk)

/-- FABRIC_RESET. -/
def execFabricReset (r : Req) (v : List Byte) (s : State) : Host.Outcome State Fault Refusal :=
  .next (s.runCmd r Key.fabricReset rkOperator v State.doFabricReset)

/-- FABRIC_RESET_BROADCAST (R548). -/
def execFabricResetBroadcast (s : State) : Host.Outcome State Fault Refusal := .next s.resetFabric

/-- MARKER: a marker on a channel of an input port; with the last one due, the router sends its own (R547). -/
def execMarker (port : Fin 6) (vc : Nat) (s : State) : Host.Outcome State Fault Refusal :=
  match s.fabric.cut with
  | none => .next s
  | some c => .next (s.setCut (some { c with
      markersIn := c.markersIn.filter (· != (port.val, vc % 8)) ++ [(port.val, vc % 8)] })).afterRequests

/-- SNAPSHOT_BROADCAST: the tenant's pitches form no new fabric packets until the module has reported (R547). -/
def execSnapshotBroadcast (tenant origin : Nat) (s : State) : Host.Outcome State Fault Refusal :=
  .next (s.startCut { tenant := tenant % 64, fence := false, newGen := (s.tenant (tenant % 64)).generation, origin, start := s.time })

/-- TENANT_FENCE_BROADCAST: traffic of the old generation is dropped; steps 1, 3 and 4 of R721 (R549, R722). -/
def execTenantFenceBroadcast (tenant gen origin : Nat) (s : State) : Host.Outcome State Fault Refusal :=
  let t := tenant % 64
  .next (((s.fenceTenant t (gen % 1024)).startCut { tenant := t, fence := true, newGen := gen % 1024, origin, start := s.time }).afterRequests)

/-- GLOBAL_REPORT: a module has reported (R547, R549). -/
def execGlobalReport (module : Nat) (s : State) : Host.Outcome State Fault Refusal :=
  match s.fabric.cut with
  | none => .next s
  | some c =>
    let c1 : Cut := { c with reports := distinct (module :: c.reports) }
    .next (((s.setCut (some c1)).finishCut c1).afterRequests)

/-! ### Tenant removal (R721, R722) -/

/-- TenantRemove: `fabric` the scope asked for by bit 8. -/
def State.doTenantRemove (s : State) (_ : Caller) (v : List Byte) : State × Nat :=
  let d := leNat v
  let t := field d 5 0
  if !onlyBits d [(5, 0), (8, 8)] then (s, stRange)
  else if (s.tenant t).st ≠ .active then (s, stRefused)
  else (s.acceptRemoval t (bit d 8), stInProgress)

/-- TENANT_REMOVE: a write of TenantRemove with bit 8 clear. -/
def execTenantRemove (r : Req) (v : List Byte) (s : State) : Host.Outcome State Fault Refusal :=
  if bit (leNat v) 8 then .next s else .next (s.runCmd r Key.tenantRemove rkOperator v State.doTenantRemove)

/-- TENANT_REMOVE_FABRIC: a write of TenantRemove with bit 8 set. -/
def execTenantRemoveFabric (r : Req) (v : List Byte) (s : State) : Host.Outcome State Fault Refusal :=
  if !bit (leNat v) 8 then .next s else .next (s.runCmd r Key.tenantRemove rkOperator v State.doTenantRemove)

/-! ### The key store's commit (R701, R711 step 5, R721) -/

/-- Step 5 of a fence: the entries it zeroised are FREE, and the expiry is counted (R711). -/
def State.freeFenced (s : State) : State :=
  match s.sec.fence with
  | none => s
  | some i =>
    let e := s.keyEntry i
    let gone := ((s.keysOf e.tenant).filter (fun k => k.2.st == .fenced && k.2.epoch == e.epoch && k.2.material == 0)).map (·.1)
    if gone.isEmpty then s
    else
      let s1 := s.modSec (fun c => { c with keys := c.keys.filter (fun k => !gone.contains k.1), fence := none })
      s1.bump (Key.at Key.expiriesDone e.tenant)

/-- Step 8 of a removal: the tenant is FREE, its generation kept, and its entries are FREE. -/
def State.freeTenants (s : State) : State :=
  let gone := (s.sec.tenants.filter (fun e => e.2.st == .removing && e.2.removal == 3)).map (·.1)
  let s1 := gone.foldl (fun (t : State) k => t.setTenant k { generation := (t.tenant k).generation }) s
  let s2 := s1.modSec (fun c => { c with keys := c.keys.filter (fun k => !(decide (64 ≤ k.1) && gone.contains k.2.tenant)) })
  if gone.isEmpty then s else s2.bump Key.tenantRemovals gone.length

/-- Bytes of the key store's image (R701). -/
def State.keyStoreSize (s : State) : Nat :=
  Config.keyStoreBytes (s.sec.keys.filter (fun e => e.2.st != .free)).length s.sec.tenants.length

/-- The new image is in force: it holds the entries and tenant records, and its bytes are charged (R701, R870). -/
def State.latchStore (s : State) : State :=
  let s1 := s.modSec (fun c => { c with
    committedTenants := c.tenants, committedKeys := c.keys, storeDirty := false, sealValid := true })
  s1.chargeFlash s1.keyStoreSize

/-- KEY_STORE_COMMIT: a new image is programmed, its seal latched and the old image erased (R701); fences and removals that
waited for it go on (R711, R721). -/
def execKeyStoreCommit (s : State) : Host.Outcome State Fault Refusal :=
  if !s.sec.storeDirty || !s.islandOn then .next s
  else
    let s1 := s.freeFenced.freeTenants.latchStore
    let due := (s1.sec.tenants.filter (fun e => e.2.st == .removing && e.2.removal == 1)).map (·.1)
    .next ((due.foldl (fun (t : State) k => t.revokeTenant k (((t.tenant k).generation + 1) % 1024)) s1).afterRequests)

end Sys2Proof.Machine
end

