-- ==== Sys2Proof/Machine/Complete.lean ====
section
/-! DEFINITION. The ends of what is in progress: answers to requests, refusals, completion of engine commands, and the last step of
teardown (R132, R217, R218, R226, R393, R477, R486, R490, R521 to R523). -/

namespace Sys2Proof.Machine

/-- After an answer: waiting requests take the tags that are free (R39), promotions take frames that a switch left (R267, R278), and
a cut or a removal goes on. -/
def State.afterAnswer (s : State) : State := s.serveTags.resumeA.afterRequests

/-! ### Answers of this module's memory (R226) -/

/-- What the access behind a read's answer found is logged where the tile lies (R650, R651, R656, R664); an uncorrectable line is stored
as poison, and a flash tile that failed is marked unreadable (R293, R663). -/
def State.noteRead (s : State) (e : TagEntry) (poison : Option Nat) (found : Finding) (line : Nat) : State :=
  match s.pageAt e.pitch e.addr with
  | none => s
  | some g =>
    let t := (e.addr - g.addr) / 4096
    let off := 4096 * t + 64 * (line % 64)
    if g.inFlash t then
      let s1 := s.flashRetries g t 0 (poison != some fcFlashRead) (some e.pitch)
      if poison = some fcFlashRead then s1.flashFail g t else s1
    else
      let s1 := s.lineFound g off 0 e.stamp found (some e.pitch)
      if found = .uncorrectable then s1.poisonAt g off else s1

/-- READ_RESPONSE: data returns for a tag, which is freed; what the access found in a line of its tile is logged; poison
tears the pitch down (R217), and so does a changed tenant generation (R218); requests that waited for a tag go on. -/
def execReadResponse (tag : Nat) (poison : Option Nat) (found : Finding) (line : Nat) (s : State) :
    Host.Outcome State Fault Refusal :=
  match s.tier.tags.find? (fun e => e.tag == tag && !e.write && !e.fabric && e.slot != noSlot) with
  | none => .next s
  | some e =>
    let s2 := (s.freeTag tag).noteRead e poison found line
    let bad := if found = .uncorrectable || found = .poison then some fcEccUncorr else poison
    match s2.jobOfTag e.slot tag with
    | none => .next s2.afterAnswer
    | some j =>
      let s3 := s2.returnTag j tag
      .next (match bad with
        | some code => (s3.faultSlot e.slot (code, e.addr) j.opcode j.cmdPtr).afterAnswer
        | none =>
          let t := (s3.pitch e.pitch).tenantTag
          if s3.tagCurrent t then (s3.afterReturn j).afterAnswer
          else (s3.faultSlot e.slot (fcTenant, t) j.opcode j.cmdPtr).afterAnswer)

/-- WRITE_COMMIT_ACK: a write's commit acknowledgement returns and frees its tag (R226). -/
def execWriteCommitAck (tag : Nat) (s : State) : Host.Outcome State Fault Refusal :=
  match s.tier.tags.find? (fun e => e.tag == tag && e.write && !e.fabric && e.slot != noSlot) with
  | none => .next s
  | some e =>
    let s1 := s.freeTag tag
    match s1.jobOfTag e.slot tag with
    | none => .next s1.afterAnswer
    | some j =>
      let s2 := s1.returnTag j tag
      let t := (s2.pitch e.pitch).tenantTag
      .next (if s2.tagCurrent t then (s2.afterReturn j).afterAnswer else (s2.faultSlot e.slot (fcTenant, t) j.opcode j.cmdPtr).afterAnswer)


/-! ### Answers of other modules' routers (R522, R523) -/

/-- The transfer job of a slot has a request answered: its tag is gone, and it waits for no quota. -/
def State.answered (s : State) (slot tag : Nat) : State :=
  s.modJob slot .xfr (fun j => { j with
    tags := j.tags.filter (· != tag)
    wait := match j.wait with | .quota _ => .none | w => w })

/-- A transfer job that read data has served makes the write requests of that data. -/
def State.writeOn (s : State) (j : Job) (tag : Nat) (writes : List Nat) : State :=
  let (s2, j2) := (s.closeOp tag).jobRequests j [] writes
  (s2.putXfr j2).afterAnswer

/-- Read data is written at the command's destination; poison tears the pitch down with its code (R217, R218,
R523). -/
def takeReadData (pkt : Packet) (s : State) : Received :=
  if !s.fabricTag pkt.tag then (s, true)
  else match s.opOf pkt with
    | none => ((s.freeTag pkt.tag).afterAnswer, true)
    | some o =>
      match s.jobOfTag o.slot pkt.tag with
      | none => ((s.closeOp pkt.tag).afterAnswer, true)
      | some j =>
        if pkt.poison then
          (((s.closeOp pkt.tag).faultSlot o.slot (pkt.code, o.send.pkt.addr) j.opcode j.cmdPtr).afterAnswer, true)
        else if !s.tagCurrent (s.pitch (s.slot o.slot).pitch).tenantTag then
          (((s.closeOp pkt.tag).checkTenant o.slot j).afterAnswer, true)
        else
          let m := s.placeRead o.slot o.send (pkt.payload.take o.send.pkt.len)
          match m.err, m.stall with
          | some f, _ => (((m.s.closeOp pkt.tag).faultSlot o.slot f j.opcode j.cmdPtr).afterAnswer, true)
          | none, some a =>
            ((s.modJob o.slot .xfr (fun j => { j with wait := .quota a.1 })).stallQuota (s.slot o.slot).pitch a, false)
          | none, none =>
            let s1 := m.s.answered o.slot pkt.tag
            (match s1.jobOf o.slot .xfr with
              | none => s1
              | some j1 => s1.writeOn j1 pkt.tag m.writes, true)

/-- READ_DATA. -/
def execReadData (pkt : Packet) (s : State) : Host.Outcome State Fault Refusal := .next (s.arrive pkt takeReadData)

/-- An FWRITE's packet is committed at its destination; its tag is free (R522). -/
def State.takeWriteAck (s : State) (pkt : Packet) : State :=
  if !s.fabricTag pkt.tag then s
  else match s.opOf pkt with
    | none => (s.freeTag pkt.tag).afterAnswer
    | some o =>
      match s.jobOfTag o.slot pkt.tag with
      | none => (s.closeOp pkt.tag).afterAnswer
      | some j =>
        let s1 := (s.closeOp pkt.tag).returnTag j pkt.tag
        if s1.tagCurrent (s1.pitch (s1.slot o.slot).pitch).tenantTag then (s1.afterReturn j).afterAnswer
        else (s1.checkTenant o.slot j).afterAnswer

/-- WRITE_ACK. -/
def execWriteAck (pkt : Packet) (s : State) : Host.Outcome State Fault Refusal :=
  .next (s.arrive pkt (fun p t => (t.takeWriteAck p, true)))

/-- A stale delivery is notified, or tears the pitch down with STALE_FATAL; any other refusal tears the sending pitch
down with its code (R477, R480, R521, R533, R556). -/
def State.takeNack (s : State) (pkt : Packet) : State :=
  if s.fabricTag pkt.tag && (s.opOf pkt).isSome then
    match s.opOf pkt with
    | none => s
    | some o =>
      let s1 := s.closeOp pkt.tag
      match s.jobOfTag o.slot pkt.tag with
      | none => s1.afterAnswer
      | some j => (s1.faultSlot o.slot (pkt.code, nackDetail pkt.code o.send.pkt pkt) j.opcode j.cmdPtr).afterAnswer
  else if s.fabricTag pkt.tag && pkt.tag != 0 then (s.freeTag pkt.tag).afterAnswer
  else if !s.unitCurrent pkt.srcUnit then s
  else
    let i := unitSlot pkt.srcUnit
    if pkt.code = fcStaleRole then s.staleNack i pkt.dstUnit
    else s.faultSlot i (pkt.code, if pkt.code = fcUnreachable then pkt.dstUnit.module else
      if pkt.code = fcTenant then pkt.tenant else unitBits pkt.dstUnit) 0xB2 (s.slot i).streamPtr

/-- NACK. -/
def execNack (pkt : Packet) (s : State) : Host.Outcome State Fault Refusal :=
  .next (s.arrive pkt (fun p t => (t.takeNack p, true)))

/-! ### Packets that waited (R514, R558) -/

/-- What a packet does at this module, by its kind (R517). -/
def takeByKind (pkt : Packet) (s : State) : Received :=
  match pkt.kind with
  | .write => takeWrite pkt s
  | .readReq => takeReadReq pkt s
  | .readData => takeReadData pkt s
  | .collUp => takeCollUp pkt s
  | .collDown => takeCollDown pkt s
  | .global => takeBroadcast pkt s
  | .writeAck => (s.takeWriteAck pkt, true)
  | .msg => (s.takeMsg pkt, true)
  | .msgCredit => (s.takeMsgCredit pkt, true)
  | .event => (s.takeEvent pkt, true)
  | .nack => (s.takeNack pkt, true)
  | .marker => (s, true)
  | .guyline => (s, true)
  | .time => (s, true)

/-- Packets that waited are taken in order as far as they can be (R39, R301, R539, R541, R558). -/
def State.serveArrivals (s : State) : State :=
  if s.fabric.arrivals.isEmpty || s.power.st ≠ .active then s
  else s.fabric.arrivals.foldl (fun (t : State) p => t.arrive p takeByKind) { s with fabric := { s.fabric with arrivals := [] } }

/-! ### Completion (R101, R132, R216, R332, R393) -/

/-- What a command's completion does beside its operand. -/
def State.applyDone (s : State) (d : Done) : State :=
  match d with
  | .kvLength p l n layer len =>
    let old := (s.seqInUse p l n).elim 0 (·.len layer)
    let s1 := s.modSeq p l n (fun q => { q with lens := tabSet q.lens layer (max old len) })
    if old < len then s1.bump Key.kvAppendedTokens (len - old) else s1
  | .handleRelease h => s.releaseHold h
  | .swapOut h a => s.endSwapOut h a
  | .swapIn h a => s.endSwapIn h a

/-! ### Steps and packets (R101, R134 to R137) -/

/-- A chunk's steps are recorded by units: one step of a cell, one segment of 16 steps of a scan (R393, R400). -/
def Job.unit (j : Job) : Nat := if j.opcode = opRcell then 1 else 16

/-- What a command of the matrix or vector engines does with memory as it stands now: its steps from here on are formed from that. -/
def State.workNow (s : State) (j : Job) : Option Work :=
  let t := s.modSlot j.slot (fun x => { x with regs := j.regs })
  if j.opcode = 0x20 then some (t.mmaWork j.slot j.words)
  else if j.opcode = 0x80 then some (t.wconvWork j.slot j.words)
  else if j.opcode = 0x81 then some (t.wpoolWork j.slot j.words)
  else if j.opcode = 0xA1 then some (t.rprojWork j.slot j.words)
  else if 0x40 ≤ j.opcode ∧ j.opcode ≤ 0x56 then some (State.vecWork j.opcode t j.slot j.words)
  else none

/-- A step as it begins: it reads its operands and its tile now, not at issue (R131, R157, R416), or meets a line poisoned since. -/
def State.stepNow (s : State) (j : Job) (t : Step) : Except PitchFault Step :=
  match s.workNow j with
  | none => .ok t
  | some w =>
    match w.err with
    | some f => .error f
    | none => .ok ((w.todo[t.index]?).elim t (fun u => { u with index := t.index, on := t.on }))

/-- A later step of a slot's command on an engine begins, once its reads are answered; none where there is none. -/
def State.laterStep? (s : State) (i : Nat) (e : Engine) : Option State :=
  (s.jobOf i e).bind (fun j =>
    if !s.formed j then none
    else (j.nextStep e).map (fun r =>
      match s.stepNow j r.1 with
      | .error f => s.faultSlot i f j.opcode j.cmdPtr
      | .ok t => (s.modJob i e (fun j => { j with todo := r.2, conds := j.conds ++ [(e, t.fl)] })).landStep i t))
def State.laterStep (s : State) (i : Nat) (e : Engine) : State := (s.laterStep? i e).getD s

/-- The runner of an engine begins its next step, or forms its next packet. -/
def State.goOn (s : State) (i : Nat) (e : Engine) : State :=
  match s.jobOf i e with
  | none => s
  | some j =>
    if j.isChunk then (if j.engines.head? == some e then s.stepChunk j j.unit else s)
    else if j.todo.isEmpty then (if e = .xfr then s.pushMove i else s)
    else s.laterStep i e

/-- Free engines go to their claimants, which begin their work on them. -/
def State.startFreed (s : State) (c : Nat) : State :=
  let old := (s.core c).jobs
  let t := s.reassign c
  [Engine.m0, .m1, .vec, .xfr].foldl (fun (t : State) e =>
    match (t.core c).runner e with
    | none => t
    | some j => if engineFree old e then t.goOn j.slot e else t) t

/-- A condition that a step met and that NUM_TRAP enables tears the pitch down (R101). -/
def State.trapAt (s : State) (j : Job) : State :=
  s.faultSlot j.slot (fcArith, (s.slot j.slot).numFlags.toNat) j.opcode j.cmdPtr

/-- ENGINE_STEP_END: the end of a tile step, vector step or packet (R101, R134, R136, R181): the cycles are counted; a
condition met in the step and enabled in NUM_TRAP as it then stands tears the pitch down; else a waiting command of higher priority
pre-empts, and the command keeps what it still has to do; else its next step or packet follows. -/
def execEngineStepEnd (cr : CoreRef) (e : Engine) (cycles : Nat) (s : State) : Host.Outcome State Fault Refusal :=
  let c := coreIndex cr
  match (s.core c).runner e with
  | none => .next s
  | some j =>
    let s1 := if s.sec.confidential then s else s.modCore c (·.busy e cycles)
    let s2 := s1.modJob j.slot e (fun j => { j with conds := j.conds.filter (·.1 != e) })
    if j.condsOn e &&& (s1.slot j.slot).numTrap != 0 then .next (s2.trapAt j)
    else match s2.preempter c e j with
      | none => .next (s2.goOn j.slot e)
      | some _ =>
        .next ((s2.modCore c (fun k => { k with
          jobs := updateJob k.jobs j.slot e (fun j => { j with running := j.running.filter (· != e) })
          preempts := if s.sec.confidential then k.preempts else k.preempts + 1 })).startFreed c)

/-- What is left of a command's steps runs, each decided at its end (R101); it stops where a step traps or waits. -/
def State.runSteps (i : Nat) (e : Engine) : Nat → State → State
  | 0, s => s
  | n + 1, s =>
    match s.jobOf i e with
    | none => s
    | some j =>
      match j.engines.find? (fun k => (j.nextStep k).isSome) with
      | none => s
      | some k =>
        if j.condsOn k &&& (s.slot i).numTrap != 0 then s.trapAt j
        else match (s.modJob i e (fun j => { j with conds := j.conds.filter (·.1 != k) })).laterStep? i k with
          | none => s
          | some t => State.runSteps i e n t

/-- What is left of a command's steps and packets. -/
def Job.left (j : Job) : Nat :=
  2 * ((j.move.elim 0 (fun m => m.runs.length + m.index.elim 0 (fun p => p.count - p.next)))
    + j.qread.elim 0 (fun r => 520 * r.left) + 2)

/-- The command on an engine of a slot is complete: it leaves its engines, its effects at completion follow, its slot's watchdog
restarts (R482), then its operand and its lines; the slot's FENCE, PARK or STOP may be met (R132, R141, R145, R216). -/
def State.endJob (s : State) (i : Nat) (e : Engine) (j : Job) : State :=
  let c := coreOfSlot i
  let s1 := s.modCore c (fun k => { k with jobs := k.jobs.filter (fun x => !(x.slot == i && x.names e)) })
  let s2 := ((j.onDone.foldl State.applyDone s1).modSlot i (fun x => { x with watchRun := 0 })).applyOperand i j.done
  ((((s2.raiseAll i j.cmplLines).finishDrops (s.slot i).pitch).startFreed c).settle i)

/-- Is a KVAPP of the same sequence and layer in progress whose positions lie below: LEN_L rises in their order (R332, R333). -/
def State.appendsBefore (s : State) (d : Done) : Bool :=
  match d with
  | .kvLength p l n layer len => s.cores.any (fun c => c.2.jobs.any (fun j => j.onDone.any (fun o =>
      match o with
      | .kvLength p' l' n' layer' len' => p' == p && l' == l && n' == n && layer' == layer && decide (len' < len)
      | _ => false)))
  | _ => false

/-- May the command on an engine complete: it runs on every engine it names, and waits for nothing. -/
def State.canComplete (s : State) (j : Job) : Bool :=
  !j.either && j.engines.all j.running.contains && j.moved && j.todo.isEmpty && j.sends.isEmpty && j.chain.isNone
    && !(j.names .xfr && s.fabric.colls.any (·.slot == j.slot)) && j.onDone.all (fun d => !s.appendsBefore d)
    && s.operandUp j.done

/-- The command completes: a chunk runs its last steps and writes its page back (R393); a condition of its last step that NUM_TRAP
enables tears the pitch down (R101). -/
def State.complete (s : State) (i : Nat) (e : Engine) (j : Job) : State :=
  let (s1, stop, met) : State × Option AllocStop × Met := match j.isChunk, j.chunk with
    | true, some k => s.finishChunk j k
    | _, _ => (s, none, {})
  let s2 := s1.meet i met
  match stop with
  | some (.fault f) => s2.faultSlot i f j.opcode j.cmdPtr
  | some (.stall a w) => s.stallQuota (s.slot i).pitch (a, w)
  | none =>
    if (j.allConds ||| met.fl) &&& (s2.slot i).numTrap != 0 then
      s2.trapAt j
    else s2.endJob i e j

/-- Bring on what the command still waits for: a handle's hold, its steps, its packets, its group's collective. -/
def State.pushJob (s : State) (i : Nat) (e : Engine) : State :=
  let s1 := match (s.jobOf i e).map (·.wait) with
    | some (.handle h) => s.grant h
    | _ => s
  let s2 := match s1.jobOf i e with
    | some j => if e = .xfr then State.runMoves i j.left s1 else State.runSteps i e j.todo.length s1
    | none => s1
  if e = .xfr then (s2.pushSends i).serveGroups else s2

/-- COMMAND_COMPLETE: the command of a slot on an engine completes (R132). -/
def execCommandComplete (u : SlotRef) (e : Engine) (s : State) : Host.Outcome State Fault Refusal :=
  let i := slotIndex u
  if s.power.st ≠ .active then .next s
  else
    let s1 := s.pushJob i e
    match s1.jobOf i e with
    | none => .next s1
    | some j => .next (if s1.canComplete j then (s1.complete i e j).afterRequests else s1)

/-! ### The last step of teardown (R486, R490) -/

/-- The slots of a torn-down pitch are IDLE, so that their cores may gate (R186), the pitch is TORN_DOWN, its counter and its last
code follow (R486 step 6, R490). -/
def State.endTeardown (s : State) (pitch : Nat) (d : Teardown) : State :=
  let r := s.pitch pitch
  let s0 := r.slots.foldl (fun (t : State) i => t.modSlot i (fun x => { x with st := .idle })) s
  let s1 := r.slots.foldl (fun (t : State) i => t.gateCore (coreOfSlot i)) s0
  let s2 := s1.setPitch pitch { r with st := .tornDown, down := none }
  (s2.bump (Key.at Key.teardowns pitch)).setObj (Key.at Key.lastFaultCode pitch) d.code

/-- The record of a teardown goes into the log and to the host (R488, R490). -/
def State.recordTeardown (s : State) (pitch : Nat) (d : Teardown) : State :=
  let tag := (s.pitch pitch).tenantTag
  let s1 : State := { s with teardownLog := (teardownRecord pitch tag d false :: s.teardownLog).take 256 }
  (s1.bump Key.teardownLogCount).postEvent 1 (teardownRecord pitch tag d s.sec.confidential)

/-- Line 242 tells the tenant's other pitches of the clusters (R481). -/
def State.tellTeardown (s : State) (pitch : Nat) : State :=
  let r := s.pitch pitch
  (List.range 6).foldl (fun (t : State) n =>
    if (r.share n).2 = 0 && (t.slotsIn pitch n).isEmpty then t
    else
      let ps := (List.range 32).filter (fun q => q != pitch && (t.pitch q).st != .free
        && tenantOfTag (t.pitch q).tenantTag == tenantOfTag r.tenantTag && (((t.pitch q).share n).2 != 0 || !(t.slotsIn q n).isEmpty))
      if ps.isEmpty then t else t.pulse n 242 (some ps)) s

/-- TEARDOWN_COMPLETE: step 6 of R486: the record is written and posted, line 242 raised, the slots are IDLE and the pitch
TORN_DOWN; a removal that waited follows. -/
def execTeardownComplete (pitch : Nat) (s : State) : Host.Outcome State Fault Refusal :=
  match (s.pitch pitch).st, (s.pitch pitch).down with
  | .teardown, some d =>
    let t := ((s.endTeardown pitch d).recordTeardown pitch d).tellTeardown pitch
    .next (if d.removeAfter then t.removePitch pitch else t).afterRequests
  | _, _ => .next s

end Sys2Proof.Machine
end

