-- ==== Sys2Proof/Machine/Nv.lean ====
section
/-! DEFINITION. The user NV image: its layout, its sections, what may be stored, and its two copies (R775, R778 to R780, R874,
R875). -/

namespace Sys2Proof.Machine

/-! ### Layout (R874, R875) -/

/-- A record of the image: its section, the object's key and its value. -/
structure NvRecord where
  section_ : Nat
  key : Nat
  value : List Byte
  deriving DecidableEq, Repr

/-- Bytes of a record: its header, the value, and zeros up to a multiple of 4. -/
def NvRecord.bytes (r : NvRecord) : List Byte :=
  natLe 2 (r.key / 256) ++ natLe 1 (r.key % 256) ++ [0] ++ natLe 4 r.value.length ++ r.value
    ++ List.replicate (ceilDiv r.value.length 4 * 4 - r.value.length) 0

/-- Bytes of a section: its header and its records in ascending order. -/
def nvSection (rs : List NvRecord) (k : Nat) : List Byte :=
  let body := (sortBy NvRecord.key (rs.filter (·.section_ == k))).flatMap NvRecord.bytes
  natLe 1 k ++ [0, 0, 0] ++ natLe 4 body.length ++ body

/-- The header of an image with a CRC field. -/
def nvHeader (seq len crc : Nat) : List Byte :=
  ([0x57, 0x5A, 0x4E, 0x56] : List Byte) ++ natLe 2 1 ++ natLe 2 32 ++ natLe 4 seq ++ natLe 4 len ++ natLe 4 crc ++ List.replicate 12 0

/-- The image of a set of records under a sequence number. -/
def nvBuild (seq : Nat) (rs : List NvRecord) : List Byte :=
  let body := (List.range 5).flatMap (nvSection rs)
  let len := 32 + body.length
  nvHeader seq len (crc32c (nvHeader seq len 0 ++ body)) ++ body

/-- Records of a section's bytes, after the key `last` of the one before; none where the layout is broken. -/
def nvRecords (sec : Nat) : Nat → Option Nat → List Byte → Option (List NvRecord)
  | _, _, [] => some []
  | 0, _, _ => none
  | n + 1, last, bs =>
    let key := leNat (bs.take 2) * 256 + leNat ((bs.drop 2).take 1)
    let len := leNat ((bs.drop 4).take 4)
    let size := 8 + ceilDiv len 4 * 4
    if bs.length < size || nth bs 3 0 != 0 || last.elim false (fun k => decide (key ≤ k))
        || ((bs.take size).drop (8 + len)).any (· != 0) then none
    else (nvRecords sec n (some key) (bs.drop size)).map ({ section_ := sec, key, value := (bs.drop 8).take len } :: ·)

/-- Sections from number k on; nothing follows the last. -/
def nvSections : Nat → Nat → List Byte → Option (List NvRecord)
  | 0, _, bs => if bs.isEmpty then some [] else none
  | n + 1, k, bs =>
    let len := leNat ((bs.drop 4).take 4)
    let body := (bs.drop 8).take len
    if bs.length < 8 + len || leNat (bs.take 4) != k then none
    else
      match nvRecords k (len + 1) none body, nvSections n (k + 1) (bs.drop (8 + len)) with
      | some a, some b => some (a ++ b)
      | _, _ => none

/-- Read an image; none where it breaks its layout or its CRC fails. -/
def nvParse (bs : List Byte) : Option (List NvRecord) :=
  let crc := leNat ((bs.drop 16).take 4)
  if bs.length < 72 || leNat ((bs.drop 12).take 4) != bs.length || bs.take 8 != (nvHeader 0 0 0).take 8
      || ((bs.take 32).drop 20).any (· != 0)
      || crc32c (bs.take 16 ++ [0, 0, 0, 0] ++ bs.drop 20) != crc then none
  else nvSections 5 0 (bs.drop 32)

/-- SEQUENCE of an image, 0 for none. -/
def nvSeq (bs : List Byte) : Nat := leNat ((bs.drop 8).take 4)

/-! ### What may be stored (R778) -/

/-- The Select objects (R773). ProfileSelect, which R776 stores, is none. -/
def selectKeys : List Nat := [Key.extentSelect, Key.stateSetSelect, Key.kvSeqSelect, Key.stateHandleSelect, Key.teardownLogSelect,
  Key.pegSelect, Key.orphanSelect, Key.encStreamSelect, Key.ceBankSelect, Key.faultLogSelect, Key.keyEntrySelect, Key.coreDivSelect,
  Key.ceLifeBankSelect]
def isSelect (key : Nat) : Bool :=
  selectKeys.any (fun k => k == key || ((k == Key.pegSelect || k == Key.orphanSelect) && decide (k ≤ key) && decide (key ≤ k + 256 * 5)
    && (key - k) % 256 == 0))

/-- May an object be stored in a section. -/
def storable (key sec : Nat) : Bool :=
  let i := key / 256
  match objRow key with
  | none => false
  | some r =>
    if key = Key.confidentialMode then sec == 4
    else (r.acc == .rw || r.acc == .rws) && !isSelect key && !(decide (0x3100 ≤ i) && decide (i ≤ 0x31FF))
      && !(decide (0x4200 ≤ i) && decide (i ≤ 0x42FF)) && !(decide (0x5200 ≤ i) && decide (i ≤ 0x52FF))
      && !(decide (0x8000 ≤ i) && decide (i ≤ 0x82FF))

/-! ### The image in force -/

/-- Records of the image in force. -/
def State.nvRecs (s : State) : List NvRecord := (nvParse s.mgmt.nvImage).getD []

/-- The value a section holds of an object. -/
def nvIn (rs : List NvRecord) (sec key : Nat) : Option (List Byte) :=
  (rs.find? (fun r => r.section_ == sec && r.key == key)).map (·.value)

/-- The NV value of an object under a profile: its section's, else the common section's (R775). -/
def nvLayer (rs : List NvRecord) (profile key : Nat) : Option (List Byte) := (nvIn rs profile key).or (nvIn rs 4 key)

/-- Put an image in force in place of the older copy: the next sequence number (R779); programming it is charged (R870). -/
def State.nvCommit (s : State) (rs : List NvRecord) : State :=
  let s1 : State := { s with mgmt := { s.mgmt with
    nvOlder := s.mgmt.nvImage
    nvImage := nvBuild (max (nvSeq s.mgmt.nvImage) (nvSeq s.mgmt.nvOlder) + 1) rs } }
  s1.chargeFlash s1.mgmt.nvImage.length

/-- Records with one value set. -/
def nvSet (rs : List NvRecord) (sec key : Nat) (v : List Byte) : List NvRecord :=
  rs.filter (fun r => !(r.section_ == sec && r.key == key)) ++ [{ section_ := sec, key, value := v }]

/-- An image that waits for the next reset takes a stored value too. -/
def State.nvWaitToo (s : State) (sec key : Nat) (v : List Byte) : State :=
  { s with mgmt := { s.mgmt with nvNext := s.mgmt.nvNext.map (fun bs => nvBuild 0 (nvSet ((nvParse bs).getD []) sec key v)) } }

/-- Store a value (R778, R779): refused where the image would pass 262,144 B. An image that waits for the next reset takes
the value too, so that no accepted store is lost. -/
def State.nvStore (s : State) (sec key : Nat) (v : List Byte) : State × Nat :=
  let rs := nvSet s.nvRecs sec key v
  if 262144 < (nvBuild 0 rs).length then (s, stNvFull)
  else
    ((s.nvWaitToo sec key v).nvCommit rs, stOk)

/-- An image waits for the next reset (R780). -/
def State.nvWait (s : State) (image : List Byte) : State := { s with mgmt := { s.mgmt with nvNext := some image } }

/-- A write of NvImage (R780). -/
def State.writeNvImage (s : State) (v : List Byte) : State × Nat :=
  match nvParse v with
  | none => (s, stRange)
  | some rs =>
    if rs.any (fun r => !storable r.key r.section_) then (s, stRange)
    else if 262144 < v.length then (s, stNvFull)
    else (s.nvWait v, stOk)

/-- The records that the next reset loads. -/
def State.nvNextRecs (s : State) : List NvRecord :=
  match s.mgmt.nvNext with
  | some bs => (nvParse bs).getD []
  | none => s.nvRecs

/-- NvClearSection (R780). -/
def State.doNvClearSection (s : State) (_ : Caller) (v : List Byte) : State × Nat :=
  let k := leNat v
  if 4 < k then (s, stRange)
  else (s.nvWait (nvBuild 0 (s.nvNextRecs.filter (·.section_ != k))), stOk)

/-- NV_CLEAR_SECTION. -/
def execNvClearSection (r : Req) (v : List Byte) (s : State) : Host.Outcome State Fault Refusal :=
  .next (s.runCmd r Key.nvClearSection rkIntegrator v State.doNvClearSection)

/-- NV_IMAGE_WRITE: a write of NvImage. -/
def execNvImageWrite (r : Req) (v : List Byte) (s : State) : Host.Outcome State Fault Refusal :=
  .next (s.request r { op := 2, index := Key.nvImage / 256, sub := Key.nvImage % 256 } v (fun s c =>
    if c.role.rank < rkIntegrator then served s stRole
    else
      let (s1, st) := s.writeNvImage v
      served s1 st))

/-- At a reset the waiting image is put in force (R780). -/
def State.nvReset (s : State) : State :=
  match s.mgmt.nvNext with
  | none => s
  | some bs =>
    let s1 : State := { s with mgmt := { s.mgmt with nvNext := none } }
    s1.nvCommit ((nvParse bs).getD [])

end Sys2Proof.Machine
end

