-- ==== Sys2Proof/Machine/Update.lean ====
section
/-! DEFINITION. Field update: staging, the patch stream, the update step of the boot ROM, and the trial of a new image (chapter 17,
R805 to R820). -/

namespace Sys2Proof.Machine

def State.modUpdate (s : State) (f : Update → Update) : State := { s with update := f s.update }

/-! ### Staging (R807 to R812) -/

/-- Pieces of the staged package, and the bytes of piece k (R809). -/
def Update.total (u : Update) : Nat := ceilDiv u.packageLen 1024
def Update.pieceLen (u : Update) (k : Nat) : Nat := min 1024 (u.packageLen - 1024 * k)

/-- Is every piece received. -/
def Update.complete (u : Update) : Bool := decide (0 < u.packageLen) && u.pieces.length == u.total

/-- The package as received. -/
def Update.package (u : Update) : List Byte := (List.range u.total).flatMap (fun k => fitBytes (u.pieceLen k) (tabGet u.pieces k []))

/-- The staging area and the bitmap are clear, and the state is IDLE. -/
def Update.cleared (u : Update) : Update := { u with st := 0, packageLen := 0, target := [], pieces := [] }

/-- UpdateBegin (R808). -/
def State.doUpdateBegin (s : State) (_ : Caller) (v : List Byte) : State × Nat :=
  let len := leNat (v.take 4)
  let digest := v.drop 8
  let u := s.update
  if len < 129 || 16777216 < len || leNat ((v.drop 4).take 4) != 0 then (s, stRange)
  else if u.st = 3 || u.st = 4 then (s, stRefused)
  else if u.packageLen = len ∧ u.target = digest then
    (s.modUpdate (fun u => { u with st := if u.complete then 2 else 1 }), stOk)
  else (s.modUpdate (fun u => { u with st := 1, packageLen := len, target := digest, pieces := [] }), stOk)

/-- UPDATE_BEGIN. -/
def execUpdateBegin (r : Req) (v : List Byte) (s : State) : Host.Outcome State Fault Refusal :=
  .next (s.runCmd r Key.updateBegin rkOperator v State.doUpdateBegin)

/-- A piece (R810, R811): programmed with its bitmap copy of 2 KiB, both charged (R870). -/
def State.writePiece (s : State) (offset : Nat) (data : List Byte) : State × Nat :=
  let u := s.update
  let k := offset / 1024
  if u.st ≠ 1 && u.st ≠ 2 then (s, stRefused)
  else if offset % 1024 != 0 || u.packageLen ≤ offset || data.length != u.pieceLen k then (s, stRange)
  else if (tabFind u.pieces k).isSome then (s.bump Key.updateDuplicatePieces, stOk)
  else
    let s1 := s.modUpdate (fun u =>
      let u1 : Update := { u with pieces := tabSet u.pieces k data }
      { u1 with st := if u1.complete then 2 else u1.st })
    ((s1.chargeFlash data.length).chargeFlash 2048, stOk)

/-- UPDATE_PIECE: a WRITE of UpdatePiece at an offset, from OPERATOR (R809, R820). -/
def execUpdatePiece (r : Req) (offset : Nat) (data : List Byte) (s : State) : Host.Outcome State Fault Refusal :=
  .next (s.request r { op := 2, index := Key.updatePiece / 256, sub := Key.updatePiece % 256, offset } data (fun s c =>
    if c.role.rank < rkOperator then served s stRole
    else
      let (s1, st) := s.writePiece offset data
      served s1 st))

/-- UpdateActivate (R812). -/
def State.doUpdateActivate (s : State) (_ : Caller) (v : List Byte) : State × Nat :=
  let k := leNat v
  if k ≠ 1 && k ≠ 2 then (s, stRange)
  else if s.update.st ≠ 2 then (s, stRefused)
  else
    let s1 := s.modUpdate (fun u => { u with st := 3 })
    (if k = 2 then { s1 with mgmt := { s1.mgmt with resetScheduled := true } }.mark tmActivate else s1, stOk)

/-- UPDATE_ACTIVATE: UpdateActivate 1. -/
def execUpdateActivate (r : Req) (s : State) : Host.Outcome State Fault Refusal :=
  .next (s.runCmd r Key.updateActivate rkOperator [1] State.doUpdateActivate)

/-- UPDATE_ACTIVATE_RESET: UpdateActivate 2, which schedules a reset. -/
def execUpdateActivateReset (r : Req) (s : State) : Host.Outcome State Fault Refusal :=
  .next (s.runCmd r Key.updateActivate rkOperator [2] State.doUpdateActivate)

/-- UpdateCancel (R812). -/
def State.doUpdateCancel (s : State) (_ : Caller) (_ : List Byte) : State × Nat :=
  if s.update.st = 1 || s.update.st = 2 || s.update.st = 3 then (s.modUpdate Update.cleared, stOk) else (s, stRefused)

/-- UPDATE_CANCEL. -/
def execUpdateCancel (r : Req) (v : List Byte) (s : State) : Host.Outcome State Fault Refusal :=
  .next (s.runCmd r Key.updateCancel rkOperator v State.doUpdateCancel)

/-! ### The patch stream (R813, R814) -/

/-- The next operation of a stream: its appended bytes, and the rest; none where it is malformed. END is no operation here. -/
def patchOp (base bs : List Byte) : Option (List Byte × List Byte) :=
  let word := fun (k : Nat) => leNat ((bs.drop (1 + 4 * k)).take 4)
  let src := word 0
  let len := word 1
  match bs.head?.map BitVec.toNat with
  | some 1 =>
    if bs.length < 9 || len = 0 || base.length < src + len then none else some ((base.drop src).take len, bs.drop 9)
  | some 2 =>
    if bs.length < 9 + len || len = 0 || base.length < src + len then none
    else some (List.zipWith (· + ·) ((base.drop src).take len) ((bs.drop 9).take len), bs.drop (9 + len))
  | some 3 =>
    if bs.length < 5 + src || src = 0 then none else some ((bs.drop 5).take src, bs.drop (5 + src))
  | _ => none

/-- The target a stream builds, of at most `room` bytes; none where the stream is malformed. -/
def patchRun (base : List Byte) : Nat → Nat → List Byte → Option (List Byte)
  | 0, _, _ => none
  | n + 1, room, bs =>
    if bs = [0] then some []
    else match patchOp base bs with
      | none => none
      | some (out, rest) => if room < out.length then none else (patchRun base n (room - out.length) rest).map (out ++ ·)

/-! ### The update step (R815 to R817) -/

/-- The image of the active slot over its IMAGE_LEN (R807). -/
def State.baseImage (s : State) : List Byte := s.activeImage.take (imgField s.activeImage 0x10 4)

/-- Steps 2 to 7 of the update step: the target, or the result code of the step that fails. A program or erase failure of the
spare slot (step 2) is the flash's, and left free. -/
def State.buildTarget (s : State) : Except Nat (List Byte) :=
  let pkg := s.update.package
  let len := imgField pkg 0x0C 4
  let digest := fun (img : List Byte) (at_ : Nat) => sha256 (imgComponent img at_) == (img.drop (at_ + 16)).take 32
  if pkg.take 8 != ([0x57, 0x5A, 0x55, 0x50, 1, 0, 128, 0] : List Byte) || imgField pkg 8 4 != s.update.packageLen
      || (pkg.drop 0x54).take 44 != List.replicate 44 0 || sha256 s.baseImage != (pkg.drop 0x10).take 32 then .error 0x02
  else match patchRun s.baseImage pkg.length len (pkg.drop 128) with
    | none => .error 0x03
    | some img =>
      if img.length != len then .error 0x03
      else if Config.freeBool s.freeCtr then .error 0x0A
      else if sha256 img != (pkg.drop 0x30).take 32 || !([compSec, compMc, compLantern].all (digest img)) then .error 0x04
      else if img.take 8 != ([0x57, 0x5A, 0x49, 0x4D, 1, 0, 0, 4] : List Byte) || imgField img 0x14 2 != 0x00B0 || imgField img 0x10 4 != len then
        .error 0x08
      else if sha256 ((img.drop 0xB0).take 388) != Config.signingDigest then .error 0x05
      else if !Config.pssVerify ((img.drop 0xB0).take 388) (img.take 0x240) ((img.drop 0x240).take 384) then .error 0x06
      else if imgField img 0x0C 4 < s.sec.rollback then .error 0x07
      else .ok img

/-- The MC records a result with its stamp and posts it (R816, R818). -/
def State.updateResult (s : State) (code : Nat) : State :=
  ((s.setObj Key.updateResult code).setObj Key.updateResultStamp s.time).postEvent 5 (natLe 8 code ++ natLe 8 s.time)

/-- A slot whose contents are void (R816): no image. -/
def voidImage : List Byte := [0]

/-- Put an image into a slot. -/
def Update.setSlot (u : Update) (slot : Nat) (img : List Byte) : Update :=
  if slot = 0 then { u with slotA := img } else { u with slotB := img }

/-- The update step of a boot with VIN present (R815 to R818): an ARMED package is applied to the spare slot and boots on trial; a
TRIAL that no confirmation ended is reverted. What the spare slot and the selector take is charged (R805), the target also where
one of steps 3 to 7 then fails. -/
def State.updateStep (s : State) : State :=
  let spare := 1 - s.update.activeSlot
  if s.update.st = 3 then
    let s1 := s.bump Key.updateApplyAttempts
    let s2 : State := { s1 with freeCtr := s1.freeCtr + 1 }
    match s1.buildTarget with
    | .error code =>
      let s3 := if 4 ≤ code && code ≤ 8 then s2.chargeFlash (imgField s.update.package 0x0C 4) else s2
      (s3.modUpdate (fun u => (u.setSlot spare voidImage).cleared)).updateResult code
    | .ok img =>
      ((s2.modUpdate (fun u => { u.setSlot spare img with activeSlot := spare, st := 4 })).chargeFlash img.length).chargeFlash 64
  else if s.update.st = 4 then ((s.modUpdate (fun u => { u with activeSlot := spare, st := 0 })).chargeFlash 64).updateResult 0x09
  else s

/-- TRIAL_CONFIRM: after 60 s of service the new image clears TRIAL (R818). -/
def execTrialConfirm (s : State) : Host.Outcome State Fault Refusal :=
  if s.update.st ≠ 4 || !s.mcOn || tabGet s.timers tmRun 0 < 60000000000 then .next s
  else .next (((((s.modUpdate (fun u => { u with st := 0 })).chargeFlash 64).updateResult 0x01).bump Key.updatesApplied))

end Sys2Proof.Machine
end

