-- ==== Sys2Proof/Machine/Boot.lean ====
section
/-! DEFINITION. What a reset or a power loss takes, and the boot: the NV image, the profile, the update step, measurement, the key
store, retirements and the fabric's ports (R46, R298, R308, R309, R673, R685, R694, R701, R702, R715, R723, R735, R736, R775, R776,
R798, R815, R857 to R859). -/

namespace Sys2Proof.Machine

/-! ### What is lost -/

/-- Six gated clusters with nothing in them (R736). -/
def gatedClusters : Tab Cluster := (List.range 6).map (fun n => (n, { gated := true }))

/-- A state set after a power loss or reset: its last committed checkpoint, detached (R308, R309). -/
def StateSet.committed (t : StateSet) : StateSet := { t with
  attached := none, inProgress := false, commanded := false, pendingPages := [], pendingSeqs := [], extents := t.committedExtents
  layouts := t.committedLayouts, seqs := t.committedSeqs }

/-- Pages with their metadata records in order (R257). -/
def renumbered : Nat → List Page → List Page
  | _, [] => []
  | n, g :: gs => { g with record := n } :: renumbered (n + 1) gs

/-- The tier unit and flash after a power loss or reset (R294, R308, R309): the flash pages stay as they are, and their streams are
closed. -/
def TierUnit.afterReset (t : TierUnit) : TierUnit := { t with
  pages := renumbered 0 (t.sets.flatMap (·.committedPages)), sets := t.sets.map StateSet.committed, handles := [], tags := []
  leaving := [], stalled := [], openStreams := [], demoting := false, journalReplayed := false }

/-- The MC after a reset: its calendar and NV copies are kept (R692, R773, R786, R796). -/
def Management.afterReset (m : Management) : Management := { m with
  kept := [], staged := [], subs := [], proxied := [], selects := [], inProgress := [], segmentUp := true
  members := [], managerHeard := 0, slewTo := 0, resetScheduled := false }

/-- The security island after a reset: sessions closed, the key store as committed (R688, R692, R695, R701). -/
def Security.afterReset (c : Security) : Security := { c with
  sessions := [], ephemeral := none, attestNonce := [], attestTag := 0xFFFF, attestBusy := false, report := [], debugUnlocked := false
  tenants := c.committedTenants, keys := c.committedKeys, storeDirty := false, fence := none }

/-- Everything outside the Lantern domain, the calendar domain, flash and fuses is lost. -/
def State.loseMain (s : State) : State := { s with
  cores := [], slots := [], clusters := gatedClusters, pitches := [], loans := [], teardownLog := [], queues := []
  tier := s.tier.afterReset, fabric := {}, cams := {}, sec := s.sec.afterReset, mgmt := s.mgmt.afterReset
  errors := { s.errors with bankCounts := [], islandsDown := [] }
  host := { usb4En := s.host.usb4En, vectors := s.host.vectors, hostWrites := s.host.hostWrites }
  power := { s.power with
    entry := none, entryStep := 0, entrySets := false, returning := none, returnStep := 0, heldWake := false, warm := false
    saved := [], capBelow := 0, capAbove := 0, capDiv := [], thermalDiv := [], divRequest := [], returnClusters := [] } }

/-- The Lantern domain and the groundsheet are lost; the keyword model is kept in flash (R737). -/
def State.loseLantern (s : State) : State := { s with listen := { model := s.listen.model } }

/-- The lifetime counters (R797). -/
def lifeKey (key : Nat) : Bool := key / 256 == 0x9000 || key / 256 == 0x9010

/-- Those that the calendar domain's latches count too (R798). -/
def latchedKeys : List Nat := [Key.powerOnSeconds, Key.starts, Key.islandBrownouts, Key.lanternBrownoutsLife]

/-- A power loss returns what the MC commits to its last commit (R298, R669, R798). -/
def State.losePower (s : State) : State :=
  let (b, today, day) := s.tier.committedBalance.getD (s.obj Key.flashDailyBudget, 0, s.tier.lastBudgetDay)
  let s1 : State := { s with
    dict := sortBy (·.1) (s.dict.filter (fun e => !lifeKey e.1 || latchedKeys.contains e.1)
      ++ s.mgmt.committedLife.filter (fun e => !latchedKeys.contains e.1))
    tier := { s.tier with balance := b, lastBudgetDay := day }
    errors := { s.errors with log := s.errors.committedLog, bankLife := s.errors.bankLifeCommitted }
    mgmt := { s.mgmt with laserSeconds := s.mgmt.committedLaser } }
  s1.setObj Key.flashBytesToday today

/-! ### Time (R46, R799) -/

/-- Does the time base run (R45, R737). -/
def State.timeRuns (s : State) : Bool := !(s.power.st == .stowed || s.power.st == .off) && s.power.refclk

/-- The calendar (R799). -/
def State.calendarNow (s : State) : Nat := if s.timeRuns then s.time / 1000000000 else s.calendar

/-- The time base stops: the calendar goes on alone. -/
def State.stopClock (s : State) : State := { s with calendar := s.calendarNow }

/-- The time base loads from the calendar, which has counted on its own for a time that the model leaves free; so is the part of
it with VIN present (R46, R797, R799). -/
def State.startClock (s : State) : State :=
  let (k, s1) := s.fresh
  let (j, s2) := s1.fresh
  let c := s2.calendar + Config.freeNat k
  ({ s2 with calendar := c, time := 1000000000 * c, timers := [] }).bump Key.powerOnSeconds (min (Config.freeNat k) (Config.freeNat j))

/-! ### The boot's parts -/

/-- Objects that a reset keeps: the lifetime counters, and what is kept in flash beside the NV image. -/
def keptKey (key : Nat) : Bool :=
  lifeKey key || key / 256 == 0xA000 || key == Key.flashBytesToday || key == Key.retiredFrames

/-- Load one stored value, where its object permits it (R775). -/
def State.loadRecord (s : State) (r : NvRecord) : State :=
  match objRow r.key with
  | none => s
  | some row =>
    if row.ty = .domain ∨ row.ty = .string then s.setDomain r.key r.value
    else if r.value.length = max 1 (row.ty.width / 8) ∧ s.permits row (leNat r.value) then s.setObj r.key (leNat r.value) else s

/-- The profile in force (R2, R776). -/
def chooseProfile (rs : List NvRecord) (straps : Nat) : Nat :=
  match nvIn rs 4 Key.profileSelect with
  | none => straps
  | some v => if leNat v ≤ 3 then leNat v else straps

/-- The MC loads every object: factory value, common section, the section of the profile in force (R775). -/
def State.loadDictionary (s : State) : State :=
  let s1 := s.nvReset
  let rs := s1.nvRecs
  let profile := chooseProfile rs s1.straps
  let s2 : State := { s1 with profile, dict := s1.dict.filter (fun e => keptKey e.1), domains := [] }
  (rs.filter (·.section_ == profile)).foldl State.loadRecord ((rs.filter (·.section_ == 4)).foldl State.loadRecord s2)

/-- Retirements at a boot: RetireClear's removal of them takes effect (R673). -/
def State.bootRetired (s : State) : State :=
  if !s.tier.retireClearPending then s
  else
    let dies := (s.tier.retired.filter (·.1 == 10)).map (·.2.1)
    ({ s with tier := { s.tier with
      retired := [], retireClearPending := false, retiredDies := s.tier.retiredDies.filter (fun d => !dies.contains d) } }).setObj
        Key.retiredFrames 0

/-- The boot measures what it runs (R685). -/
def State.bootMeasure (s : State) : State :=
  let s1 : State := { s with sec := { s.sec with measure := tabSet [] mRom Config.romDigest } }
  (((s1.measure mSec (imgComponent s1.activeImage compSec)).measure mMc (imgComponent s1.activeImage compMc)).measureLantern).measure
    mNv s1.mgmt.nvImage

/-- Zeroise tenants' keys and records (R694, R721): each is FREE under its next generation, its sets deleted. -/
def State.dropTenants (s : State) (ts : List Nat) : State :=
  let s1 := ((s.tier.sets.filter (fun t => ts.contains t.tenant)).map (·.id)).foldl State.deleteSet s
  s1.modSec (fun c => { c with
    keys := c.keys.filter (fun k => !(decide (64 ≤ k.1) && ts.contains k.2.tenant))
    tenants := c.tenants.map (fun e => if ts.contains e.1 then
      (e.1, { generation := if e.2.removal < 2 then (e.2.generation + 1) % 1024 else e.2.generation }) else e) })

/-- Expiries that are FENCED or due are carried out whole (R715); an expired standing key is replaced (R710). -/
def State.bootExpiries (s : State) : State :=
  let gone := s.sec.keys.filter (fun e => decide (64 ≤ e.1) && (e.2.st == .fenced || s.fenceDue e.2))
  let s1 := s.modSec (fun c => { c with keys := c.keys.filter (fun k => !gone.any (·.1 == k.1)) })
  let s2 := (gone.filter (fun e => e.2.standing && e.2.st == .write)).foldl (fun (t : State) e =>
    t.withKey e.2.tenant standingEpoch true .write) s1
  (distinct (gone.map (fun e => e.2.tenant * 2 ^ 20 + e.2.epoch))).foldl (fun (t : State) e => t.bump (Key.at Key.expiriesDone (e / 2 ^ 20))) s2

/-- The key store at a boot: lost with its seal (R702), tenants dropped where confidential mode ends (R694), removals completed
(R723), expiries run (R715); a changed store is committed. -/
def State.bootKeyStore (s : State) : State :=
  let was := s.sec.confidential
  let now := s.obj Key.confidentialMode == 1
  let s0 := s.modSec (fun c => { c with confidential := now, vendorNonce := Config.freeNat s.freeCtr % 2 ^ 128 })
  let s1 : State := { s0 with freeCtr := s0.freeCtr + 1 }
  if !s1.sec.sealValid then
    let s2 := (s1.tier.sets.map (·.id)).foldl State.deleteSet s1
    ((s2.modSec (fun c => { c with tenants := [], keys := [] })).latchStore).setObj Key.keyStoreLost 1
  else
    let removing := (s1.sec.tenants.filter (fun e => e.2.st == .removing)).map (·.1)
    let all := (s1.sec.tenants.filter (fun e => e.2.st == .active)).map (·.1)
    let s2 := s1.dropTenants removing
    let s3 := if removing.isEmpty then s2 else s2.bump Key.tenantRemovals removing.length
    let s4 := if was && !now then s3.dropTenants all else s3
    let s5 := s4.bootExpiries
    if s5.sec.keys = s.sec.keys && s5.sec.tenants = s.sec.tenants then s5 else s5.latchStore

/-- Credit every budget day that has begun (R299): one budget for each, stopping at three. -/
def State.creditPassed (s : State) : State :=
  let today := s.time / 86400000000000
  if today ≤ s.tier.lastBudgetDay then s
  else
    let b : Int := s.obj Key.flashDailyBudget
    let s1 : State := { s with tier := { s.tier with
      balance := min (3 * b) (s.tier.balance + (today - s.tier.lastBudgetDay : Nat) * b), lastBudgetDay := today } }
    s1.setObj Key.flashBytesToday 0

/-- The balance at a boot: with no valid committed one it restarts as a new module's does (R299). -/
def State.bootBalance (s : State) : State :=
  if s.tier.committedBalance.isSome then s.creditPassed
  else { s with tier := { s.tier with balance := s.obj Key.flashDailyBudget, lastBudgetDay := s.time / 86400000000000 } }

/-- The module's place in its torus, and its enabled ports TRAINING (R28, R29, R502, R557). -/
def State.bootFabric (s : State) : State :=
  let s1 : State := { s with moduleId := if s.obj Key.profileOptics = 1 then s.obj Key.fabricCoord else 0 }
  (List.range 6).foldl (fun (t : State) p => if t.obj (Key.at Key.portEnable p) = 1 then t.trainPort p else t) s1

/-- The power floor after reset (R741). -/
def State.resetFloor (s : State) : Nat :=
  let f := s.obj Key.resetPowerFloor
  if s.obj Key.powerEntryMethod = 1 && f = 3 then 2 else f

/-- Every core asks for the DIV that its request, the cap and the temperature give (R756). -/
def State.applyDivs (s : State) : State :=
  (List.range 48).foldl (fun (t : State) c =>
    if field (t.core c).mode.toNat 10 8 = t.divFor c ∧ (t.core c).newDiv = none then t else t.requestDiv c) s

/-- The boot of everything outside the Lantern domain, with VIN present (R736, R815, R860): ACTIVE, every cluster gated, no pitch
resident, the journal's replay to come (R295). -/
def State.bootMain (s : State) : State :=
  let s1 := (s.loadDictionary.updateStep.bootRetired).bootMeasure.bootKeyStore.bootFabric.bootBalance
  (({ s1 with power := { s1.power with st := .active, booted := true }, timers := tabSet s1.timers tmRun 0 }).setObj Key.powerFloor s1.resetFloor).applyDivs

/-- The Lantern load path: the Lantern program and the keyword model are measured and run, without VIN (R736). -/
def State.bootLantern (s : State) : State :=
  let s1 := s.loadDictionary.measureLantern
  { s1 with power := { s1.power with st := .lantern, booted := true }, timers := tabSet s1.timers tmRun 0 }

/-! ### Resets (R857 to R859) -/

/-- Every island outside the calendar domain is held in reset. -/
def State.holdReset (s : State) : State :=
  let s1 := s.stopClock.loseMain.loseLantern
  { s1 with power := { s1.power with st := .off, booted := false, tripped := false } }

/-- The reset is released, and the straps are sampled (R859): a boot with VIN present, the Lantern load path with VLNT alone. -/
def State.releaseReset (s : State) (straps : Nat) : State :=
  let s1 : State := { s with straps }
  if s.power.vin then s1.startClock.bootMain
  else if s.power.vlnt then s1.startClock.bootLantern
  else s1

/-- RESET_N_ASSERT (R858): the reset wins over an entry in progress (R867). -/
def execResetNAssert (s : State) : Host.Outcome State Fault Refusal :=
  .next ({ s.holdReset with power := { s.holdReset.power with resetN := false } })

/-- RESET_RELEASE: the straps are sampled and the module boots (R858 to R860). -/
def execResetRelease (straps : Fin 4) (s : State) : Host.Outcome State Fault Refusal :=
  if s.power.booted || !s.power.refclk then .next s
  else
    .next (({ s with power := { s.power with resetN := true } } : State).releaseReset straps.val)

/-- REFCLK_LOSS (R857): a reset while VIN or VLNT is present. -/
def execRefclkLoss (s : State) : Host.Outcome State Fault Refusal :=
  if !s.power.refclk then .next s
  else
    let s1 := if s.power.vin || s.power.vlnt then s.holdReset else s.stopClock
    .next { s1 with power := { s1.power with refclk := false } }

/-- REFCLK_RETURN: the reset is released unless RESET_N holds it (R857). -/
def execRefclkReturn (straps : Fin 4) (s : State) : Host.Outcome State Fault Refusal :=
  if s.power.refclk then .next s
  else
    let s1 : State := { s with power := { s.power with refclk := true } }
    .next (if s1.power.booted || !s1.power.resetN then s1 else s1.releaseReset straps.val)

/-- ACTIVATE_RESET: the reset that UpdateActivate 2 asked for, 100 ms before, as by RESET_N (R812). -/
def execActivateReset (straps : Fin 4) (s : State) : Host.Outcome State Fault Refusal :=
  if !s.mgmt.resetScheduled || !s.passed tmActivate 100000000 then .next s else .next (s.holdReset.releaseReset straps.val)

end Sys2Proof.Machine
end

