-- ==== Sys2Proof/Machine/Power.lean ====
section
/-! DEFINITION. Supplies, power states and their entries and returns, the power cap, thermal control, the lifetime commit and the
seconds that the lifetime counters count (chapter 15; R797, R798, R801). -/

namespace Sys2Proof.Machine

/-! ### Lifetime counters (R797, R798) -/

/-- The lifetime counters, the flash balance and the fault log are committed, and the program is charged (R298, R669, R798). -/
def State.commitLife (s : State) : State :=
  let s1 := (s.bump Key.lifetimeCommits).setObj Key.lifetimeLastCommit s.time
  ({ s1 with
    mgmt := { s1.mgmt with committedLife := s1.dict.filter (fun e => lifeKey e.1), committedLaser := s1.mgmt.laserSeconds }
    tier := { s1.tier with committedBalance := some (s1.tier.balance, s1.obj Key.flashBytesToday, s1.tier.lastBudgetDay) }
    errors := { s1.errors with
      committedLog := s1.errors.log, logDirty := false, bankLifeCommitted := s1.errors.bankLife } }).chargeFlash 65536

/-- LIFETIME_COMMIT: at a window of 600 s of fabric time, while the MC runs. -/
def execLifetimeCommit (s : State) : Host.Outcome State Fault Refusal :=
  .next (if (s.power.st = .active ∨ s.power.st = .doze) ∧ !s.errors.islandsDown.contains 59 ∧ s.windowBegun tmLifetime 600000000000 then
    (s.mark tmLifetime).commitLife else s)

/-- Is a port's transmitter on: its port is neither parked nor disabled (R502, R557). -/
def PortState.lit (p : PortState) : Bool := p == .training || p == .up || p == .down || p == .miswired

/-- A second of fabric time passes: seconds with VIN present, in LANTERN, and with each transmitter on (R797). -/
def State.countSecond (s : State) : State :=
  let s1 := if s.power.vin then s.bump Key.powerOnSeconds else s
  let s2 := if s.power.st = .lantern then s1.bump Key.lanternSeconds else s1
  ((List.range 6).filter (fun p => (s.port p).st.lit)).foldl (fun (t : State) p =>
    let n := tabGet t.mgmt.laserSeconds p 0 + 1
    ({ t with mgmt := { t.mgmt with laserSeconds := tabSet t.mgmt.laserSeconds p n } }).setObj (Key.laserOnHours + p) (n / 3600)) s2

/-! ### Waking (R744, R749) -/

/-- A return from STOWED: through the Lantern load path, and with VIN on to a cold return (R736, R751). -/
def State.leaveStowed (s : State) : State :=
  if s.power.vin || s.power.vlnt then s.startClock.bootLantern.beginReturn else s

/-! ### The floor and requests (R741) -/

/-- An entry begins (R743 step 1); it ends a return in progress. -/
def State.startEntry (s : State) (dest : PowerState) : State :=
  s.modPower (fun p => { p with
    entry := some dest, entryStep := 1, entrySets := false, returning := none, returnStep := 0, returnClusters := [] })

/-- PowerStateRequest (R741): a floor, or an entry at once; no second entry starts during one (R744). -/
def State.doPowerState (s : State) (_ : Caller) (v : List Byte) : State × Nat :=
  let k := leNat v
  if k = 4 || k = 5 then
    if s.power.entry.isSome then (s, stRefused) else (s.startEntry (if k = 4 then .stowed else .off), stOk)
  else if k < 1 || 5 < k || (k == 3 && s.obj Key.powerEntryMethod == 1) then (s, stRefused)
  else
    let s1 := s.setObj Key.powerFloor k
    (if k = 1 && s.power.st == .doze then s1.beginReturn else s1, stOk)

/-- POWER_FLOOR_SET: PowerStateRequest 1 to 3. -/
def execPowerFloorSet (r : Req) (v : List Byte) (s : State) : Host.Outcome State Fault Refusal :=
  .next (s.runCmd r Key.powerStateRequest rkOperator v State.doPowerState)

/-- POWER_REQUEST_STOWED. -/
def execPowerRequestStowed (r : Req) (s : State) : Host.Outcome State Fault Refusal :=
  .next (s.runCmd r Key.powerStateRequest rkOperator [4] State.doPowerState)

/-- POWER_REQUEST_OFF. -/
def execPowerRequestOff (r : Req) (s : State) : Host.Outcome State Fault Refusal :=
  .next (s.runCmd r Key.powerStateRequest rkOperator [5] State.doPowerState)

/-! ### Gated clusters and DOZE (R738, R742) -/

/-- Has a core parked for the gating of its cluster: its PARKED bit is set, or none of its slots is assigned. -/
def State.coreParked (s : State) (c : Nat) : Bool :=
  bit (s.core c).mode.toNat 15 || (List.range 4).all (fun k => (s.slot (4 * c + k)).st == .idle)

/-- Is a request to a cluster's SRAM outstanding (R738): one to a tier A page at home in it, or a packet of a transfer from or to it. -/
def State.sramAsked (s : State) (n : Nat) : Bool :=
  s.tier.tags.any (fun e => (s.pageAt e.pitch e.addr).any (fun g => g.tier == .a && g.home == n))
    || s.cores.any (fun c => c.2.jobs.any (fun j => j.move.any (fun m =>
      !j.flight.isEmpty && ((m.srcSpace == 2 && m.srcCluster == n) || (m.dstSpace == 2 && m.dstCluster == n)))))

/-- CLUSTER_GATE: every core that the profile enables is parked, and no request to the cluster's SRAM is outstanding (R738). -/
def execClusterGate (cluster : Fin 6) (s : State) : Host.Outcome State Fault Refusal :=
  let n := cluster.val
  if s.power.st ≠ .active then .next s
  else if (List.range 8).all (fun k => !coreEnabled s.profile (8 * n + k) || s.coreParked (8 * n + k)) && !s.sramAsked n then
    .next (s.modCluster n (fun c => { c with gated := true }))
  else .next s

/-- The registers that an entry saves (R747), whose encoding is hardware's own. -/
def State.saveRegisters (s : State) : State :=
  let (k, s1) := s.fresh
  s1.modPower (fun p => { p with saved := fitBytes 65536 (Config.freeBytes k 65536) })

/-- The conditions of DOZE (R742). -/
def State.dozeReady (s : State) : Bool :=
  let consent := if s.obj Key.powerEntryMethod = 1 then s.obj Key.dozeConsent == 1 else decide (2 ≤ s.obj Key.powerFloor)
  s.power.st == .active && s.power.entry.isNone && s.power.returning.isNone && s.listen.stageWaking.isNone && consent
    && (List.range 6).all (fun n => (s.cluster n).gated)
    && s.tier.pages.all (fun g => g.migration.isNone) && s.tier.sets.all (fun t => !t.inProgress)
    && !s.sec.keys.any (fun e => e.2.st == .rekeyOld && !e.2.due) && s.sec.fence.isNone && s.dueFences.isEmpty
    && s.tier.tags.isEmpty && s.fabric.arrivals.isEmpty

/-- DOZE_ENTRY: the memory path's registers are saved and it goes off; open camera frames close (R639, R742). -/
def execDozeEntry (s : State) : Host.Outcome State Fault Refusal :=
  if !s.dozeReady then .next s
  else .next ((s.saveRegisters.closeCameras.bump Key.selfRefreshEntries).modPower (fun p => { p with st := .doze }))

/-! ### Entry to LANTERN, STOWED and OFF (R743) -/

/-- LANTERN_ENTRY: the floor is LANTERN, no stage above L1 is awake or waking, every slot is PARKED, STOPPED or IDLE. -/
def execLanternEntry (s : State) : Host.Outcome State Fault Refusal :=
  if (s.power.st = .active ∨ s.power.st = .doze) ∧ s.power.entry = none ∧ s.obj Key.powerFloor = 3 ∧ s.obj Key.wakeStage ≤ 1
      ∧ s.listen.stageWaking = none ∧ s.listen.dropTo = none ∧ s.slots.all (fun e => e.2.dropped) then
    .next (s.startEntry .lantern)
  else .next s

/-- Step 2: the ON_POWER_DOWN checkpoints (R307), first those in progress, then the entry's own. -/
def State.entryCheckpoints (s : State) : State :=
  let mine := s.tier.sets.filter (fun t => bit t.policy 1)
  if mine.any (·.inProgress) then s
  else if s.power.entrySets || mine.isEmpty then s.modPower (fun p => { p with entryStep := 2 })
  else ((mine.map (·.id)).foldl (fun (t : State) i => t.startCheckpoint i false) s).modPower (fun p => { p with entrySets := true })

/-- Step 3: every running pitch is torn down (R743). -/
def State.entryTeardowns (s : State) : State :=
  ((List.range 32).filter (fun p => (s.pitch p).st == .running)).foldl (fun (t : State) p =>
    t.faultPitch p fcRemoved 0 { byCommand := true }) s

/-- Does cluster n keep its SRAM in LANTERN (R737). -/
def State.keepsSram (s : State) (n : Nat) : Bool := n == 0 && s.obj Key.lanternCluster0Retain == 1

/-- Step 4: tier A is demoted to tier B (R288); promotions into it are abandoned. -/
def State.entryDemote (s : State) : State :=
  let down := fun (g : Page) => g.tier == .a && !s.keepsSram g.home
  let cut := fun (g : Page) => g.migration.elim false (fun m => m.dest == .a)
  let n := (s.tier.pages.filter down).length
  let tags := ((s.tier.pages.filter down).filterMap (·.migration)).map (·.tag)
  let s0 := (s.countAborts cut).keepTags (fun e => !tags.contains e.tag)
  let s1 : State := { s0 with tier := { s0.tier with pages := s0.tier.pages.map (fun g =>
    if down g then { g with tier := .b, migration := none } else if cut g then { g with migration := none } else g) } }
  if n = 0 then s1 else s1.bump Key.demotions n

/-- What the cores and clusters keep where their power goes: their registers, peg values and routing are in the save area; their
memories' contents are lost (R737, R747). -/
def State.loseMemories (s : State) : State :=
  let s1 := (List.range 48).foldl (fun (t : State) c =>
    { t.modCore c (fun k => { k with
        scratch := freeMemory t.freeCtr 4194304, acc := freeMemory (t.freeCtr + 1) 524288, spPoison := [], accPoison := [], jobs := [] })
      with freeCtr := t.freeCtr + 2 }) s
  let s2 := (List.range 6).foldl (fun (t : State) n =>
    if t.keepsSram n then t.modCluster n (fun c => { c with gated := true, pulses := [] })
    else { t.modCluster n (fun c => { c with
        gated := true, pulses := [], orphans := [], sram := freeMemory t.freeCtr 16777216, sramPoison := [] })
      with freeCtr := t.freeCtr + 1 }) s1
  { s2 with queues := s2.queues.map (fun e => if s2.keepsSram (s2.queueCluster e.1) then e else (e.1, { e.2 with packets := [] })) }

/-- A trigger or another wake that the entry held (R591, R744). -/
def State.releaseHeld (s : State) : State :=
  let s1 := match s.listen.heldTrigger with
    | none => s
    | some t => (s.modListen (fun l => { l with heldTrigger := none })).cascadeTrigger t
  let wake := s1.power.heldWake || s1.listen.stageWaking.isSome
  let s2 := s1.modPower (fun p => { p with heldWake := false })
  if wake then s2.beginReturn else s2

/-- Step 6: counters and log committed, registers saved, the islands off; LANTERN (R743, R838). -/
def State.entryLantern (s : State) : State :=
  let s1 := (s.commitLife.saveRegisters.closeCameras.bump Key.selfRefreshEntries).loseMemories
  { s1 with
    host := { s1.host with connected := false, cl2 := false, asks := [] }
    power := { s1.power with st := .lantern, warm := s1.power.vin } }

/-- The calendar domain alone goes on: everything else is off and lost (R737, R799). -/
def State.enterStowed (s : State) : State := (s.stopClock.loseMain.loseLantern).modPower (fun p => { p with st := .stowed, tripped := false })

/-- The end of an entry. -/
def State.endEntry (s : State) : State := s.modPower (fun p => { p with entry := none, entryStep := 0, entrySets := false })

/-- POWER_ENTRY_STEP: the step after the last completed one, once what it waits for is there (R743). -/
def execPowerEntryStep (s : State) : Host.Outcome State Fault Refusal :=
  let at_ := fun (n : Nat) (t : State) => t.modPower (fun p => { p with entryStep := n })
  match s.power.entry, s.power.entryStep with
  | none, _ => .next s
  | some _, 1 => .next s.entryCheckpoints
  | some _, 2 => .next (at_ 3 s.entryTeardowns)
  | some _, 3 => .next (if s.pitches.any (fun e => e.2.st == .teardown) then s else at_ 4 s.entryDemote)
  | some _, 4 => .next (at_ 5 ((List.range 6).foldl State.parkPort s))
  | some dest, 5 => .next (if dest = .lantern then s.entryLantern.endEntry.releaseHeld else at_ 6 s.entryLantern)
  | some dest, 6 =>
    .next (if dest = .stowed then
      (if s.power.heldWake then s.enterStowed.endEntry.leaveStowed else s.enterStowed.endEntry)
    else s.enterStowed.modPower (fun p => { p with entry := some dest, entryStep := 7 }))
  | some _, _ => .next (s.endEntry.modPower (fun p => { p with st := .off, heldWake := false }))

/-! ### Returning (R748 to R751) -/

/-- WAKE_SOURCE (R749): held during an entry; in ACTIVE a gated cluster returns; in DOZE and LANTERN the module returns. -/
def execWakeSource (cause : WakeCause) (s : State) : Host.Outcome State Fault Refusal :=
  let lantern := s.power.st == .lantern
  match cause with
  | .sramRequest n => .next (if s.power.st = .active then s.callCluster n.val
      else if lantern then s else (s.callCluster n.val).beginReturn)
  | .trigger => .next (if s.listen.stageWaking.isSome || s.listen.heldTrigger.isSome then s.beginReturn else s)
  | .expiryFenceDue => .next (if lantern || s.dueFences.isEmpty then s else s.beginReturn)
  | .supply => .next (if lantern && !s.power.warm then s.beginReturn else s)
  | .parkedSlotPulse => .next (if lantern then s else s.beginReturn)
  | .fabricPacket => .next (if lantern then s else s.beginReturn)
  | .hostDoorbell => .next (if lantern then s else s.beginReturn)

/-- The lines of the save area in the groundsheet (R575, R748). -/
def savePoisoned (l : Listening) : Bool := l.groundPoison.any (fun e => decide (26112 ≤ e.1) && decide (e.1 < 27136))

/-- Step 4: the save area is restored and checked; where that fails, or the return is cold, everything outside the Lantern domain
boots (R748, R751). -/
def State.returnChecked (s : State) : State :=
  let failed := s.power.warm && (s.power.saved.isEmpty || savePoisoned s.listen)
  if s.power.warm && !failed then s.modPower (fun p => { p with returnStep := 4 })
  else
    let t := (s.loseMain.bootMain).modListen (fun l => { l with wakeOut := false })
    let t1 := t.bump Key.coldReturns
    if failed then t1.bump Key.saveAreaFaults else t1

/-- Step 5: DOZE. Day-key rolls and expiries that fell due in LANTERN are carried out, and parked ports train (R557, R746). -/
def State.returnDoze (s : State) : State :=
  let s1 := (List.range 64).foldl State.rollKey (s.modPower (fun p => { p with st := .doze, returnStep := 5, saved := [] }))
  let s2 := (s1.modSec (fun c => { c with fence := none })).bootExpiries
  let s3 := if s2.sec.keys = s.sec.keys then s2 else s2.latchStore
  let s4 := (List.range 6).foldl (fun (t : State) p =>
    if t.obj (Key.at Key.portEnable p) = 1 && (t.port p).st == .parked then t.trainPort p else t) s3
  (s4.modErrors (fun e => { e with islandsDown := [] })).modListen (fun l => { l with wakeOut := false })

/-- The lowest cluster that a return still brings up. -/
def State.nextReturning (s : State) : Option Nat := (sortBy id s.power.returnClusters).head?

/-- Steps 7 and 8: one cluster is ACTIVE (R750). -/
def State.returnCluster (s : State) (n : Nat) : State :=
  (s.modCluster n (fun c => { c with gated := false })).modPower (fun p => { p with
    returnClusters := p.returnClusters.filter (· != n)
    returnStep := 7 })

/-- Step 6: ACTIVE (R750). -/
def State.returnActive (s : State) : State :=
  let s1 := s.modPower (fun p => { p with st := .active, returnStep := 6, saved := [], warm := false })
  ({ s1 with host := { s1.host with cl2 := false } }).creditPassed

/-- The delay of the step after one, counted from that step (R750). -/
def returnDelay (step : Nat) : Nat :=
  match step with
  | 1 => 120000
  | 2 => 80000
  | 3 => 40000
  | 4 => 20000
  | 5 => 15000
  | 6 => 25000
  | _ => 10000

/-- The next step of the return table (R750). -/
def State.stepReturn (s : State) : Host.Outcome State Fault Refusal :=
  match s.power.returning, s.power.returnStep with
  | none, _ => .next s
  | some _, 1 => .next (if s.power.vin then s.modPower (fun p => { p with returnStep := 2 }) else s)
  | some _, 2 => .next (s.modPower (fun p => { p with returnStep := 3 }))
  | some _, 3 => .next s.returnChecked
  | some _, 4 => .next s.returnDoze
  | some _, 5 =>
    .next s.returnActive
  | some _, _ =>
    match s.nextReturning with
    | none => .next (s.modPower (fun p => { p with returning := none, returnStep := 0 }))
    | some n => .next (s.returnCluster n)

/-- POWER_RETURN_STEP: the next step of the return table, once its delay has elapsed (R750). -/
def execPowerReturnStep (s : State) : Host.Outcome State Fault Refusal :=
  if s.passed tmReturn (returnDelay s.power.returnStep) then (s.mark tmReturn).stepReturn else .next s

/-- WAKE_AT_ALARM: the calendar reaches WakeAt in LANTERN or STOWED (R749). -/
def execWakeAtAlarm (s : State) : Host.Outcome State Fault Refusal :=
  let at_ := s.obj Key.wakeAt
  if at_ = 0 then .next s
  else match s.power.st with
    | .lantern => .next (if s.calendarNow = at_ then s.beginReturn else s)
    | .stowed => .next (if s.calendar < at_ && (s.power.vin || s.power.vlnt) && s.power.entry.isNone
        then ({ s with calendar := at_ }).leaveStowed else s)
    | _ => .next (if s.power.entry.isSome && decide (s.calendarNow = at_) then s.beginReturn else s)

/-! ### The power cap (R754 to R758) -/

/-- Does a core run: enabled, in service, its cluster and itself not gated. -/
def State.coreRuns (s : State) (c : Nat) : Bool :=
  coreEnabled s.profile c && s.power.st == .active && !(s.cluster (c / 8)).gated && !bit (s.core c).mode.toNat 15
    && !s.errors.islandsDown.contains c

/-- The core rail of a DIV, in millivolts (R754). -/
def railMv (div : Nat) : Nat :=
  match div with
  | 3 => 850
  | 4 => 750
  | 5 => 700
  | 6 => 650
  | _ => 620

/-- The core rail of a cluster in millivolts, set by the lowest DIV among its running cores; none where no core runs (R754). -/
def State.coreRail (s : State) (n : Nat) : Option Nat :=
  let divs := (((List.range 8).map (8 * n + ·)).filter s.coreRuns).map (fun c => field (s.core c).mode.toNat 10 8)
  (sortBy id divs).head?.map railMv

/-- Change the cap DIV of some cores. -/
def State.capDivs (s : State) (cs : List Nat) (f : Nat → Nat) : State :=
  (s.modPower (fun p => { p with capDiv := cs.foldl (fun t c => tabSet t c (f (tabGet t c 3))) p.capDiv })).applyDivs

/-- A window above the cap: every running core's cap DIV rises by 1, to 7 at most; the 100th in a row with all of them at 7 is posted
(R758). -/
def State.windowAbove (s : State) (averageMw : Nat) : State :=
  let running := (List.range 48).filter s.coreRuns
  let slow := running.all (fun c => field (s.core c).mode.toNat 10 8 == 7)
  let above := if slow then s.power.capAbove + 1 else 0
  let s2 := (s.modPower (fun p => { p with capBelow := 0, capAbove := if above = 100 then 0 else above })).capDivs running
    (fun d => min 7 (d + 1))
  if above = 100 then (s2.bump Key.capEvents).postEvent 4 (natLe 4 averageMw) else s2

/-- A window below 90 % of the cap: the 10th in a row lowers every cap DIV by 1, to 3 at least (R758). -/
def State.windowBelow (s : State) : State :=
  let below := s.power.capBelow + 1
  let s2 := s.modPower (fun p => { p with capAbove := 0, capBelow := if below = 10 then 0 else below })
  if below = 10 then s2.capDivs (s2.power.capDiv.map (·.1)) (fun d => max 3 (d - 1)) else s2

/-- POWER_CAP_WINDOW: the average of a 1 ms window (R758). -/
def execPowerCapWindow (averageMw : Nat) (s : State) : Host.Outcome State Fault Refusal :=
  let cap := s.obj Key.powerCapMw
  let s1 := (s.setObj Key.inputPowerMw averageMw).mark tmCap
  if !s.windowBegun tmCap 1000000 then .next s
  else if cap < averageMw then .next (s1.windowAbove averageMw)
  else if 10 * averageMw < 9 * cap then .next s1.windowBelow
  else .next (s1.modPower (fun p => { p with capAbove := 0, capBelow := 0 }))

/-! ### Temperature (R761, R762) -/

/-- Reading of sensor k. -/
def reading (temps : List Int) (k : Nat) : Int := temps.getD k 0

/-- A cluster's own reading and the hottest other. -/
def sensorPair (temps : List Int) (n : Nat) : Int × Int :=
  let others := (List.range 10).filter (· != n)
  (reading temps n, others.foldl (fun m k => max m (reading temps k)) (reading temps (if n = 0 then 1 else 0)))

/-- The thermal DIV of a cluster after an interval, `cool` where it ends 10 ms during which no reading kept it from falling (R761). -/
def thermalNext (temps : List Int) (throttle : Int) (cool : Bool) (n d : Nat) : Nat :=
  let (own, other) := sensorPair temps n
  if throttle ≤ own || throttle ≤ other then min 7 (d + 1) else if cool then max 3 (d - 1) else d

/-- Does a reading of a cluster's sensors keep its thermal DIV from falling (R761). -/
def tooWarm (temps : List Int) (throttle : Int) (n : Nat) : Bool :=
  let (own, other) := sensorPair temps n
  !(decide (own < throttle - 5000) && decide (other < throttle - 5000))

/-- The readings of an interval take effect: they stand in their objects, every cluster's thermal DIV follows, and an excursion that
begins is counted (R761). -/
def State.takeReadings (s : State) (temps : List Int) (ten : Bool) : State :=
  let throttle : Int := 1000 * s.obj Key.throttleC
  let was := s.power.thermalDiv
  let warm := distinct (s.power.warmTen ++ (List.range 6).filter (tooWarm temps throttle))
  let divs := (List.range 6).foldl (fun t n =>
    tabSet t n (thermalNext temps throttle (ten && !warm.contains n) n (tabGet was n 3))) was
  let cool := (List.range 10).all (fun k => decide (reading temps k < 95000))
  let starts := was.all (fun e => e.2 ≤ 3) && divs.any (fun e => decide (3 < e.2))
  let s1 := (List.range 10).foldl (fun (t : State) k =>
    t.setObj (Key.junctionTemp + k) ((reading temps k) % 4294967296).toNat) s
  let s2 := (s1.modPower (fun p => { p with thermalDiv := divs, warmTen := if ten then [] else warm, tripped := p.tripped && !cool })).applyDivs
  if starts then (s2.bump Key.thermalThrottles).bump Key.thermalExcursions else s2

/-- THERMAL_INTERVAL: a 1 ms interval has ended, with its readings in m°C, and with it perhaps one of 10 ms (R761). After a trip the wake is
permitted once every sensor reads below 95 °C (R762). -/
def execThermalInterval (temps : List Int) (s : State) : Host.Outcome State Fault Refusal :=
  if s.power.st = .stowed ∨ s.power.st = .off ∨ !s.windowBegun tmThermal 1000000 then .next s
  else
    let ended := s.windowBegun tmThermalTen 10000000
    let s1 := (s.mark tmThermal).takeReadings temps ended
    .next (if ended then s1.mark tmThermalTen else s1)

/-- Every island outside the Lantern domain browns out, and the module stays in LANTERN, tripped (R762); its ports are parked (R14). -/
def State.trip (s : State) (sensor : Nat) : State :=
  let s0 := s.setObj (Key.junctionTemp + sensor) (max 125000 (s.obj (Key.junctionTemp + sensor)))
  let s1 := ((List.range 62).filter (fun k => k != 57 && k != 58 && !s.errors.islandsDown.contains k)).foldl
    (fun (t : State) k => t.islandDown k ocBrownout) s0
  let s2 := (List.range 6).foldl State.parkPort s1
  ((s2.bump Key.thermalTrips).bump Key.thermalTripsLife).endEntry.modPower (fun p => { p with
    st := .lantern, tripped := true, warm := false, returning := none, returnStep := 0, returnClusters := [], heldWake := false })

/-- THERMAL_TRIP: the main supplies of every island outside the Lantern domain are removed; each browns out, and the module stays
in LANTERN (R762). -/
def execThermalTrip (sensor : Fin 10) (s : State) : Host.Outcome State Fault Refusal :=
  if s.power.st = .active ∨ s.power.st = .doze then .next (s.trip sensor.val) else .next s

/-! ### Supplies (R732 to R736, R801) -/

/-- The calendar domain has lost its supply: the calendar restarts at the last commit, the key store is lost, and the latched
counters lose their increments since that commit (R702, R798, R801). -/
def State.loseCalendar (s : State) : State :=
  { s with
    calendar := ceilDiv (s.obj Key.lifetimeLastCommit) 1000000000
    dict := s.dict.filter (fun e => !latchedKeys.contains e.1) ++ s.mgmt.committedLife.filter (fun e => latchedKeys.contains e.1)
    mgmt := { s.mgmt with calendarValid := false }
    sec := { s.sec with sealValid := false } }

/-- With neither VIN nor VLNT the calendar domain draws from VCAL; without that, nothing is kept but flash and fuses (R733, R734). -/
def State.onCalendar (s : State) : State :=
  if s.power.vin || s.power.vlnt || s.power.vcal then s
  else (s.stopClock.loseMain.loseLantern.loseCalendar).modPower (fun p => { p with st := .off, booted := false })

/-- VIN_APPLY: from STOWED or OFF a reset, whose release boots the module; in LANTERN a wake (R736, R749). -/
def execVinApply (s : State) : Host.Outcome State Fault Refusal :=
  if s.power.vin then .next s
  else
    let s1 := s.modPower (fun p => { p with vin := true })
    match s.power.st with
    | .lantern => .next s1.beginReturn
    | _ => .next ((s1.bump Key.starts).modPower (fun p => { p with st := .off, booted := false }))

/-- VIN_REMOVE: a power loss; the module goes on in LANTERN with VLNT, else in STOWED (R734, R735). -/
def execVinRemove (s : State) : Host.Outcome State Fault Refusal :=
  if !s.power.vin then .next s
  else
    let s1 := s.modPower (fun p => { p with vin := false })
    match s.power.st with
    | .off => .next s1.losePower.onCalendar
    | .stowed => .next s1.losePower.onCalendar
    | _ =>
      let s2 := if s.power.vlnt then s1.losePower.loseMain.modPower (fun p => { p with st := .lantern })
        else s1.losePower.enterStowed
      .next s2.onCalendar

/-- VLNT_APPLY: without VIN the Lantern load path; in STOWED with VIN a wake (R736, R749). -/
def execVlntApply (straps : Fin 4) (s : State) : Host.Outcome State Fault Refusal :=
  if s.power.vlnt then .next s
  else
    let s1 := s.modPower (fun p => { p with vlnt := true })
    if !s.power.resetN || !s.power.refclk then .next s1
    else match s.power.st with
      | .stowed => .next s1.leaveStowed
      | .off => .next (if s.power.vin then s1 else s1.releaseReset straps.val)
      | _ => .next s1

/-- VLNT_REMOVE: with VIN the rails change source; without it the module falls to STOWED (R733, R734). -/
def execVlntRemove (s : State) : Host.Outcome State Fault Refusal :=
  if !s.power.vlnt then .next s
  else
    let s1 := s.modPower (fun p => { p with vlnt := false })
    .next (if s.power.vin then s1
      else (if s.power.st = .lantern then s1.enterStowed else s1).onCalendar)

/-- VCAL_LOSS (R801). -/
def execVcalLoss (s : State) : Host.Outcome State Fault Refusal :=
  if !s.power.vcal then .next s else .next (s.modPower (fun p => { p with vcal := false })).onCalendar

end Sys2Proof.Machine
end

