-- ==== Sys2Proof/Machine/Reads.lean ====
section
/-! DEFINITION. Reads of the object dictionary: which objects exist, who may read them, and the value in each layer (R765 to R775,
R784, R872, and the object tables of every chapter). -/

namespace Sys2Proof.Machine

/-! ### Objects and their rows (R765) -/

/-- Rows of an index. -/
def rowsOf (index : Nat) : List ObjRow :=
  objectTable.filter (fun r => decide (r.key / 256 ≤ index) && decide (index < r.key / 256 + r.copies))

/-- Highest subindex of an index that holds several values; none for one that holds one value or none. -/
def topSub (index : Nat) : Option Nat :=
  match rowsOf index with
  | [] => none
  | rs => if rs.any (fun r => r.key % 256 == 0) then none else some (rs.foldl (fun m r => max m (r.key % 256 + r.subs - 1)) 0)

/-- The row that stands for subindex 0 of such an index. -/
def countRow (index top : Nat) : ObjRow :=
  { key := 256 * index, copies := 1, subs := 1, name := "", ty := .u8, acc := .ro, dflt := top, lo := 0, hi := 255, mult := 1, also := [],
    size := 0 }

/-- The row of an index and subindex. -/
def rowAt (index sub : Nat) : Option ObjRow :=
  match (if sub = 0 then topSub index else none) with
  | some top => some (countRow index top)
  | none => objRow (256 * index + sub)

/-- Instance of a key within its row: which of the row's indices. -/
def instanceOf (row : ObjRow) (key : Nat) : Nat := (key - row.key) / 256

/-! ### Selections (R773) -/

/-- A requester's value of a Select object. -/
def State.selected (s : State) (c : Caller) (key : Nat) : Nat :=
  ((s.mgmt.selects.find? (fun x => x.session == c.session && (c.session != 0 || x.path == c.path) && x.key == key)).map (·.value)).getD
    (factoryValue s.mb s.profile key)

/-- Set it. -/
def State.select (s : State) (c : Caller) (key v : Nat) : State :=
  let other := fun (x : Select) => !(x.session == c.session && (c.session != 0 || x.path == c.path) && x.key == key)
  { s with mgmt := { s.mgmt with
    selects := s.mgmt.selects.filter other ++ [{ session := c.session, path := c.path, key, value := v }] } }

/-! ### Selected instances -/

/-- The extent that a requester selects (R311). -/
def State.extentSelected (s : State) (c : Caller) : Option (Nat × Extent) :=
  let w := s.selected c Key.extentSelect
  let p := field w 12 8
  ((s.pitch p).extents.find? (·.number == field w 5 0)).map (fun x => (p, x))

/-- The state set that a requester selects. -/
def State.setSelected (s : State) (c : Caller) : Option StateSet :=
  s.tier.sets.find? (·.id == s.selected c Key.stateSetSelect)

/-- The KV sequence that a requester selects (R378), with the layers of its layout. -/
def State.seqSelected (s : State) (c : Caller) : Option (Nat × KvSeq × Nat) :=
  let w := s.selected c Key.kvSeqSelect
  let p := field w 4 0
  let r := s.pitch p
  match r.seqs.find? (fun q => q.layout == field w 10 8 && q.number == field w 31 16) with
  | none => none
  | some q => some (p, q, ((r.layouts.find? (·.number == q.layout)).map KvLayout.layers).getD 0)

/-- The state handle that a requester selects (R413). -/
def State.handleSelected (s : State) (c : Caller) : Handle := tabGet s.tier.handles (s.selected c Key.stateHandleSelect) {}

/-- The fault log, the entry with the newest LAST_STAMP first (R682). -/
def State.logByAge (s : State) : List FaultEntry :=
  sortBy (fun e => (2 ^ 64 - 1 - e.last) * 2 ^ 24 + (2 ^ 24 - 1 - e.seq)) s.errors.log

/-- DETAIL and STREAM_PTR of a teardown record read as 0 (R491). -/
def maskTeardown (record : List Byte) : List Byte :=
  record.take 14 ++ [0, 0, 0] ++ ((record.drop 17).take 1) ++ List.replicate 6 0 ++ record.drop 24

/-- Tenant of a teardown record (R490). -/
def recordTenant (record : List Byte) : Nat := tenantOfTag (field (leNat record) 63 48)

/-- The teardown record that a requester selects, masked as R491 says. -/
def State.teardownSelected (s : State) (c : Caller) : List Byte :=
  let record := s.teardownLog.getD (s.selected c Key.teardownLogSelect) (List.replicate 32 0)
  if s.sec.confidential && c.role != .tenant (recordTenant record) then maskTeardown record else record

/-! ### Values of objects that report state -/

/-- Two's complement of 32 bits. -/
def i32 (v : Int) : Nat := (v % 4294967296).toNat

/-- The code of a pitch's state (R456). -/
def PitchState.code (p : PitchState) : Nat :=
  match p with
  | .free => 0
  | .created => 1
  | .running => 2
  | .teardown => 3
  | .tornDown => 4
  | .complete => 5

/-- The code of a handle's state (R413). -/
def HandleState.code (h : HandleState) : Nat :=
  match h with
  | .free => 0
  | .bound => 1
  | .swapping => 2
  | .swapped => 3

/-- Clusters that the profile enables (R777). -/
def State.activeClusters (s : State) : List Nat := (List.range 6).filter (fun n => coreEnabled s.profile (8 * n))

/-- State memory (R311) and the LPDDR4X and flash objects (R302, R303). -/
def State.memoryNow (s : State) (c : Caller) (k i : Nat) : Option Nat :=
  if k = Key.lpddrRawBytes then some (if s.mb then 68719476736 else 137438953472)
  else if k = Key.systemRegionBytes then some (4096 * s.firstFrame)
  else if k = Key.flashBudgetBalanceMB then some (i32 (s.tier.balance / 1000000))
  else if k = Key.flashOpenStreams then some s.tier.openStreams.length
  else if k = Key.mappedBytes then some (s.mappedBytes i)
  else if k = Key.tierABytes then some (s.tierBytes i .a)
  else if k = Key.tierBBytes then some (s.tierBytes i .b)
  else if k = Key.tierCBytes then some (s.tierBytes i .c)
  else if k = Key.tierACapacityBytes then some (s.activeClusters.foldl (fun n j => n + s.tierABytes j) 0)
  else if k = Key.tierBCapacityBytes then some s.tierBCapacity
  else if k = Key.tierCCapacityBytes then some s.tierCCapacity
  else if k = Key.tierAFreeBytes then some (s.activeClusters.foldl (fun n j => n + s.tierAFreeIn j) 0)
  else if k = Key.tierBFreeBytes then some s.tierBFree
  else if k = Key.tierCFreeBytes then some s.tierCFree
  else if k = Key.mappedPages then some s.tier.pages.length
  else if k = Key.stateSetCount then some s.tier.sets.length
  else if k = Key.stateSetLastCommit then some ((s.setSelected c).elim 0 (·.lastCommit))
  else if k = Key.stateSetBytes then
    some ((s.setSelected c).elim 0 (fun t => ((s.tier.pages.filter (·.stateSet == t.id)).map Page.size).foldl (· + ·) 0))
  else none

/-- Sequences of the module: of resident pitches, and of state sets without one. -/
def State.allSeqs (s : State) : List KvSeq :=
  s.pitches.flatMap (fun e => e.2.seqs) ++ (s.tier.sets.filter (·.attached.isNone)).flatMap (·.seqs)

/-- KV store, handles and windows (R378, R413, R450). -/
def State.storeNow (s : State) (c : Caller) (k : Nat) : Option Nat :=
  let h := s.handleSelected c
  if k = Key.kvSeqLength then some ((s.seqSelected c).elim 0 (fun q => q.2.1.minLen q.2.2))
  else if k = Key.kvSeqSpans then some ((s.seqSelected c).elim 0 (fun q => (q.2.1.spans.filter (fun sp => !sp.freed)).length))
  else if k = Key.kvSequences then some s.allSeqs.length
  else if k = Key.kvSketchBytes then some (s.allSeqs.foldl (fun n q => n + (q.sketches.map (fun e => e.2.length)).foldl (· + ·) 0) 0)
  else if k = Key.stateHandleStatus then
    some (h.st.code + (if h.st = .free then 0 else h.pitch % 32 * 16) + h.generation.toNat * 65536)
  else if k = Key.stateHandleSteps then some h.steps
  else if k = Key.stateHandlesBound then some (s.tier.handles.filter (fun e => e.2.st != .free)).length
  else if (k = Key.walkerSkippedIndices ∨ k = Key.walkerReachRejects ∨ k = Key.haloBytesLocal ∨ k = Key.haloBytesRemote)
      ∧ s.sec.confidential then some 0
  else none

/-- PegStatus of a peg (R496). -/
def State.pegStatus (s : State) (n peg : Nat) : Nat :=
  let p := s.peg n peg
  p.value.toNat + flag p.abandoned * 2 ^ 16 + flag (s.pegLock n peg) * 2 ^ 17 + flag p.ovf * 2 ^ 18
    + flag (!(s.pegLoans n peg).isEmpty) * 2 ^ 19 + ((s.pegOwner n peg).getD 0) * 2 ^ 24 + min 4 p.holders.length * 2 ^ 29

/-- Pitches, clusters and the fabric (R494, R495, R560 to R563). -/
def State.pitchNow (s : State) (c : Caller) (k i : Nat) : Option Nat :=
  let r := s.pitch i
  let e := tabGet s.fabric.streams (s.selected c Key.encStreamSelect) {}
  if k = Key.pitchState then some r.st.code
  else if k = Key.pitchTenant then some r.tenantTag
  else if k = Key.pitchCoreMask then some (field (leNat r.record) 79 32)
  else if k = Key.pitchCreditShares then some (r.hdr 111 80)
  else if k = Key.pitchesResident then some (s.pitches.filter (fun e => e.2.st != .free)).length
  else if k = Key.slotsFree then some (192 - (s.slots.filter (fun e => e.2.reserved || e.2.assigned)).length)
  else if k = Key.pegStatus then some (s.pegStatus i (s.selected c (Key.at Key.pegSelect i)))
  else if k = Key.moduleId then some s.moduleId
  else if k = Key.collGroupState then some (s.group i).st
  else if k = Key.collNextSeq then some (s.group i).nextSeq
  else if k = Key.collDepth then some (if (s.group i).st = 0 then 0 else s.treeDepth (s.group i))
  else if k = Key.encStreamOwner then some e.owner
  else if k = Key.encClippedRows then some e.clipped
  else if k = Key.encUnderflowedRows then some e.underflowed
  else if k = Key.encReencodedRows then some e.reencoded
  else none

/-- Granules of each class, and free (R648). -/
def State.classGranulesWord (s : State) : Nat :=
  let gs := (List.range s.granuleCount).map s.granuleClass
  let n := fun (k : Option Nat) => (gs.filter (· == k)).length
  n (some 0) + n (some 1) * 2 ^ 8 + n (some 2) * 2 ^ 16 + n none * 2 ^ 24

/-- Listening and error protection (R603, R681, R682). -/
def State.protectionNow (s : State) (c : Caller) (k : Nat) : Option Nat :=
  if k = Key.ringValidFrom then some (s.listen.stampOf s.listen.oldest)
  else if k = Key.ceBankWindowCount then some (tabGet s.errors.bankCounts (512 * s.ceWindowOf s.time + s.selected c Key.ceBankSelect) 0)
  else if k = Key.ceLifeBankCount then some (tabGet s.errors.bankLife (s.selected c Key.ceLifeBankSelect) 0)
  else if k = Key.classGranules then some s.classGranulesWord
  else none

/-- The code of a tenant's state (R730). -/
def TenantState.code (t : TenantState) : Nat :=
  match t with
  | .free => 0
  | .active => 1
  | .removing => 2

/-- Epochs of a tenant's entries in a state. -/
def State.epochsIn (s : State) (t : Nat) (st : KeyState) : List Nat :=
  ((s.keysOf t).filter (fun e => e.2.st == st && !e.2.standing)).map (fun e => e.2.epoch)

/-- The smallest of some numbers; of none, a free value (R730 states no value). -/
def State.leastOr (s : State) (xs : List Nat) : Nat := ((sortBy id xs).head?).getD (Config.freeNat s.freeCtr % 2 ^ 20)

/-- Security and tenants (R730). -/
def State.securityNow (s : State) (c : Caller) (k i : Nat) : Option Nat :=
  let x := s.tenant i
  if k = Key.confidentialMode then some (flag s.sec.confidential)
  else if k = Key.debugState then some (flag (!s.sec.debugUnlocked) + 2 * flag Config.debugFused + 4 * flag s.sec.debugUnlocked)
  else if k = Key.rollbackCounter then some s.sec.rollback
  else if k = Key.keyEntriesFree then some s.freeKeys
  else if k = Key.keyStoreBytes then
    some (Config.keyStoreBytes (s.sec.committedKeys.filter (fun e => e.2.st != .free)).length s.sec.committedTenants.length)
  else if k = Key.keyEntry then some (s.keyEntry (s.selected c Key.keyEntrySelect)).descriptor
  else if k = Key.tenantState then some x.st.code
  else if k = Key.tenantGeneration then some x.generation
  else if k = Key.retentionDays then some x.retentionDays
  else if k = Key.rollOffsetS then some x.rollOffset
  else if k = Key.writeEpoch then some (s.leastOr (s.epochsIn i .write))
  else if k = Key.oldestEpoch then some (s.leastOr (s.epochsIn i .read))
  else if k = Key.keyEntries then some ((s.keysOf i).filter (fun e => e.2.st != .free)).length
  else if k = Key.rekeyPagesLeft then
    some (((s.keysOf i).filter (fun e => e.2.st == .rekeyOld)).foldl (fun n e => n + (s.rekeyPages e.1).length) 0)
  else none

/-- Power (R764). -/
def State.powerNow (s : State) (c : Caller) (k : Nat) : Option Nat :=
  let sel := s.selected c Key.coreDivSelect
  if k = Key.powerState then some (if s.power.st = .doze then 2 else 1)
  else if k = Key.coreDivRequest then some (tabGet s.power.divRequest sel (s.obj Key.coreDivDefault))
  else if k = Key.coreDivInEffect then some (field (s.core sel).mode.toNat 10 8)
  else none

/-- Management, update and host link (R802, R820, R843). A slot whose image is void or absent reads as version 0. -/
def State.managementNow (s : State) (k : Nat) : Option Nat :=
  let u := s.update
  if k = Key.dieSerial then some (Config.dieSerial % 2 ^ 64)
  else if k = Key.firmwareVersion then some (imgField s.activeImage 8 4)
  else if k = Key.profileInForce then some s.profile
  else if k = Key.nvImageBytes then some s.mgmt.nvImage.length
  else if k = Key.nvSequence then some (nvSeq s.mgmt.nvImage)
  else if k = Key.calendarNow then some s.calendarNow
  else if k = Key.calendarValid then some (flag s.mgmt.calendarValid)
  else if k = Key.subscriptions then some s.mgmt.subs.length
  else if k = Key.flashEraseMin ∨ k = Key.flashEraseMean ∨ k = Key.flashEraseMax then some (Config.freeNat s.freeCtr % 2 ^ 32)
  else if k = Key.updateState then some u.st
  else if k = Key.updatePiecesTotal then some u.total
  else if k = Key.updatePiecesReceived then some u.pieces.length
  else if k = Key.activeSlot then some u.activeSlot
  else if k = Key.slotVersionA then some (imgField (s.slotImage 0) 8 4)
  else if k = Key.slotVersionB then some (if u.slotB.isEmpty then 0 else imgField u.slotB 8 4)
  else if k = Key.linkRates then some s.host.rates
  else if k = Key.eventsLost then some s.host.evtLost.toNat
  else if k = Key.windowErrors then some s.host.winErrors.toNat
  else none

/-- The live value of a scalar object to a requester: a Select object's own, a reported one, else the stored one. -/
def State.scalarNow (s : State) (c : Caller) (row : ObjRow) (key : Nat) : Nat :=
  let k := row.key
  let i := instanceOf row key
  if isSelect key then s.selected c key
  else (((((((s.memoryNow c k i).or (s.storeNow c k)).or (s.pitchNow c k i)).or (s.protectionNow c k)).or (s.securityNow c k i)).or
    (s.powerNow c k)).or (s.managementNow k)).getD (s.obj key)

/-! ### DOMAIN and STRING objects -/

/-- ASCII bytes of a string. -/
def ascii (t : String) : List Byte := t.toList.map (fun ch => BitVec.ofNat 8 ch.toNat)

/-- Factory bytes of a tuning or listening object (R603, R644). -/
def factoryDomain (k : Nat) : List Byte :=
  let one : List Byte := [0, 0, 0x80, 0x3F]
  let zeros := fun (n : Nat) => List.replicate n (0 : Byte)
  if k = Key.outNorm then zeros 16 ++ one ++ one ++ one ++ one
  else if k = Key.xtalkKernels then (List.range 16).flatMap (fun _ => zeros 16 ++ one ++ zeros 20)
  else if k = Key.shadingGrid then (List.range 5445).flatMap (fun _ => ([0x00, 0x10] : List Byte))
  else if k = Key.noiseStrength then zeros 5
  else if k = Key.noiseLimit then zeros 10
  else if k = Key.colourMatrix then one ++ zeros 16 ++ one ++ zeros 16 ++ one ++ zeros 4
  else if k = Key.toneLut then (List.range 3).flatMap (fun _ => (List.range 257).flatMap (fun j => natLe 2 (min 65535 (256 * j))))
  else if Key.beamCoeffs ≤ k ∧ k < Key.beamCoeffs + 4 then zeros 992
  else if k = Key.outCrop then natLe 4 0 ++ natLe 2 1920 ++ natLe 2 1080
  else []

/-- MacAddress (R789). -/
def macBytes : List Byte := 0x02 :: (sha256 (natLe 8 Config.dieSerial)).take 5

/-- A registered key's digest: SHA-256 of the modulus, then the exponent; zero where there is none (R802). -/
def keyDigest (key : List Byte) : List Byte := if key.isEmpty then List.replicate 32 0 else sha256 (key.drop 4 ++ key.take 4)

/-- SegmentMembers (R802). -/
def State.segmentTable (s : State) : List Byte :=
  (List.range 8).flatMap (fun n => natLe 4 (match s.mgmt.members.find? (·.node == n) with
    | none => n
    | some m => n + m.module % 32768 * 8 + 2 ^ 18 + flag m.up * 2 ^ 19))

/-- RetirementList (R682). -/
def State.retirementBytes (s : State) : List Byte :=
  s.tier.retired.flatMap (fun r => natLe 8 (r.1 % 16 + r.2.1 % 2 ^ 32 * 2 ^ 8 + r.2.2.1 % 2 ^ 24 * 2 ^ 40))

/-- The live bytes of a DOMAIN or STRING object to a requester. -/
def State.domainNow (s : State) (c : Caller) (row : ObjRow) (key : Nat) : List Byte :=
  let k := row.key
  let i := instanceOf row key
  let u := s.update
  if k = Key.extentRecord then (s.extentSelected c).elim (List.replicate 32 0) (fun e => extentRecord e.1 e.2)
  else if k = Key.teardownRecord then s.teardownSelected c
  else if k = Key.orphanEntry then (s.cluster i).orphans.getD (s.selected c (Key.at Key.orphanSelect i)) (List.replicate 32 0)
  else if k = Key.pitchRecord then fitBytes 128 (s.pitch i).record
  else if k = Key.cciResult then s.cams.cciResult
  else if k = Key.faultLogEntry then (s.logByAge[s.selected c Key.faultLogSelect]?).elim (List.replicate 32 0) FaultEntry.bytes
  else if k = Key.retirementList then s.retirementBytes
  else if k = Key.attestReport then fitBytes 768 s.sec.report
  else if k = Key.identityCertificate then Config.identityCertificate
  else if k = Key.tenantKeyDigest then keyDigest (s.tenant i).key
  else if k = Key.vendorName then ascii "Staheum Microsystems"
  else if k = Key.productName then ascii "Waizor W48"
  else if k = Key.orderingCode then ascii (if s.mb then "WZ48-MB" else "WZ48-MA")
  else if k = Key.macAddress then macBytes
  else if k = Key.segmentMembers then (if s.isManager then s.segmentTable else [])
  else if k = Key.roleKeyDigests then keyDigest ((tabFind s.sec.roleKeys 0x80).getD []) ++ keyDigest ((tabFind s.sec.roleKeys 0x81).getD [])
  else if k = Key.vendorNonce then natLe 16 s.sec.vendorNonce
  else if k = Key.nvImage then s.mgmt.nvImage
  else if k = Key.updatePieceBitmap then
    natLe (ceilDiv u.total 8) (u.pieces.foldl (fun n e => n ||| 2 ^ e.1) 0)
  else if k = Key.updateTargetDigest then fitBytes 32 u.target
  else if k = Key.outCrop ∧ (s.domain key).isEmpty then
    natLe 4 0 ++ natLe 2 (s.obj (Key.at Key.ctxWidth (i / 4))) ++ natLe 2 (s.obj (Key.at Key.ctxHeight (i / 4)))
  else if (s.domain key).isEmpty then factoryDomain (k + (key - row.key) % 256)
  else s.domain key

/-! ### Who may read (R770 to R772) -/

/-- Does a pitch belong to a tenant. -/
def State.pitchIs (s : State) (t p : Nat) : Bool := (s.pitch p).st != .free && tenantOfTag (s.pitch p).tenantTag == t

/-- Is an index a per-pitch one of a base. -/
def perPitch (base index : Nat) : Bool := decide (base ≤ index) && decide (index < base + 32)

/-- The per-pitch objects that a TENANT may read (R772). -/
def tenantPitchIndex (index : Nat) : Bool := perPitch 0x3100 index || perPitch 0x4200 index || perPitch 0x5200 index || perPitch 0x8200 index

/-- May a TENANT read an object (R772). A count of the whole module counts as no other tenant's instance. -/
def State.tenantReads (s : State) (c : Caller) (t index sub : Nat) : Bool :=
  let key := 256 * index + sub
  index == 0x8100 + t || (tenantPitchIndex index && s.pitchIs t (index % 256))
    || (index == 0x3500 && (decide (key < Key.stateSetLastCommit) || (s.setSelected c).elim true (fun x => x.tenant == t)))
    || (index == 0x3600 && (decide (key < Key.kvSeqLength) || decide (Key.kvSeqSpans < key)
      || s.pitchIs t (field (s.selected c Key.kvSeqSelect) 4 0)))
    || (index == 0x3700 && (decide (key < Key.stateHandleStatus) || decide (Key.stateHandleSteps < key)
      || (s.handleSelected c).st == .free || s.pitchIs t (s.handleSelected c).pitch))
    || key == Key.teardownLogSelect
    || (key == Key.teardownRecord && recordTenant (s.teardownSelected c) == t)
    || key == Key.attestReport

/-- May a requester read an object. -/
def State.mayRead (s : State) (c : Caller) (index sub : Nat) : Bool :=
  let key := 256 * index + sub
  match c.role with
  | .none => index == 0x1000 || key == Key.attestReport || key == Key.identityCertificate
  | .tenant t => s.tenantReads c t index sub
  | _ => true

/-! ### READ (R767, R775, R784) -/

/-- Bytes of a scalar of a type. -/
def scalarBytes (ty : ObjType) (v : Nat) : List Byte := natLe (max 1 (ty.width / 8)) v

/-- Is a type one of bytes. -/
def ObjType.isBytes (ty : ObjType) : Bool := ty == .domain || ty == .string

/-- May an object be stored in some section: it then has the layers of R775. -/
def hasLayers (key : Nat) : Bool := (List.range 5).any (storable key)

/-- While a pitch ID is FREE its objects read as the defaults of their tables (R872). -/
def State.freePitchObject (s : State) (index : Nat) : Bool :=
  (tenantPitchIndex index || perPitch 0xB100 index) && (s.pitch (index % 256 % 32)).st == .free

/-- The bytes of an object in a layer, or the STATUS that says why not. -/
def State.readLayer (s : State) (c : Caller) (row : ObjRow) (key layer : Nat) : Except Nat (List Byte) :=
  let live := if row.ty.isBytes then
      (if s.freePitchObject (key / 256) then List.replicate row.size 0 else s.domainNow c row key)
    else scalarBytes row.ty (if s.freePitchObject (key / 256) then factoryValue s.mb s.profile key else s.scalarNow c row key)
  if row.name = "" then (if layer = 0 then .ok [BitVec.ofNat 8 row.dflt] else .error stNoValue)
  else match layer with
    | 0 => .ok live
    | 1 => if !hasLayers key then .error stNoValue
        else match nvLayer s.nvRecs s.profile key with
          | none => .error stNoValue
          | some v => .ok v
    | 2 => if !hasLayers key then .error stNoValue
        else .ok (if row.ty.isBytes then factoryDomain row.key else scalarBytes row.ty (factoryValue s.mb s.profile key))
    | _ => .error stRange

/-- The whole value of an object to a requester, or the STATUS that refuses the read (R767, R770 to R772, R785). -/
def State.readValue (s : State) (c : Caller) (index sub layer : Nat) : Except Nat (List Byte) :=
  if !s.mayRead c index sub then .error stRole
  else match rowAt index sub with
    | none => .error stNoObject
    | some row =>
      if row.acc = .wo ∨ row.acc = .cmd then .error stAccess else s.readLayer c row (256 * index + sub) layer

/-- Serve a READ: at most 1,024 B from OFFSET, MORE while more remains (R784). A read spends the free value it may hold. -/
def State.serveRead (s : State) (c : Caller) (index sub layer offset : Nat) : Served :=
  match s.readValue c index sub layer with
  | .error st => served s st
  | .ok v =>
    if v.length < offset then served s stRange
    else (s.fresh.2, stOk, (v.drop offset).take 1024, decide (offset + 1024 < v.length))

/-- UOA_READ. -/
def execUoaRead (r : Req) (index sub param offset : Nat) (s : State) : Host.Outcome State Fault Refusal :=
  .next (s.request r { op := 1, index, sub, param, offset } [] (fun s c => s.serveRead c index sub param offset))

/-! ### ENUMERATE, DISCOVER (R784) -/

/-- Type and access codes (R784). -/
def ObjType.code (t : ObjType) : Nat :=
  match t with
  | .bool => 1
  | .u8 => 2
  | .u16 => 3
  | .u32 => 4
  | .u64 => 5
  | .i32 => 6
  | .f32 => 7
  | .time64 => 8
  | .string => 9
  | .domain => 10
def ObjAccess.code (a : ObjAccess) : Nat :=
  match a with
  | .ro => 1
  | .rw => 2
  | .wo => 3
  | .rws => 4
  | .cmd => 5

/-- Serve an ENUMERATE: 4 B for each subindex from the first asked. -/
def State.serveEnumerate (s : State) (c : Caller) (index first : Nat) : Served :=
  let subs := (List.range 256).filterMap (fun k => if k < first then none else (rowAt index k).map (fun r => (k, r)))
  let reach := match c.role with
    | .none => index == 0x1000
    | .tenant _ => (List.range 256).any (fun k => (rowAt index k).isSome && s.mayRead c index k)
    | _ => true
  if !reach then served s stRole
  else if (rowsOf index).isEmpty then served s stNoObject
  else (s, stOk, subs.flatMap (fun e => [BitVec.ofNat 8 e.1, BitVec.ofNat 8 e.2.ty.code, BitVec.ofNat 8 e.2.acc.code, 0]), false)

/-- UOA_ENUMERATE. -/
def execUoaEnumerate (r : Req) (index first : Nat) (s : State) : Host.Outcome State Fault Refusal :=
  .next (s.request r { op := 5, index, param := first } [] (fun s c => s.serveEnumerate c index first))

/-- Serve a DISCOVER, which any request reaches (R770). -/
def State.serveDiscover (s : State) : Served :=
  (s, stOk, fitBytes 16 (Config.discoverBytes s.moduleId (s.obj Key.plcaNodeId) (s.obj Key.segmentRole) s.profile Config.dieSerial), false)

/-- UOA_DISCOVER. -/
def execUoaDiscover (r : Req) (s : State) : Host.Outcome State Fault Refusal :=
  .next (s.request r { op := 9 } [] (fun s _ => s.serveDiscover))

end Sys2Proof.Machine
end

