-- ==== Sys2Proof/Machine/HostWindow.lean ====
section
/-! DEFINITION. The host link's windows: BAR2, the transfer channels, doorbells, the USB4 link and its states (R821 to R842, R847). -/

namespace Sys2Proof.Machine

def State.modHost (s : State) (f : HostLink → HostLink) : State := { s with host := f s.host }

/-! ### The link (R825, R838, R841, R847) -/

/-- Does the host link island run. -/
def State.linkIslandOn (s : State) : Bool := (s.power.st == .active || s.power.st == .doze) && !s.errors.islandsDown.contains 61

/-- The USB4 link goes: the endpoint is absent until the host reconnects it; its registers stand. -/
def State.dropLink (s : State) : State := s.modHost (fun h => { h with connected := false, cl2 := false, rates := 0 })

/-- USB4_EN_CHANGE: the lanes are on while USB4_EN is high (R847). -/
def execUsb4EnChange (level : Bool) (s : State) : Host.Outcome State Fault Refusal :=
  let s1 := s.modHost (fun h => { h with usb4En := level })
  .next (if level then s1 else s1.dropLink)

/-- USB4_LINK_CONNECT: with USB4_EN high and the island running, the endpoint appears with the registers it holds: its reset values
after a reset or a cold return, else those it had (R841). -/
def execUsb4LinkConnect (hostToModule moduleToHost : Nat) (s : State) : Host.Outcome State Fault Refusal :=
  if s.host.usb4En && s.linkIslandOn && !s.host.connected then
    let rates := hostToModule % 256 * 256 + moduleToHost % 256
    .next ((s.modHost (fun h => { h with connected := true, cl2 := false, rates })).bump Key.usb4Connects)
  else .next s

/-- LINK_CL2_REQUEST: in DOZE, after 100 µs of idle link (R838). -/
def execLinkCl2Request (s : State) : Host.Outcome State Fault Refusal :=
  .next (if s.power.st = .doze ∧ s.host.connected then s.modHost (fun h => { h with cl2 := true }) else s)

/-! ### WindowPitch and HostDmaPitch (R833 to R835) -/

/-- Write WindowPitch: in confidential mode only a TENANT session of the pitch's tenant may, else OPERATOR and above (R834). -/
def State.writeWindowPitch (s : State) (c : Caller) (v : Nat) : State × Nat :=
  let p := if v = 0xFF then s.obj Key.windowPitch else v
  let tag := (s.pitch p).tenantTag
  let may := if s.sec.confidential then c.role == .tenant (tenantOfTag tag) && (s.pitch p).st != .free else decide (2 ≤ c.role.rank)
  if !may then (s, stRole)
  else if v = 0xFF then ((s.setObj Key.windowPitch v).modHost (fun h => { h with winStatus := 0 }), stOk)
  else ((s.setObj Key.windowPitch v).modHost (fun h => { h with winStatus := BitVec.ofNat 32 (2 ^ 31 + v), winTenant := tag }), stOk)

/-- WINDOW_PITCH. -/
def execWindowPitch (r : Req) (v : List Byte) (s : State) : Host.Outcome State Fault Refusal :=
  .next (s.runScalar r Key.windowPitch rkTenant v State.writeWindowPitch)

/-- Write HostDmaPitch of a channel: the checks of R833 hold from this write on. -/
def State.writeHostDmaPitch (channel : Nat) (s : State) (_ : Caller) (v : Nat) : State × Nat :=
  ((s.setObj (Key.hostDmaPitch + channel) v).modHost (fun h => { h with
    dmaTenant := tabSet h.dmaTenant channel (s.pitch v).tenantTag }), stOk)

/-! ### The BAR2 window (R833, R834, R839, R840) -/

/-- Base of the window. -/
def HostLink.winBase (h : HostLink) : Nat := h.winBaseHi.toNat * 2 ^ 32 + h.winBaseLo.toNat

/-- WIN_BASE: bits [47:21] of the base; a base whose window would run past 2^48 is ignored (R833). -/
def execWinBase (high : Bool) (value : Word) (s : State) : Host.Outcome State Fault Refusal :=
  let h := s.host
  let next : HostLink := if high then { h with winBaseHi := value &&& 0xFFFF } else { h with winBaseLo := value &&& 0xFFE00000 }
  .next (if s.host.connected ∧ next.winBase + 2 ^ 34 ≤ 2 ^ 48 then { s with host := next } else s)

/-- What the tier unit's path answers to a host request at once: served now, held at the crossing, or refused. -/
inductive HostGate
  | serve
  | hold
  | refuse
  deriving DecidableEq, Repr

/-- A request of the host meets the power state: refused from step 1 of an entry, held while the memory path returns or the journal
is replayed (R295, R839, R840). -/
def State.hostGate (s : State) : HostGate :=
  if s.power.entry.isSome then .refuse
  else if s.power.st == .active && s.tier.journalReplayed && !s.errors.islandsDown.contains 54 then .serve
  else .hold

/-- The checks of R833 on a pitch's state range: the tenant is that of the enabling write and current, and the bytes lie in its
extents. -/
def State.hostCheck (s : State) (p tag a n : Nat) : Option Nat :=
  if (s.pitch p).tenantTag != tag || !s.tagCurrent tag || (s.pitch p).st == .free then some fcTenant
  else if s.inExtents p a n then none else some fcAddress

/-- A request refused under R833 is counted. -/
def State.windowError (s : State) : State := s.modHost (fun h => { h with winErrors := h.winErrors + 1 })

/-- The pitch onto which the window is enabled. -/
def HostLink.winPitch (h : HostLink) : Option Nat := if bit h.winStatus.toNat 31 then some (field h.winStatus.toNat 4 0) else none

/-- How a read of the window completes. -/
def State.completeRead (s : State) (c : Completion) : State := s.modHost (fun h => { h with lastRead := c })

/-- A refused BAR2 read completes with Unsupported Request. -/
def State.refuseRead (s : State) : State := s.windowError.completeRead .unsupported

/-- A BAR2 read is served, or refused with Unsupported Request (R833). -/
def State.serveWindowRead (s : State) (base offset len : Nat) : State :=
  match s.host.winPitch with
  | none => s.refuseRead
  | some p =>
    match s.hostCheck p s.host.winTenant (base + offset) len with
    | some _ => s.refuseRead
    | none =>
      match (s.passTag .hostLink).readState p (base + offset) len .host with
      | (t, bs, none) => t.completeRead (.data bs)
      | (t, _, some f) => if f.1 = fcAddress then t.refuseRead else t.completeRead .poisoned

/-- A BAR2 write is served, or dropped where it is refused (R833); the flag is false where it waits for tier B space (R301). -/
def State.serveWindowWrite (s : State) (base offset : Nat) (data : List Byte) : State × Bool :=
  match s.host.winPitch with
  | none => (s.windowError, true)
  | some p =>
    match s.hostCheck p s.host.winTenant (base + offset) data.length with
    | some _ => (s.windowError, true)
    | none =>
      match (s.passTag .hostLink).writeState p (base + offset) data .host with
      | (t, none) => (t, true)
      | (_, some (.stall b w)) => (s.stallQuota p (b, w), false)
      | (t, some (.fault f)) => (if f.1 = fcAddress ∨ f.1 = fcQuota then t.windowError else t, true)

/-- A doorbell rings: one pulse on the line that its object names (R828). In DOZE it wakes (R749). -/
def State.ring (s : State) (d : Nat) : State :=
  let w := s.obj (Key.hostDoorbellLine + d)
  let s1 := s.raiseLine (w / 256) (w % 256) 61
  if s1.power.st = .doze then s1.beginReturn else s1

/-- What a request of the host does once the crossing passes it: the flag is false where it waits (R27, R829, R833, R839, R840). -/
def State.serveAsk (s : State) (a : HostAsk) : State × Bool :=
  match a with
  | .bell d => (s.ring d, true)
  | .read base offset len =>
    (match s.hostGate with
    | .hold => (s, false)
    | .refuse => (s.refuseRead, true)
    | .serve => (s.serveWindowRead base offset len, true))
  | .write base offset data =>
    match s.hostGate with
    | .hold => (s, false)
    | .refuse => (s.windowError, true)
    | .serve => s.serveWindowWrite base offset data

/-- A request is held at the crossing, behind those held before it; in DOZE it wakes (R839). -/
def State.holdAsk (s : State) (a : HostAsk) : State :=
  let t := s.modHost (fun h => { h with asks := h.asks ++ [a] })
  if t.power.st = .doze then t.beginReturn else t

/-- A request of the host: served now, or held, in order. -/
def State.ask (s : State) (a : HostAsk) : State :=
  if !s.host.asks.isEmpty then s.holdAsk a
  else match s.serveAsk a with
    | (t, true) => t
    | (t, false) => t.holdAsk a

/-- Requests held at the crossing pass it in order, as far as they can. -/
def State.serveAsks (s : State) : State :=
  s.host.asks.foldl (fun (t : State) a => t.ask a) (s.modHost (fun h => { h with asks := [] }))

/-- Is a range of the window one that a request may name: 1 B to 4 KiB within its 16 GiB. -/
def windowRange (offset len : Nat) : Bool := decide (0 < len) && decide (len ≤ 4096) && decide (offset + len ≤ 2 ^ 34)

/-- BAR2_READ. -/
def execBar2Read (offset len : Nat) (s : State) : Host.Outcome State Fault Refusal :=
  .next (if s.host.connected && windowRange offset len then s.ask (.read s.host.winBase offset len) else s)

/-- BAR2_WRITE. -/
def execBar2Write (offset : Nat) (data : List Byte) (s : State) : Host.Outcome State Fault Refusal :=
  .next (if s.host.connected && windowRange offset data.length then s.ask (.write s.host.winBase offset data) else s)

/-! ### Doorbells (R828, R829) -/

/-- PWR_DOORBELL: a write of PowerStateRequest by an OPERATOR, without an answer. -/
def execPwrDoorbell (value : Word) (s : State) : Host.Outcome State Fault Refusal :=
  .next (if s.host.connected then (s.doPowerState { role := .operator, path := .internal } (natLe 4 value.toNat)).1 else s)

/-- DOORBELL: its pulse is raised once every earlier BAR2 write has committed (R829). -/
def execDoorbell (d : Fin 16) (s : State) : Host.Outcome State Fault Refusal :=
  .next (if s.host.connected then s.ask (.bell d.val) else s)

/-! ### Host-driven transfers (R835, R836) -/

/-- Registers of a channel: 0 LO, 1 HI, 2 ENTRIES, 3 PROD, 4 CONS. -/
def State.dmaReg (s : State) (c k : Nat) : Word := tabGet s.host.dma (8 * c + k) 0
def State.setDmaReg (s : State) (c k : Nat) (v : Word) : State := s.modHost (fun h => { h with dma := tabSet h.dma (8 * c + k) v })

/-- Has a channel a descriptor to run: its ring and its pitch are enabled and the host has posted one. -/
def State.dmaWaits (s : State) (c : Nat) : Bool :=
  s.dmaReg c 2 != 0 && s.dmaReg c 3 != s.dmaReg c 4 && s.obj (Key.hostDmaPitch + c) != 0xFF

/-- DMA_PROD: descriptors posted; work in DOZE counts as a doorbell (R839). -/
def execDmaProd (channel : Fin 4) (value : Word) (s : State) : Host.Outcome State Fault Refusal :=
  if !s.host.connected then .next s
  else
    let t := s.setDmaReg channel.val 3 value
    .next (if t.power.st = .doze && t.dmaWaits channel.val then t.beginReturn else t)

/-- A descriptor of R835. -/
structure DmaDesc where
  host : Nat
  addr : Nat
  toHost : Bool
  post : Bool
  len : Nat
  tag : Nat
  ok : Bool
  deriving DecidableEq, Repr

/-- Read a descriptor: its fields, and whether its length is in range and its other bits are 0. -/
def dmaDesc (bs : List Byte) : DmaDesc :=
  let w := leNat (fitBytes 32 bs)
  let len := field w 159 128
  { host := field w 63 0, addr := field w 111 64, toHost := bit w 112, post := bit w 113, len, tag := field w 191 160
    ok := field w 127 114 == 0 && field w 255 192 == 0 && decide (1 ≤ len) && decide (len ≤ 16777216) }

/-- A descriptor ends with a fault code, 0 for success: DMA_CONS advances; the record is posted with POST or a failure (R836). -/
def State.endDma (s : State) (c : Nat) (d : DmaDesc) (code : Nat) : State :=
  let cons := s.dmaReg c 4
  let entries := (s.dmaReg c 2).toNat
  let s1 := s.setDmaReg c 4 (cons + 1)
  if d.post || code != 0 then
    s1.postEvent 6 (natLe 9 (c + cons.toNat % entries * 2 ^ 16 + d.tag * 2 ^ 32 + code * 2 ^ 64))
  else s1

/-- The transfer of a descriptor whose checks have passed. -/
def State.runDma (s : State) (c p : Nat) (d : DmaDesc) (hostData : List Byte) : State :=
  if d.toHost then
    match (s.passTag .hostLink).readState p d.addr d.len .host with
    | (t, _, some f) => t.endDma c d f.1
    | (t, bs, none) => (t.modHost (fun h => { h with hostWrites := h.hostWrites ++ [(d.host, bs)] })).endDma c d 0
  else
    match (s.passTag .hostLink).writeState p d.addr hostData .host with
    | (_, some (.stall a w)) => s.stallQuota p (a, w)
    | (t, some (.fault f)) => t.endDma c d f.1
    | (t, none) => t.endDma c d 0

/-- DMA_DESCRIPTOR_DONE: the descriptor at the head of a ring, with the host's bytes for host to state. One that an entry refuses ends
with a code that the spec does not name. -/
def execDmaDescriptorDone (channel : Fin 4) (descriptor hostData : List Byte) (s : State) : Host.Outcome State Fault Refusal :=
  let c := channel.val
  let p := s.obj (Key.hostDmaPitch + c)
  let d := dmaDesc descriptor
  if !s.host.connected || !s.dmaWaits c || (d.ok && !d.toHost && hostData.length != d.len) then .next s
  else match s.hostGate with
    | .hold => .next (if s.power.st = .doze then s.beginReturn else s)
    | .refuse => .next (s.fresh.2.endDma c d (1 + Config.freeNat s.freeCtr % 255))
    | .serve =>
      if !d.ok then .next (s.endDma c d fcDescriptor)
      else match s.hostCheck p (tabGet s.host.dmaTenant c 0) d.addr d.len with
        | some code => .next (s.endDma c d code)
        | none => .next (s.runDma c p d hostData)

end Sys2Proof.Machine
end

