-- ==== Sys2Proof/Machine/Dictionary.lean ====
section
/-! DEFINITION. Writes of the object dictionary: WRITE, WRITE_NV and WRITE_SIGNED of any object, segments, and the role keys and the
calendar (R765 to R774, R778, R784 to R787, R800, R801, R872, and what each owning chapter refuses). -/

namespace Sys2Proof.Machine

/-! ### Role keys (R769) -/

/-- RoleKeyInstall: byte 0 names the role, bytes 1 to 3 are 0. -/
def State.doRoleKeyInstall (s : State) (_ : Caller) (v : List Byte) : State × Nat :=
  let role := leNat (v.take 1)
  if (role ≠ 0x80 && role ≠ 0x81) || leNat ((v.drop 1).take 3) != 0 then (s, stRange)
  else (s.modSec (fun k => { k with roleKeys := tabSet k.roleKeys role (v.drop 4) }), stOk)

/-- ROLE_KEY_INSTALL. -/
def execRoleKeyInstall (r : Req) (v : List Byte) (s : State) : Host.Outcome State Fault Refusal :=
  .next (s.runCmd r Key.roleKeyInstall rkIntegrator v State.doRoleKeyInstall)

/-- RoleKeyReset: both keys go, and provisioning mode is back. -/
def State.doRoleKeyReset (s : State) (_ : Caller) (_ : List Byte) : State × Nat := (s.modSec (fun k => { k with roleKeys := [] }), stOk)

/-- ROLE_KEY_RESET: a vendor-signed write. -/
def execRoleKeyReset (r : Req) (v : List Byte) (s : State) : Host.Outcome State Fault Refusal :=
  .next (s.runSigned r Key.roleKeyReset v State.doRoleKeyReset)

/-! ### The calendar (R800, R801) -/

/-- Set fabric time and with it the calendar: forward by a step, or by slewing where the difference is at most 1 ms; back by slewing
(R48, R800). -/
def State.setCalendar (s : State) (v : Nat) : State :=
  let now := s.calendarNow
  let ahead := 1000000000 * v - s.time
  if now < v then
    (if 1000000 < ahead then ({ s with time := 1000000000 * v, mgmt := { s.mgmt with slewTo := 0 } }).creditPassed
    else { s with mgmt := { s.mgmt with slewTo := ahead } })
  else { s with mgmt := { s.mgmt with slewTo := -(1000000000 * ((now - v : Nat) : Int)) } }

/-- The calendar is set, and valid (R800). -/
def State.takeCalendar (s : State) (t : Nat) : State :=
  let s1 := s.setCalendar t
  ({ s1 with mgmt := { s1.mgmt with calendarValid := true } }).bump Key.calendarSets

/-- CalendarSet. -/
def State.doCalendarSet (s : State) (_ : Caller) (v : List Byte) : State × Nat :=
  let t := leNat v
  if s.obj Key.timeParentPort ≠ 7 then (s, stRefused)
  else if s.mgmt.calendarValid && decide (t + s.obj Key.calendarMaxBackS < s.calendarNow) then (s, stRefused)
  else if 2 ^ 64 ≤ 1000000000 * t then (s, stRange)
  else
    (s.takeCalendar t, stOk)

/-- CALENDAR_SET. -/
def execCalendarSet (r : Req) (v : List Byte) (s : State) : Host.Outcome State Fault Refusal :=
  .next (s.runCmd r Key.calendarSet rkOperator v State.doCalendarSet)

/-! ### CMD objects -/

/-- The CMD objects of state memory, the KV store and handles, with the least rank that reaches each. -/
def cmdMemory (key : Nat) : Option (Nat × CmdAct) :=
  if key = Key.extentDefine then some (rkOperator, State.doExtentDefine)
  else if key = Key.extentRemove then some (rkOperator, State.doExtentRemove)
  else if key = Key.pagePin then some (rkOperator, State.doPagePin)
  else if key = Key.pageFree then some (rkOperator, State.doPageFree)
  else if key = Key.stateSetCreate then some (rkTenant, State.doStateSetCreate)
  else if key = Key.stateSetDelete then some (rkTenant, State.doStateSetDelete)
  else if key = Key.stateSetAttach then some (rkTenant, State.doStateSetAttach)
  else if key = Key.checkpointNow then some (rkTenant, State.doCheckpointNow)
  else if key = Key.kvLayoutDefine then some (rkOperator, State.doKvLayoutDefine)
  else if key = Key.kvLayoutRemove then some (rkOperator, State.doKvLayoutRemove)
  else if key = Key.kvSeqCreate then some (rkTenant, State.doKvSeqCreate)
  else if key = Key.kvSeqDrop then some (rkTenant, State.doKvSeqDrop)
  else if key = Key.stateHandleBind then some (rkTenant, State.doStateHandleBind)
  else if key = Key.stateHandleRevoke then some (rkTenant, State.doStateHandleRevoke)
  else if key = Key.stateHandleSwap then some (rkTenant, State.doStateHandleSwap)
  else none

/-- Those of pitches and the fabric; `k` is the row's own key and `i` the instance. -/
def cmdPitch (k i : Nat) : Option (Nat × CmdAct) :=
  if k = Key.pitchCreate then some (rkOperator, State.doPitchCreate)
  else if k = Key.pitchStart then some (rkOperator, State.doPitchStart)
  else if k = Key.pitchRemove then some (rkOperator, State.doPitchRemove)
  else if k = Key.pegShare then some (rkOperator, State.doPegShare)
  else if k = Key.pegUnshare then some (rkOperator, State.doPegUnshare)
  else if k = Key.pegStatusClear then some (rkOperator, State.doPegStatusClear i)
  else if k = Key.snapshotStart then some (rkOperator, State.doSnapshotStart)
  else if k = Key.fabricReset then some (rkOperator, State.doFabricReset)
  else if k = Key.tenantFence then some (rkOperator, State.doTenantFence)
  else if k = Key.eventForwardDefine then some (rkOperator, State.doEventForwardDefine i)
  else if k = Key.eventForwardRemove then some (rkOperator, State.doEventForwardRemove i)
  else if k = Key.collGroupDefine then some (rkOperator, State.doCollGroupDefine i)
  else if k = Key.collGroupRemove then some (rkOperator, State.doCollGroupRemove i)
  else if k = Key.encStreamAssign then some (rkOperator, State.doEncStream)
  else if k = Key.encCountersClear then some (rkOperator, State.doEncCountersClear)
  else none

/-- Those of listening, cameras, error protection and security. -/
def cmdGuard (key : Nat) : Option (Nat × CmdAct) :=
  if key = Key.kwsModelLoad then some (rkOperator, State.doKwsModelLoad)
  else if key = Key.cciTransfer then some (rkOperator, State.doCciTransfer)
  else if key = Key.faultLogClear then some (rkOperator, State.doFaultLogClear)
  else if key = Key.frameRetire then some (rkOperator, State.doFrameRetire)
  else if key = Key.lpddrBankRetire then some (rkOperator, State.doLpddrBankRetire)
  else if key = Key.sramBankRetire then some (rkOperator, State.doSramBankRetire)
  else if key = Key.coreRetire then some (rkOperator, State.doCoreRetire)
  else if key = Key.flashDieRetire then some (rkOperator, State.doFlashDieRetire)
  else if key = Key.retireClear then some (rkVendor, State.doRetireClear)
  else if key = Key.attestRequest then some (rkAny, State.doAttestRequest)
  else if key = Key.sessionOpen then some (rkAny, State.doSessionOpen)
  else if key = Key.sessionClose then some (rkTenant, State.doSessionClose)
  else if key = Key.debugUnlock then some (rkVendor, State.doDebugUnlock)
  else if key = Key.rollbackAdvanceNow then some (rkVendor, State.doRollbackAdvanceNow)
  else if key = Key.tenantCreate then some (rkOperator, State.doTenantCreate)
  else if key = Key.tenantRemove then some (rkOperator, State.doTenantRemove)
  else if key = Key.epochExpire then some (rkTenant, State.doEpochExpire)
  else if key = Key.rekeyStart then some (rkTenant, State.doRekeyStart)
  else none

/-- Those of power, management and update. -/
def cmdManage (key : Nat) : Option (Nat × CmdAct) :=
  if key = Key.powerStateRequest then some (rkOperator, State.doPowerState)
  else if key = Key.roleKeyInstall then some (rkIntegrator, State.doRoleKeyInstall)
  else if key = Key.roleKeyReset then some (rkVendor, State.doRoleKeyReset)
  else if key = Key.nvClearSection then some (rkIntegrator, State.doNvClearSection)
  else if key = Key.calendarSet then some (rkOperator, State.doCalendarSet)
  else if key = Key.updateBegin then some (rkOperator, State.doUpdateBegin)
  else if key = Key.updateActivate then some (rkOperator, State.doUpdateActivate)
  else if key = Key.updateCancel then some (rkOperator, State.doUpdateCancel)
  else none

/-- The action of a CMD object. -/
def cmdOf (row : ObjRow) (key : Nat) : Option (Nat × CmdAct) :=
  (((cmdMemory key).or (cmdPitch row.key (instanceOf row key))).or (cmdGuard key)).or (cmdManage key)

/-! ### What the owning chapters refuse in a write of a setting -/

/-- Objects of a pitch's inbox (R562). -/
def inboxKeys : List Nat := [Key.inboxEntries, Key.inboxEntryBytes, Key.inboxOffsetCluster]

/-- Do the inboxes of a pitch fit its FAB ranges and its shares (R531). -/
def State.inboxFits (s : State) (p : Nat) : Bool :=
  let entries := s.obj (Key.at Key.inboxEntries p)
  let bytes := entries * s.obj (Key.at Key.inboxEntryBytes p)
  let r := s.pitch p
  entries == 0 || (List.range 6).all (fun n =>
    let slots := (s.slotsIn p n).length
    slots == 0 || (decide (2 * slots ≤ (r.fabRange n).2)
      && decide (s.obj (Key.at (Key.inboxOffsetCluster + n) p) + slots * bytes ≤ (r.share n).2)))

/-- Is a queue named by another output or stream (R578, R632). -/
def State.queueNamed (s : State) (q key : Nat) : Bool :=
  decide (q < 32) && ((List.range 64).any (fun k => Key.at Key.outQueue k != key && s.obj (Key.at Key.outQueue k) == q)
    || (List.range 4).any (fun k => Key.at Key.streamQueue k != key && s.obj (Key.at Key.streamQueue k) == q))

/-- Coordinates and sizes as the next reset will load them. -/
def State.nextValue (s : State) (key : Nat) : Nat :=
  ((nvLayer s.nvNextRecs s.profile key).map leNat).getD (factoryValue s.mb s.profile key)

/-- Is a module ID inside the torus that the next reset sets up (R505). -/
def State.coordFits (s : State) (v : Nat) : Bool :=
  let (x, y, z) := coords v
  decide (x < s.nextValue Key.fabricDimX) && decide (y < s.nextValue Key.fabricDimY) && decide (z < s.nextValue Key.fabricDimZ)

/-- Refusals that hold whatever the state: they apply to stored values too (R270, R303, R505, R757). -/
def State.settingStatic (s : State) (k v : Nat) : Nat :=
  if Key.tierABytesCluster ≤ k ∧ k < Key.tierABytesCluster + 6 then (if v % 1048576 = 0 ∧ v ≤ 16777216 then stOk else stRefused)
  else if k = Key.fabricCoord then (if s.coordFits v then stOk else stRefused)
  else if k = Key.powerCapMw then (if v ≤ s.obj Key.profileCapMw then stOk else stRange)
  else stOk

/-- May a setting be written now: the STATUS; `k` is the row's key, `i` the instance, `v` a scalar's value. -/
def State.settingStatus (s : State) (row : ObjRow) (key v : Nat) : Nat :=
  let k := row.key
  let i := instanceOf row key
  let refuse := fun (b : Bool) => if b then stRefused else stOk
  if s.freePitchObject (key / 256) then stRefused
  else if k / 256 = 0x4600 then
    refuse (k != Key.staleTailNs && s.obj (Key.at Key.queueEnable i) == 1)
  else if inboxKeys.contains k then
    refuse ((s.pitch i).st == .running || !(s.setObj key v).inboxFits i)
  else if k = Key.outQueue ∧ s.queueNamed v key then stRefused
  else if k = Key.streamQueue then refuse (s.queueNamed v key)
  else if k / 256 = 0x6100 then refuse (!s.ctxWriteOk key v)
  else if k / 256 = 0x6200 then refuse (!(if row.ty = .domain then s else s.setObj key v).outWriteOk key)
  else if k / 256 = 0x7080 then refuse (s.obj Key.glimpseEnable == 1)
  else if k / 256 = 0x70A0 then refuse (s.obj Key.playbackEnable == 1)
  else if k = Key.tierBLowWaterPct then (if v < s.obj Key.tierBHighWaterPct then stOk else stRange)
  else if k = Key.tierBHighWaterPct then (if s.obj Key.tierBLowWaterPct < v then stOk else stRange)
  else if k = Key.camFsyncOffsetNs then (if v = 0 ∨ v < s.obj Key.camFsyncPeriodNs then stOk else stRange)
  else if k = Key.extentKeyClass then
    let changed := s.obj key ^^^ v
    refuse ((s.pitch i).extents.any (fun x => bit changed x.number
      && s.tier.pages.any (fun g => g.owner == some i && x.holds g.addr)))
  else s.settingStatic key v

/-! ### Writes of settings -/

/-- Ask for the DIV of the core that the requester selects (R756). -/
def State.writeCoreDiv (s : State) (c : Caller) (v : Nat) : State × Nat :=
  let core := s.selected c Key.coreDivSelect
  ((s.modPower (fun p => { p with divRequest := tabSet p.divRequest core v })).requestDiv core, stOk)

/-- Change a scalar setting's live value, by the operation of its own where it has one. -/
def State.writeSetting (row : ObjRow) (key : Nat) (s : State) (c : Caller) (v : Nat) : State × Nat :=
  let k := row.key
  let i := instanceOf row key
  if isSelect key then (s.select c key v, stOk)
  else if k = Key.queueEnable then State.writeQueueEnable i s c v
  else if k = Key.portEnable then State.writePortEnable i s c v
  else if k = Key.pitchPriority then State.writePriority i s c v
  else if k = Key.retentionDays then State.writeRetention i s c v
  else if k = Key.glimpseEnable then s.writeGlimpseEnable c v
  else if k = Key.playbackEnable then s.writePlaybackEnable c v
  else if k = Key.coreDivRequest then s.writeCoreDiv c v
  else if k = Key.windowPitch then s.writeWindowPitch c v
  else if k = Key.hostDmaPitch then State.writeHostDmaPitch (key - row.key) s c v
  else
    let st := s.settingStatus row key v
    if st = stOk then (s.setObj key v, stOk) else (s, st)

/-- Does a DOMAIN value have a length its layout permits. -/
def domainLengthOk (row : ObjRow) (v : List Byte) : Bool :=
  if row.key = Key.defectList then decide (v.length ≤ 16384) && v.length % 4 == 0
  else if row.size = 0 then decide (v.length ≤ 1048576)
  else v.length == row.size

/-- Change a DOMAIN setting's live value. -/
def State.writeDomain (s : State) (row : ObjRow) (key : Nat) (v : List Byte) : State × Nat :=
  if !domainLengthOk row v then (s, stLength)
  else
    let t := s.setDomain key v
    let st := t.settingStatus row key 0
    if st = stOk then (t, stOk) else (s, st)

/-! ### Who may write (R770 to R772, R834) -/

/-- Per-pitch settings that a TENANT may write (R772). -/
def tenantPitchKeys : List Nat := [Key.stateQuotaBytes, Key.quotaPolicy, Key.quotaStallUs, Key.watchdogUs, Key.donationQuantumUs]

/-- Select objects that a TENANT may write (R772). -/
def tenantSelects : List Nat := [Key.stateSetSelect, Key.kvSeqSelect, Key.stateHandleSelect, Key.teardownLogSelect]

/-- May a TENANT write an object; a CMD's own action looks at the instance, and an RO object that it reads answers ACCESS. -/
def State.tenantWrites (s : State) (c : Caller) (t : Nat) (row : ObjRow) (key : Nat) : Bool :=
  match row.acc with
  | .cmd => (cmdOf row key).elim false (fun e => decide (e.1 ≤ rkTenant))
  | .ro => s.tenantReads c t (key / 256) (key % 256)
  | _ => (tenantPitchKeys.contains row.key && s.pitchIs t (instanceOf row key)) || tenantSelects.contains key
      || key == Key.at Key.retentionDays t || key == Key.windowPitch

/-- May a requester write an object; R771's minimum for an RWS object. -/
def State.mayWrite (s : State) (c : Caller) (row : ObjRow) (key : Nat) : Bool :=
  match c.role with
  | .none => key == Key.attestRequest || key == Key.sessionOpen
  | .tenant t => s.tenantWrites c t row key
  | .operator => row.acc != .rws && key != Key.nvImage
  | _ => true

/-- The STATUS with which a WRITE is refused before its value is looked at. -/
def State.writeGate (s : State) (c : Caller) (index sub : Nat) : Nat :=
  match rowAt index sub with
  | none => if c.role.rank ≤ rkTenant then stRole else stNoObject
  | some row =>
    if !s.mayWrite c row (256 * index + sub) then stRole
    else if row.acc = .ro && row.key != Key.tagsHighWater then stAccess
    else stOk

/-! ### WRITE (R767) -/

/-- Serve a WRITE of a whole value; of the objects that are read only, TagsHighWater is cleared by a write of 0 (R227, R767). -/
def State.serveWrite (s : State) (c : Caller) (key offset : Nat) (v : List Byte) : State × Nat :=
  match objRow key with
  | none => (s, stNoObject)
  | some row =>
    match row.acc with
    | .ro =>
      if key = Key.tagsHighWater then s.serveScalar c key rkOperator v (fun s _ x => if x = 0 then (s.setObj key 0, stOk) else (s, stAccess))
      else (s, stAccess)
    | .wo => s.writePiece offset v
    | .cmd =>
      match cmdOf row key with
      | none => (s, stNoObject)
      | some e => s.serveCmd c key e.1 v e.2
    | .rws =>
      s.serveScalar c key rkIntegrator v (fun s _ x =>
        let st := s.settingStatic key x
        if st = stOk then s.nvStore 4 key v else (s, st))
    | .rw =>
      if key = Key.nvImage then s.writeNvImage v
      else if row.ty = .domain then s.writeDomain row key v
      else s.serveScalar c key rkTenant v (State.writeSetting row key)

/-! ### Segments (R786) -/

/-- Is a staged value that of a requester. -/
def Staged.isOf (x : Staged) (r : Req) : Bool := x.session == r.session && (r.session != 0 || x.path == r.path)

/-- Is a staged value that of a requester and an object. -/
def Staged.isAt (x : Staged) (r : Req) (key : Nat) : Bool := x.isOf r && 256 * x.index + x.sub == key

/-- Discard what a requester has staged of an object. -/
def State.unstage (s : State) (r : Req) (key : Nat) : State :=
  { s with mgmt := { s.mgmt with staged := s.mgmt.staged.filter (fun x => !x.isAt r key) } }

/-- What a segment gives: the whole value, or a STATUS for now. -/
inductive Segment
  | whole (bytes : List Byte)
  | answer (status : Nat)
  deriving DecidableEq, Repr

/-- Take a segment of a value: it extends what is staged, or is the whole value (R786). -/
def State.takeSegment (s : State) (r : Req) (key offset : Nat) (more domain : Bool) (data : List Byte) : State × Segment :=
  let old := s.mgmt.staged.find? (·.isAt r key)
  let have_ := old.elim [] (·.data)
  let mine := ((s.mgmt.staged.filter (·.isOf r)).map (·.data.length)).foldl (· + ·) 0
  if 1024 < data.length then (s, .answer stLength)
  else if offset != have_.length then (s.unstage r key, .answer stSequence)
  else if !more then (s.unstage r key, .whole (have_ ++ data))
  else if !domain || 1048576 < mine + data.length then (s, .answer stLength)
  else if old.isNone && 4 ≤ s.mgmt.staged.length then (s, .answer stBusy)
  else
    let x : Staged := { path := r.path, session := r.session, index := key / 256, sub := key % 256, data := have_ ++ data, stamp := s.time }
    let s1 := s.unstage r key
    ({ s1 with mgmt := { s1.mgmt with staged := s1.mgmt.staged ++ [x] } }, .answer stOk)

/-- Serve a WRITE frame: its gate, its segment, then the whole value. A piece of an update package is a whole value at its OFFSET
(R809). -/
def State.serveWriteFrame (s : State) (c : Caller) (r : Req) (index sub offset : Nat) (more : Bool) (data : List Byte) : State × Nat :=
  let key := 256 * index + sub
  let gate := s.writeGate c index sub
  if gate ≠ stOk then (s, gate)
  else if key = Key.updatePiece then (if more then (s, stLength) else s.writePiece offset data)
  else match s.takeSegment r key offset more ((objRow key).elim false (fun row => row.ty.isBytes)) data with
    | (t, .answer st) => (t, st)
    | (t, .whole v) =>
      let (t1, st) := t.serveWrite c key 0 v
      (if (objRow key).elim false (fun row => row.acc == .cmd) then t1.noteProgress r key st else t1, st)

/-- UOA_WRITE. -/
def execUoaWrite (r : Req) (index sub offset : Nat) (more : Bool) (data : List Byte) (s : State) : Host.Outcome State Fault Refusal :=
  .next (s.request r { op := 2, index, sub, offset } data (fun s c =>
    let (t, st) := s.serveWriteFrame c r index sub offset more data
    served t st))

/-! ### WRITE_NV (R778, R779) -/

/-- The section that PARAM names. -/
def nvParam (profile param : Nat) : Option Nat := if param ≤ 4 then some param else if param = 0xFF then some profile else none

/-- Is a value one that an object permits, as far as its row and the rules that hold in every state say. -/
def State.nvValueStatus (s : State) (row : ObjRow) (key : Nat) (v : List Byte) : Nat :=
  if row.ty.isBytes then (if domainLengthOk row v then stOk else stLength)
  else if v.length != max 1 (row.ty.width / 8) then stLength
  else if (row.ty == .bool && 1 < leNat v) || !s.permits row (leNat v) then stRange
  else s.settingStatic key (leNat v)

/-- The STATUS with which a WRITE_NV is refused before its value is looked at (R771, R772, R778). -/
def State.nvGate (s : State) (c : Caller) (index sub param : Nat) : Nat :=
  let key := 256 * index + sub
  match rowAt index sub with
  | none => if c.role.rank ≤ rkTenant then stRole else stNoObject
  | some row =>
    if c.role.rank < (if row.acc = .rws then rkIntegrator else rkOperator) then stRole
    else match nvParam s.profile param with
      | none => stRange
      | some sec => if storable key sec then stOk else stAccess

/-- Serve a WRITE_NV frame. -/
def State.serveWriteNv (s : State) (c : Caller) (r : Req) (index sub param offset : Nat) (more : Bool) (data : List Byte) :
    State × Nat :=
  let key := 256 * index + sub
  let gate := s.nvGate c index sub param
  match objRow key, nvParam s.profile param with
  | some row, some sec =>
    if gate ≠ stOk then (s, gate)
    else match s.takeSegment r key offset more row.ty.isBytes data with
      | (t, .answer st) => (t, st)
      | (t, .whole v) =>
        let st := t.nvValueStatus row key v
        if st = stOk then t.nvStore sec key v else (t, st)
  | _, _ => (s, gate)

/-- UOA_WRITE_NV. -/
def execUoaWriteNv (r : Req) (index sub param offset : Nat) (more : Bool) (data : List Byte) (s : State) :
    Host.Outcome State Fault Refusal :=
  .next (s.request r { op := 3, index, sub, param, offset } data (fun s c =>
    let (t, st) := s.serveWriteNv c r index sub param offset more data
    served t st))

/-! ### WRITE_SIGNED (R774) -/

/-- Serve a WRITE_SIGNED frame: the envelope, then the write under the role VENDOR. -/
def State.serveWriteSigned (s : State) (c : Caller) (r : Req) (index sub : Nat) (bytes : List Byte) : State × Nat :=
  let key := 256 * index + sub
  match s.openSigned key bytes with
  | .error st => (s, st)
  | .ok (s1, v) =>
    let vendor : Caller := { c with role := .vendor }
    let gate := s1.writeGate vendor index sub
    if gate ≠ stOk then (s1, gate)
    else
      let (t, st) := s1.serveWrite vendor key 0 v
      (t.noteProgress r key st, st)

/-- UOA_WRITE_SIGNED. -/
def execUoaWriteSigned (r : Req) (index sub : Nat) (data : List Byte) (s : State) : Host.Outcome State Fault Refusal :=
  .next (s.request r { op := 4, index, sub } data (fun s c =>
    let (t, st) := s.serveWriteSigned c r index sub data
    served t st))

/-! ### ABORT and the segment timeout (R786) -/

/-- Discard all that a requester has staged. -/
def State.unstageAll (s : State) (r : Req) : State :=
  { s with mgmt := { s.mgmt with staged := s.mgmt.staged.filter (fun x => !x.isOf r) } }

/-- Serve an ABORT: this requester's staged segments are discarded. -/
def State.serveAbort (s : State) (c : Caller) (r : Req) : State × Nat :=
  if c.role = .none then (s, stRole)
  else (s.unstageAll r, stOk)

/-- UOA_ABORT. -/
def execUoaAbort (r : Req) (s : State) : Host.Outcome State Fault Refusal :=
  .next (s.request r { op := 8 } [] (fun s c =>
    let (t, st) := s.serveAbort c r
    served t st))

/-- STAGED_SEGMENT_TIMEOUT: 10 s without a segment (R786). -/
def execStagedSegmentTimeout (r : Req) (index sub : Nat) (s : State) : Host.Outcome State Fault Refusal :=
  if s.mgmt.staged.any (fun x => x.isAt r (256 * index + sub) && decide (x.stamp + 10000000000 ≤ s.time)) then
    .next (s.unstage r (256 * index + sub))
  else .next s

/-! ### CMDs that run on (R787) -/

/-- The oldest running CMD on an object runs no more. -/
def State.endProgress (s : State) (key : Nat) : State :=
  { s with mgmt := { s.mgmt with inProgress := s.mgmt.inProgress.eraseP (·.2 == key) } }

/-- CMD_IN_PROGRESS_DONE: the oldest running CMD on the object ends with its final STATUS, which a NOTIFY tells the requester
unless its session has closed. -/
def execCmdInProgressDone (index sub status : Nat) (s : State) : Host.Outcome State Fault Refusal :=
  let key := 256 * index + sub
  match s.mgmt.inProgress.find? (·.2 == key) with
  | none => .next s
  | some e =>
    let s1 := s.endProgress key
    .next (if status = stInProgress then s
      else if e.1.session = 0 ∨ s.sec.sessions.any (·.id == e.1.session) then
        s1.notify e.1.path e.1.session e.1.requestId 0xFF status index sub []
      else s1)

end Sys2Proof.Machine
end

