-- ==== Sys2Proof/Machine/Segments.lean ====
section
/-! DEFINITION. Telemetry, segment managers and workers, proxied requests (R789 to R796). -/

namespace Sys2Proof.Machine

def State.modMgmt (s : State) (f : Management → Management) : State := { s with mgmt := f s.mgmt }

/-! ### Subscriptions (R796) -/

/-- Entries of a SUBSCRIBE request: the object keys; none where a byte 3 is not 0. -/
def subEntries : Nat → List Byte → Option (List Nat)
  | 0, _ => some []
  | n + 1, bs =>
    if leNat ((bs.drop 3).take 1) != 0 then none
    else (subEntries n (bs.drop 4)).map (fun ks => (256 * leNat (bs.take 2) + leNat ((bs.drop 2).take 1)) :: ks)

/-- The lowest number that no subscription has. -/
def freeNumber (subs : List Subscription) : Nat :=
  ((List.range 9).find? (fun n => n != 0 && !subs.any (·.number == n))).getD 9

/-- Window of an interval in ms that holds a stamp. -/
def windowOf (interval time : Nat) : Nat := time / (1000000 * interval)

/-- The values of entries to a requester: their bytes in order, or the STATUS of the first that it cannot read. -/
def State.entryValues (s : State) (c : Caller) (keys : List Nat) : Except Nat (List (List Byte)) :=
  keys.mapM (fun k => s.readValue c (k / 256) (k % 256) 0)

/-- A subscription is added under the lowest free number; its first snapshot is the next window's. -/
def State.addSubscription (s : State) (c : Caller) (interval : Nat) (keys : List Nat) : State :=
  let x : Subscription := {
    number := freeNumber s.mgmt.subs, path := c.path, session := c.session, interval, next := windowOf interval s.time + 1, objects := keys }
  s.modMgmt (fun m => { m with subs := m.subs ++ [x] })

/-- Serve a SUBSCRIBE. -/
def State.serveSubscribe (s : State) (c : Caller) (data : List Byte) : Served :=
  let interval := leNat (data.take 4)
  let n := (data.length - 4) / 4
  if c.role = .none then served s stRole
  else if data.length < 8 || 132 < data.length || data.length % 4 != 0 then served s stLength
  else if interval < 100 || 86400000 < interval then served s stRange
  else match subEntries n (data.drop 4) with
    | none => served s stRange
    | some keys =>
      match s.entryValues c keys with
      | .error st => served s st
      | .ok vs =>
        if vs.any (fun v => decide (64 < v.length)) || 1016 < (vs.map List.length).foldl (· + ·) 0 then served s stRange
        else if 8 ≤ s.mgmt.subs.length then served s stBusy
        else
          (s.addSubscription c interval keys, stOk, [BitVec.ofNat 8 (freeNumber s.mgmt.subs)], false)

/-- UOA_SUBSCRIBE. -/
def execUoaSubscribe (r : Req) (data : List Byte) (s : State) : Host.Outcome State Fault Refusal :=
  .next (s.request r { op := 6 } data (fun s c => s.serveSubscribe c data))

/-- Is a subscription that of a requester. -/
def Subscription.isOf (x : Subscription) (c : Caller) : Bool := x.session == c.session && (c.session != 0 || x.path == c.path)

/-- Serve an UNSUBSCRIBE of the requester's own subscription. -/
def State.serveUnsubscribe (s : State) (c : Caller) (number : Nat) : Served :=
  if c.role = .none then served s stRole
  else if s.mgmt.subs.any (fun x => x.number == number && x.isOf c) then
    served (s.modMgmt (fun m => { m with subs := m.subs.filter (·.number != number) })) stOk
  else served s stRange

/-- UOA_UNSUBSCRIBE. -/
def execUoaUnsubscribe (r : Req) (number : Nat) (s : State) : Host.Outcome State Fault Refusal :=
  .next (s.request r { op := 7, param := number } [] (fun s c => s.serveUnsubscribe c number))

/-- The caller of a subscription. -/
def State.subCaller (s : State) (x : Subscription) : Caller :=
  match s.callerOf { path := x.path, session := x.session } with
  | some c => c
  | none => { role := .none, path := x.path, session := x.session }

/-- A window of a subscription has passed. -/
def State.passWindow (s : State) (number w : Nat) : State :=
  s.modMgmt (fun m => { m with subs := m.subs.map (fun y => if y.number = number then { y with next := w + 1 } else y) })

/-- The values of a snapshot: none where its requester reads them no longer. -/
def State.snapshotValues (s : State) (x : Subscription) : List Byte :=
  match s.entryValues (s.subCaller x) x.objects with
  | .ok vs => vs.flatMap id
  | .error _ => []

/-- TELEMETRY_SNAPSHOT: the window has begun; the values are read at the stamp and sent, or dropped where they are late. -/
def execTelemetrySnapshot (number : Nat) (late : Bool) (s : State) : Host.Outcome State Fault Refusal :=
  match s.mgmt.subs.find? (·.number == number) with
  | none => .next s
  | some x =>
    let w := windowOf x.interval s.time
    if !s.mcOn || w < x.next then .next s
    else
      let s1 := s.passWindow number w
      if late then .next (s1.bump Key.telemetryDrops)
      else
        .next (s1.fresh.2.notify x.path x.session 0 number 0 0 0 (natLe 8 s.time ++ s.snapshotValues x))

/-! ### Managers and workers (R790 to R792) -/

/-- Send this module's HEARTBEAT on a path (R791). -/
def State.heartbeatOn (s : State) (path : Path) : State :=
  let data := Config.heartbeatBytes s.moduleId (s.obj Key.plcaNodeId) s.mgmt.segmentUp s.isManager
  let (s1, frame) := s.makeFrame 0 0 0 0xFFFF 0x11 0 0 0 0 0 data
  s1.sendOn path frame

/-- A worker's HEARTBEAT over guyline, where a fabric carries it. -/
def State.heartbeatGuyline (s : State) : State := if s.opticsOn then s.heartbeatOn (.guyline s.mgmt.segmentManager) else s

/-- HEARTBEAT_SEND, every SegmentHeartbeatMs (R791). -/
def execHeartbeatSend (s : State) : Host.Outcome State Fault Refusal :=
  if !s.mcOn || !s.passed tmBeat (1000000 * s.obj Key.segmentHeartbeatMs) then .next s
  else if s.isManager then .next ((s.mark tmBeat).heartbeatOn (.segment 0xFFFF))
  else if s.isWorker then
    let s1 := (s.mark tmBeat).heartbeatOn (.segment s.mgmt.segmentManager)
    .next (if s.mgmt.segmentUp then s1 else s1.heartbeatGuyline)
  else .next s

/-- A worker's HEARTBEAT at its manager: on the segment, three in a row bring it up again; over guyline with SEG_UP 0 it is down
(R792, R793). -/
def Member.hear (m : Member) (time : Nat) (onSegment segUp : Bool) : Member :=
  if onSegment then
    let m := { m with stamp := time }
    if m.up then m else if 3 ≤ m.heard + 1 then { m with up := true, heard := 0 } else { m with heard := m.heard + 1 }
  else if segUp then m else { m with up := false, heard := 0 }

/-- A HEARTBEAT is received. -/
def State.hear (s : State) (onSegment fromManager : Bool) (module node : Nat) (segUp : Bool) : State :=
  if s.isManager then
    if fromManager then s.bump Key.managerConflicts
    else if s.mgmt.members.any (·.module == module) then
      s.modMgmt (fun m => { m with
        members := m.members.map (fun x => if x.module = module then ({ x with node }).hear s.time onSegment segUp else x) })
    else s.modMgmt (fun m => { m with members := m.members ++ [{ module, node, up := onSegment || segUp, stamp := s.time }] })
  else if s.isWorker && fromManager then
    let s1 := (if onSegment then s.mark tmManager else s).modMgmt (fun m => { m with segmentManager := module })
    if !onSegment || s.mgmt.segmentUp then s1
    else if 3 ≤ s.mgmt.managerHeard + 1 then s1.modMgmt (fun m => { m with segmentUp := true, managerHeard := 0 })
    else s1.modMgmt (fun m => { m with managerHeard := m.managerHeard + 1 })
  else s

/-- UOA_HEARTBEAT. -/
def execUoaHeartbeat (onSegment fromManager : Bool) (module node : Nat) (segUp : Bool) (s : State) : Host.Outcome State Fault Refusal :=
  if !s.mcOn then .next s
  else .next ((if onSegment then s.bump Key.t1sFramesRx else s).hear onSegment fromManager module node segUp)

/-- The time without a HEARTBEAT after which a segment counts as down (R792). -/
def State.beatLimit (s : State) : Nat := 3 * (1000000 * s.obj Key.segmentHeartbeatMs)

/-- SEGMENT_DOWN: at the manager for one worker, 3 × SegmentHeartbeatMs after its last HEARTBEAT; at a worker for its manager, after as
long, or for want of beacons, which alone can be the cause before that; the worker says so at once over guyline (R792). -/
def execSegmentDown (peer : Nat) (s : State) : Host.Outcome State Fault Refusal :=
  if !s.mcOn then .next s
  else if s.isManager then
    .next (s.modMgmt (fun m => { m with
      members := m.members.map (fun x => if x.module = peer ∧ x.stamp + s.beatLimit ≤ s.time then { x with up := false, heard := 0 } else x) }))
  else if s.isWorker && s.mgmt.segmentUp then
    let (k, s1) := s.fresh
    let s2 := if Config.freeBool k || !s.passed tmManager s.beatLimit then s1.bump Key.plcaBeaconLosses else s1
    .next (s2.modMgmt (fun m => { m with segmentUp := false, managerHeard := 0 })).heartbeatGuyline
  else .next s

/-! ### Proxied requests (R793, R794) -/

/-- A frame's header fields (R782). -/
structure FrameHead where
  version : Nat
  flags : Nat
  length : Nat
  session : Nat
  requestId : Nat
  target : Nat
  op : Nat
  index : Nat
  sub : Nat
  param : Nat
  offset : Nat
  deriving DecidableEq, Repr

/-- Read a frame's header. -/
def frameHead (frame : List Byte) : FrameHead :=
  let w := leNat (fitBytes 24 frame)
  { version := field w 7 0, flags := field w 15 8, length := field w 31 16, session := field w 63 32, requestId := field w 95 64
    target := field w 111 96, op := field w 119 112, index := field w 143 128, sub := field w 151 144, param := field w 159 152
    offset := field w 191 160 }

/-- The request and the echoed fields of a header that came on a path. -/
def FrameHead.req (h : FrameHead) (path : Path) : Req :=
  { path, session := h.session, requestId := h.requestId, target := h.target, byNode := bit h.flags 3 }
def FrameHead.head (h : FrameHead) : Head := { op := h.op, index := h.index, sub := h.sub, param := h.param, offset := h.offset }

/-- Is a proxied request this one. -/
def Proxied.is (x : Proxied) (worker requestId : Nat) : Bool := x.worker == worker && x.requestId == requestId

/-- Forget a proxied request. -/
def State.forgetProxied (s : State) (worker requestId : Nat) : State :=
  s.modMgmt (fun m => { m with proxied := m.proxied.eraseP (·.is worker requestId) })

/-- A worker's response goes back on the path on which the request came; one that nothing waits for is discarded. -/
def State.proxyBack (s : State) (worker requestId : Nat) (frame : List Byte) : State :=
  match s.mgmt.proxied.find? (·.is worker requestId) with
  | none => s
  | some x => (s.forgetProxied worker requestId).sendOn x.path frame

/-- PROXY_RESPONSE. -/
def execProxyResponse (worker requestId : Nat) (frame : List Byte) (s : State) : Host.Outcome State Fault Refusal :=
  if !s.mcOn then .next s
  else
    let counted := (s.mgmt.proxied.find? (·.is worker requestId)).elim false (·.onSegment)
    .next ((if counted then s.bump Key.t1sFramesRx else s).proxyBack worker requestId frame)

/-- PROXY_TIMEOUT: the manager answers TIMEOUT and forgets the request (R794). -/
def execProxyTimeout (worker requestId : Nat) (s : State) : Host.Outcome State Fault Refusal :=
  match s.mgmt.proxied.find? (·.is worker requestId) with
  | none => .next s
  | some x =>
    let h := frameHead x.header
    if s.time < x.since + 1000000 * s.obj Key.proxyTimeoutMs then .next s
    else .next (((s.forgetProxied worker requestId).bump Key.proxyTimeouts).answerPlain (h.req x.path) h.head stTimeout)

end Sys2Proof.Machine
end

