-- ==== Sys2Proof/Machine/Frames.lean ====
section
/-! DEFINITION. UOA frames as they arrive on a path: the header, sealed frames, and the operation (R689 to R692, R781 to R784, R826,
R827, R837). -/

namespace Sys2Proof.Machine

/-! ### Sealed frames (R691, R783) -/

/-- The data of a sealed frame of a session: none where its sequence is not greater than the last accepted, or its tag fails. -/
def Session.openFrame (x : Session) (frame : List Byte) : Option (Nat × List Byte) :=
  let seq := leNat ((frame.drop 24).take 8)
  if frame.length < 48 || seq ≤ x.seqIn then none
  else (Config.gcmOpen (x.keys.take 32) (frameNonce ((x.keys.drop 64).take 12) seq) (frameAad frame) (frame.drop 32)).map (fun d => (seq, d))

/-- The last accepted sequence of a session. -/
def State.acceptSeq (s : State) (id seq : Nat) : State :=
  s.modSec (fun k => { k with sessions := k.sessions.map (fun x => if x.id = id then { x with seqIn := seq, stamp := s.time } else x) })

/-- A frame of an open session that is not accepted is discarded and counted. -/
def State.rejectFrame (s : State) : State := s.bump Key.sessionRejects

/-! ### Operations (R784) -/

/-- Serve an opened request by its OP. -/
def State.serveOp (s : State) (r : Req) (h : FrameHead) (data : List Byte) (c : Caller) : Served :=
  let plain := fun (x : State × Nat) => served x.1 x.2
  let more := bit h.flags 2
  match h.op with
  | 1 => s.serveRead c h.index h.sub h.param h.offset
  | 2 => plain (s.serveWriteFrame c r h.index h.sub h.offset more data)
  | 3 => plain (s.serveWriteNv c r h.index h.sub h.param h.offset more data)
  | 4 => plain (s.serveWriteSigned c r h.index h.sub data)
  | 5 => s.serveEnumerate c h.index h.param
  | 6 => s.serveSubscribe c data
  | 7 => s.serveUnsubscribe c h.param
  | 8 => plain (s.serveAbort c r)
  | 9 => s.serveDiscover
  | _ => served s stOp

/-- Serve a request whose data is open: a VERSION other than 1 is answered with OP, data of more than 1,024 B with LENGTH. -/
def State.serveFrame (s : State) (r : Req) (h : FrameHead) (data : List Byte) : State :=
  s.request r h.head data (fun s c =>
    if h.version ≠ 1 then served s stOp
    else if 1024 < data.length then served s stLength
    else s.serveOp r h data c)

/-! ### A frame arrives (R782, R783, R791, R793) -/

/-- The module at the other end of a path, for the responses that it returns. -/
def pathModule (path : Path) : Option Nat :=
  match path with
  | .segment a => some a
  | .guyline m => some m
  | .mailbox _ => none
  | .usb2 => none
  | .internal => none

/-- Is a path the segment. -/
def onSegment (path : Path) : Bool :=
  match path with
  | .segment _ => true
  | _ => false

/-- A request for this module, sealed or not. A session whose sequence has run out closes (R692). -/
def State.openRequest (s : State) (path : Path) (h : FrameHead) (frame : List Byte) : State :=
  let r := h.req path
  match s.sec.sessions.find? (fun x => x.id == h.session && h.session != 0) with
  | none => s.serveFrame r h (frame.drop 24)
  | some x =>
    if !bit h.flags 1 then (s.countSegment path).rejectFrame
    else match x.openFrame frame with
      | none => (s.countSegment path).rejectFrame
      | some (seq, data) =>
        let s1 := (s.acceptSeq x.id seq).serveFrame r h data
        if seq = 2 ^ 64 - 1 then s1.closeSessions (·.id == x.id) else s1

/-- A frame arrives on a path. One shorter than a header, one whose LENGTH is not its own, and a NOTIFY are not requests: the first
and the last are discarded, the second is answered with LENGTH. -/
def State.frameIn (s : State) (path : Path) (frame : List Byte) : State :=
  let h := frameHead frame
  let r := h.req path
  if !s.mcOn || frame.length < 24 then s
  else if bit h.flags 0 then
    match pathModule path with
    | none => s
    | some m => (s.countSegment path).proxyBack m h.requestId frame
  else if h.op = 0x10 then s.countSegment path
  else if h.op = 0x11 then
    let (module, node, segUp, fromManager) := Config.heartbeatFields (frame.drop 24)
    (s.countSegment path).hear (onSegment path) fromManager module node segUp
  else if h.length ≠ frame.length || 1452 < frame.length then (s.countSegment path).answerPlain r h.head stLength
  else if s.isProxied r then (s.countSegment path).proxy r h.head frame
  else s.openRequest path h frame

/-! ### The carriers -/

/-- GUYLINE: a management frame from a module (R19, R781). -/
def execGuyline (module : Nat) (frame : List Byte) (s : State) : Host.Outcome State Fault Refusal :=
  .next (s.frameIn (.guyline module) frame)

/-- USB2_BULK_TRANSFER: one UOA frame on the USB 2.0 device, which runs while the host link island does (R837). -/
def execUsb2BulkTransfer (frame : List Byte) (s : State) : Host.Outcome State Fault Refusal :=
  .next (if s.linkIslandOn then s.frameIn .usb2 frame else s)

/-- MB_REQ_LEN: 24 B to 1,452 B start the request in the buffer, which the MC copies at once; any other length sets LEN_ERR (R826). -/
def execMbReqLen (mailbox : Fin 8) (len : Nat) (s : State) : Host.Outcome State Fault Refusal :=
  let m := mailbox.val
  let rest := s.host.mbLenErr.filter (· != m)
  if !s.host.connected then .next s
  else if len < 24 || 1452 < len then .next (s.modHost (fun h => { h with mbLenErr := rest ++ [m] }))
  else
    let s1 := s.modHost (fun h => { h with mbLenErr := rest, mbReqLen := tabSet h.mbReqLen m (BitVec.ofNat 32 len) })
    .next (s1.frameIn (.mailbox mailbox) (fitBytes len (tabGet s.host.mbReq m [])))

/-- MB_RESP_ACK: the response buffer is free, and takes the next frame that waits (R827). -/
def execMbRespAck (mailbox : Fin 8) (s : State) : Host.Outcome State Fault Refusal :=
  let m := mailbox.val
  if !s.host.connected then .next s
  else match tabGet s.host.mbQueue m [] with
    | [] => .next (s.modHost (fun h => { h with mbRespLen := tabSet h.mbRespLen m 0, mbResp := tabSet h.mbResp m [] }))
    | frame :: rest =>
      .next (s.modHost (fun h => { h with
        mbQueue := tabSet h.mbQueue m rest, mbResp := tabSet h.mbResp m frame
        mbRespLen := tabSet h.mbRespLen m (BitVec.ofNat 32 frame.length), vectors := h.vectors ++ [m] }))

end Sys2Proof.Machine
end

