-- ==== Sys2Proof/Machine/Registers.lean ====
section
/-! DEFINITION. Registers without a row of their own: what the host and MC firmware read in BAR0 and at die control addresses, and their
writes (R8, R9, R180 to R193, R824, R825). A write of one that has a row acts as that row. -/

namespace Sys2Proof.Machine

/-! ### BAR0 (R824, R825) -/

/-- Write a control register that has no row: EVT_CONS and the rings; the rest are RO, or reserved space, and ignore it. A ring size
that R825 does not permit leaves the register. -/
def State.writeControl (s : State) (off : Nat) (v : Word) : State :=
  let c := (off - 0x200) / 0x20
  let n := v.toNat
  let sizeOk := n == 0 || (decide (64 ≤ n) && decide (n ≤ 4096) && n == 2 ^ n.log2)
  if off = 0x84 then s.modHost (fun h => { h with evtCons := v })
  else if 0x200 ≤ off ∧ off < 0x280 then
    (match off % 0x20 with
     | 0 => s.setDmaReg c 0 (v &&& 0xFFFFFFC0)
     | 4 => s.setDmaReg c 1 v
     | 8 => if sizeOk then s.setDmaReg c 2 v else s
     | _ => s)
  else s

/-- Write a word of a mailbox's request buffer (R824, R826). -/
def State.writeMailbox (s : State) (off : Nat) (v : Word) : State :=
  let m := off / 0x2000
  let o := off % 0x2000
  if o < 0x1000 then
    let old := fitBytes 4096 (tabGet s.host.mbReq m [])
    s.modHost (fun h => { h with mbReq := tabSet h.mbReq m (old.take o ++ natLe 4 v.toNat ++ old.drop (o + 4)) })
  else s

/-- A write by the host to a BAR0 offset, a multiple of 4 B. -/
def State.writeBar0 (s : State) (off : Nat) (v : Word) : Host.Outcome State Fault Refusal :=
  if 0x4000000 ≤ off then .fault (.noSuchRegister off)
  else if !s.host.connected || off % 4 != 0 then .next s
  else if off = 0x10 then execPwrDoorbell v s
  else if 0x40 ≤ off ∧ off < 0x80 then execDoorbell (Fin.ofNat 16 ((off - 0x40) / 4)) s
  else if off = 0x100 then execWinBase false v s
  else if off = 0x104 then execWinBase true v s
  else if 0x200 ≤ off ∧ off < 0x280 ∧ off % 0x20 = 0xC then execDmaProd (Fin.ofNat 4 ((off - 0x200) / 0x20)) v s
  else if 0x400 ≤ off ∧ off < 0x480 ∧ off % 0x10 = 0 then execMbReqLen (Fin.ofNat 8 ((off - 0x400) / 0x10)) v.toNat s
  else if 0x400 ≤ off ∧ off < 0x480 ∧ off % 0x10 = 8 then execMbRespAck (Fin.ofNat 8 ((off - 0x400) / 0x10)) s
  else if off < 0x10000 then .next (s.writeControl off v)
  else if off < 0x20000 then .next (s.writeMailbox (off - 0x10000) v)
  else .next s

/-- A word of some bytes at an offset, 0 past their end. -/
def wordAt (bs : List Byte) (off : Nat) : Word := BitVec.ofNat 32 (leNat (fitBytes 4 (bs.drop off)))

/-- A control register as the host reads it; WO registers and reserved offsets read 0 (R8, R9, R825). BUSY reads 0: the MC copies a
frame at once (R826). -/
def State.readControl (s : State) (off : Nat) : Word :=
  let h := s.host
  let dma := fun (f : Nat) => tabGet h.dma (8 * ((off - 0x200) / 0x20) + f) 0
  let m := (off - 0x400) / 0x10
  if off = 0x00 then 0x00481F48
  else if off = 0x04 then BitVec.ofNat 32 h.rates
  else if off = 0x80 then h.evtProd
  else if off = 0x84 then h.evtCons
  else if off = 0x88 then h.evtLost
  else if off = 0x100 then h.winBaseLo
  else if off = 0x104 then h.winBaseHi
  else if off = 0x108 then h.winStatus
  else if off = 0x10C then h.winErrors
  else if 0x200 ≤ off ∧ off < 0x280 then
    (match off % 0x20 with
     | 0x00 => dma 0
     | 0x04 => dma 1
     | 0x08 => dma 2
     | 0x0C => dma 3
     | 0x10 => dma 4
     | _ => 0)
  else if 0x400 ≤ off ∧ off < 0x480 then
    (match off % 0x10 with
     | 0x4 => tabGet h.mbRespLen m 0
     | 0xC => BitVec.ofNat 32 (2 * flag (h.mbLenErr.contains m) + 256 * (tabGet h.mbQueue m []).length)
     | _ => 0)
  else 0

/-- A read by the host at a BAR0 offset, a multiple of 4 B (R824): control registers, mailboxes, the event window; all else is
reserved and reads 0. -/
def State.readBar0 (s : State) (off : Nat) : Word :=
  if off < 0x10000 then s.readControl off
  else if off < 0x20000 then
    let m := (off - 0x10000) / 0x2000
    let o := (off - 0x10000) % 0x2000
    if o < 0x1000 then wordAt (tabGet s.host.mbReq m []) o else wordAt (tabGet s.host.mbResp m []) (o - 0x1000)
  else if 0x100000 ≤ off ∧ off < 0x140000 then wordAt (tabGet s.host.events ((off - 0x100000) / 64) []) ((off - 0x100000) % 64)
  else 0

/-! ### Die control addresses (R180, R181, R188) -/

/-- CORE_SLOTS of a core (R181): slots assigned, and slots parked or unassigned. -/
def State.coreSlots (s : State) (c : Nat) : Nat :=
  (List.range 4).foldl (fun m k =>
    let x := s.slot (4 * c + k)
    m + flag x.assigned * 2 ^ k + flag (!x.assigned || x.st == .parked) * 2 ^ (k + 4)) 0

/-- A core register as MC firmware reads it (R181); in confidential mode the counters read 0 (R182), and reserved offsets read 0. -/
def State.readCore (s : State) (c off : Nat) : Word :=
  let k := s.core c
  let counter := fun (v : Word) => if s.sec.confidential then 0 else v
  match off with
  | 0x000 => BitVec.ofNat 32 c
  | 0x004 => k.mode
  | 0x008 => BitVec.ofNat 32 (s.coreSlots c)
  | 0x010 => counter k.busyM0
  | 0x014 => counter k.busyM1
  | 0x018 => counter k.busyV
  | 0x01C => counter k.busyX
  | 0x020 => counter k.preempts
  | _ => 0

/-- A read by MC firmware at a die control address of a core or slot; FTIME_LO has a row (R180, R192). -/
def State.readDie (s : State) (a : Nat) : Word :=
  let c := 8 * ((a - 0x2000000) / 0x10000) + (a - 0x2000000) / 0x1000 % 16
  let off := a % 0x1000
  if off < 0x100 then s.readCore c off
  else if 0x400 ≤ off ∧ off < 0x800 then s.slotReg (4 * c + (off - 0x400) / 0x100) (off % 0x100)
  else 0

/-- Core registers that are RO or WC; CORE_MODE has a row. -/
def coreRegisters : List Nat := [0x000, 0x008, 0x010, 0x014, 0x018, 0x01C, 0x020]

/-- Write a core register: a WC counter is cleared (R182), an RO one stands. -/
def Core.writeReg (k : Core) (off : Nat) : Core :=
  match off with
  | 0x010 => { k with busyM0 := 0 }
  | 0x014 => { k with busyM1 := 0 }
  | 0x018 => { k with busyV := 0 }
  | 0x01C => { k with busyX := 0 }
  | 0x020 => { k with preempts := 0 }
  | _ => k

/-- Is an offset of a slot's block one of its registers (R188). -/
def slotRegister (off : Nat) : Bool :=
  off % 4 == 0 && (decide (off ≤ 0x20) || (decide (0x30 ≤ off) && decide (off ≤ 0x44)) || (decide (0x80 ≤ off) && decide (off ≤ 0xFC)))

/-- A write by MC firmware to a die control address. -/
def State.writeDie (s : State) (a : Nat) (v : Word) : Host.Outcome State Fault Refusal :=
  let cluster := (a - 0x2000000) / 0x10000
  let core := (a - 0x2000000) / 0x1000 % 16
  let off := a % 0x1000
  let c := 8 * cluster + core
  if a < 0x2000000 ∨ 6 ≤ cluster ∨ 8 ≤ core then .fault (.noSuchRegister a)
  else if off = 0x004 then execCoreModeWrite { cluster := Fin.ofNat 6 cluster, core := Fin.ofNat 8 core } v s
  else if coreRegisters.contains off then .next (s.modCore c (fun k => k.writeReg off))
  else if 0x400 ≤ off ∧ off < 0x800 ∧ slotRegister (off % 0x100) then
    .next (if slotWritable (off % 0x100) then
      s.modSlot (4 * c + (off - 0x400) / 0x100) (fun x => x.writeReg (off % 0x100) v) else s)
  else .fault (.noSuchRegister a)

/-- REGISTER_WRITE. -/
def execRegisterWrite (bar0 : Bool) (address : Nat) (value : Word) (s : State) : Host.Outcome State Fault Refusal :=
  if bar0 then s.writeBar0 address value else s.writeDie address value

end Sys2Proof.Machine
end

