-- ==== Sys2Proof/Machine/Dispatch.lean ====
section
/-! DEFINITION. One arm per command: the meaning it runs, or the refusal of one that has no meaning yet. -/

namespace Sys2Proof.Machine

/-- The effect of a command on everything but the queue. -/
def exec (i : Instr) (s : State) : Host.Outcome State Fault Refusal :=
  match i with
  | .nop u w => Sys2Proof.Machine.execNop u w s
  | .wait u w => Sys2Proof.Machine.execWait u w s
  | .signal u w => Sys2Proof.Machine.execSignal u w s
  | .pegTake u w => Sys2Proof.Machine.execPegTake u w s
  | .pegGive u w => Sys2Proof.Machine.execPegGive u w s
  | .park u w => Sys2Proof.Machine.execPark u w s
  | .loop u w => Sys2Proof.Machine.execLoop u w s
  | .branch u w => Sys2Proof.Machine.execBranch u w s
  | .fence u w => Sys2Proof.Machine.execFence u w s
  | .event u w => Sys2Proof.Machine.execEvent u w s
  | .setreg u w => Sys2Proof.Machine.execSetreg u w s
  | .addreg u w => Sys2Proof.Machine.execAddreg u w s
  | .pset u w => Sys2Proof.Machine.execPset u w s
  | .slotRd u w => Sys2Proof.Machine.execSlotRd u w s
  | .slotWr u w => Sys2Proof.Machine.execSlotWr u w s
  | .stop u w => Sys2Proof.Machine.execStop u w s
  | .mma u w => Sys2Proof.Machine.execMma u w s
  | .accZero u w => Sys2Proof.Machine.execAccZero u w s
  | .accMove u w => Sys2Proof.Machine.execAccMove u w s
  | .vadd u w => Sys2Proof.Machine.execVadd u w s
  | .vsub u w => Sys2Proof.Machine.execVsub u w s
  | .vmul u w => Sys2Proof.Machine.execVmul u w s
  | .vfma u w => Sys2Proof.Machine.execVfma u w s
  | .vmax u w => Sys2Proof.Machine.execVmax u w s
  | .vmin u w => Sys2Proof.Machine.execVmin u w s
  | .vcmp u w => Sys2Proof.Machine.execVcmp u w s
  | .vsel u w => Sys2Proof.Machine.execVsel u w s
  | .vcvt u w => Sys2Proof.Machine.execVcvt u w s
  | .vexp u w => Sys2Proof.Machine.execVexp u w s
  | .vexp2 u w => Sys2Proof.Machine.execVexp2 u w s
  | .vlog2 u w => Sys2Proof.Machine.execVlog2 u w s
  | .vrcp u w => Sys2Proof.Machine.execVrcp u w s
  | .vrsqrt u w => Sys2Proof.Machine.execVrsqrt u w s
  | .vdiv u w => Sys2Proof.Machine.execVdiv u w s
  | .vtanh u w => Sys2Proof.Machine.execVtanh u w s
  | .vsigm u w => Sys2Proof.Machine.execVsigm u w s
  | .vsilu u w => Sys2Proof.Machine.execVsilu u w s
  | .vgelu u w => Sys2Proof.Machine.execVgelu u w s
  | .vrsum u w => Sys2Proof.Machine.execVrsum u w s
  | .vrmax u w => Sys2Proof.Machine.execVrmax u w s
  | .vrssq u w => Sys2Proof.Machine.execVrssq u w s
  | .vtrans u w => Sys2Proof.Machine.execVtrans u w s
  | .xcopy u w => Sys2Proof.Machine.execXcopy u w s
  | .xgather u w => Sys2Proof.Machine.execXgather u w s
  | .xscatter u w => Sys2Proof.Machine.execXscatter u w s
  | .xchain u w => Sys2Proof.Machine.execXchain u w s
  | .xqread u w => Sys2Proof.Machine.execXqread u w s
  | .xqflush u w => Sys2Proof.Machine.execXqflush u w s
  | .xfill u w => Sys2Proof.Machine.execXfill u w s
  | .wconv u w => Sys2Proof.Machine.execWconv u w s
  | .wpool u w => Sys2Proof.Machine.execWpool u w s
  | .wexpand u w => Sys2Proof.Machine.execWexpand u w s
  | .whalo u w => Sys2Proof.Machine.execWhalo u w s
  | .kvapp u w => Sys2Proof.Machine.execKvapp u w s
  | .kvscore u w => Sys2Proof.Machine.execKvscore u w s
  | .kvsel u w => Sys2Proof.Machine.execKvsel u w s
  | .kvattn u w => Sys2Proof.Machine.execKvattn u w s
  | .kvpref u w => Sys2Proof.Machine.execKvpref u w s
  | .kvsketch u w => Sys2Proof.Machine.execKvsketch u w s
  | .rcell u w => Sys2Proof.Machine.execRcell u w s
  | .rproj u w => Sys2Proof.Machine.execRproj u w s
  | .rscan u w => Sys2Proof.Machine.execRscan u w s
  | .rckpt u w => Sys2Proof.Machine.execRckpt u w s
  | .rswapOut u w => Sys2Proof.Machine.execRswapOut u w s
  | .rswapIn u w => Sys2Proof.Machine.execRswapIn u w s
  | .rswapRevoke u w => Sys2Proof.Machine.execRswapRevoke u w s
  | .fwrite u w => Sys2Proof.Machine.execFwrite u w s
  | .fread u w => Sys2Proof.Machine.execFread u w s
  | .fmsg u w => Sys2Proof.Machine.execFmsg u w s
  | .fcollAllreduce u w => Sys2Proof.Machine.execFcollAllreduce u w s
  | .fcollReduce u w => Sys2Proof.Machine.execFcollReduce u w s
  | .fcollBroadcast u w => Sys2Proof.Machine.execFcollBroadcast u w s
  | .fglobalBarrier u w => Sys2Proof.Machine.execFglobalBarrier u w s
  | .fglobalBroadcast u w => Sys2Proof.Machine.execFglobalBroadcast u w s
  | .engineStepEnd c e cycles => Sys2Proof.Machine.execEngineStepEnd c e cycles s
  | .commandComplete u e => Sys2Proof.Machine.execCommandComplete u e s
  | .divApply c => Sys2Proof.Machine.execDivApply c s
  | .donationQuantumExpiry cluster peg => Sys2Proof.Machine.execDonationQuantumExpiry cluster peg s
  | .eventPulseArrive cluster line => Sys2Proof.Machine.execEventPulseArrive cluster line s
  | .slotWake u => Sys2Proof.Machine.execSlotWake u s
  | .xchainEntryStart u => Sys2Proof.Machine.execXchainEntryStart u s
  | .readResponse tag poison found line => Sys2Proof.Machine.execReadResponse tag poison found line s
  | .writeCommitAck tag => Sys2Proof.Machine.execWriteCommitAck tag s
  | .quotaStallTimeout pitch => Sys2Proof.Machine.execQuotaStallTimeout pitch s
  | .watchdogExpiry u => Sys2Proof.Machine.execWatchdogExpiry u s
  | .teardownComplete pitch => Sys2Proof.Machine.execTeardownComplete pitch s
  | .heatHalving bc => Sys2Proof.Machine.execHeatHalving bc s
  | .migrationSwitch page => Sys2Proof.Machine.execMigrationSwitch page s
  | .promotionTileArrive page tile readable => Sys2Proof.Machine.execPromotionTileArrive page tile readable s
  | .lazyPageFree page => Sys2Proof.Machine.execLazyPageFree page s
  | .periodicCheckpoint set => Sys2Proof.Machine.execPeriodicCheckpoint set s
  | .checkpointCommit set => Sys2Proof.Machine.execCheckpointCommit set s
  | .budgetDayStart => Sys2Proof.Machine.execBudgetDayStart s
  | .flashProgramFail channel die plane block => Sys2Proof.Machine.execFlashProgramFail channel die plane block s
  | .journalReplay durationMs => Sys2Proof.Machine.execJournalReplay durationMs s
  | .scrubSlice cls found => Sys2Proof.Machine.execScrubSlice cls found s
  | .sramSweep cluster found => Sys2Proof.Machine.execSramSweep cluster found s
  | .groundsheetSweep found => Sys2Proof.Machine.execGroundsheetSweep found s
  | .ceWindow => Sys2Proof.Machine.execCeWindow s
  | .faultLogCommit => Sys2Proof.Machine.execFaultLogCommit s
  | .lifetimeCommit => Sys2Proof.Machine.execLifetimeCommit s
  | .islandBrownout island => Sys2Proof.Machine.execIslandBrownout island s
  | .islandReturn island => Sys2Proof.Machine.execIslandReturn island s
  | .coreHeartbeatMiss c => Sys2Proof.Machine.execCoreHeartbeatMiss c s
  | .flashDieFault channel die => Sys2Proof.Machine.execFlashDieFault channel die s
  | .audioBlockCommit stream => Sys2Proof.Machine.execAudioBlockCommit stream s
  | .queueFlushEffect queue => Sys2Proof.Machine.execQueueFlushEffect queue s
  | .staleTailNotice queue => Sys2Proof.Machine.execStaleTailNotice queue s
  | .replayBlock stream => Sys2Proof.Machine.execReplayBlock stream s
  | .l0Frame scores => Sys2Proof.Machine.execL0Frame scores s
  | .l1Hop scores => Sys2Proof.Machine.execL1Hop scores s
  | .stageWake => Sys2Proof.Machine.execStageWake s
  | .stageTimeout stage => Sys2Proof.Machine.execStageTimeout stage s
  | .dropGraceExpiry => Sys2Proof.Machine.execDropGraceExpiry s
  | .wakeOutHoldExpiry => Sys2Proof.Machine.execWakeOutHoldExpiry s
  | .lanternBrownout => Sys2Proof.Machine.execLanternBrownout s
  | .glimpseFrame stamp luma => Sys2Proof.Machine.execGlimpseFrame stamp luma s
  | .playbackBlockDue => Sys2Proof.Machine.execPlaybackBlockDue s
  | .csiFrameStart port vc check => Sys2Proof.Machine.execCsiFrameStart port vc check s
  | .csiFrameEnd port vc check => Sys2Proof.Machine.execCsiFrameEnd port vc check s
  | .csiLongPacket port vc dataType check payload crcOk => Sys2Proof.Machine.execCsiLongPacket port vc dataType check payload crcOk s
  | .frameTimeout ctx => Sys2Proof.Machine.execFrameTimeout ctx s
  | .lineArbitration => Sys2Proof.Machine.execLineArbitration s
  | .bandCommit ctx out => Sys2Proof.Machine.execBandCommit ctx out s
  | .fsyncPulse rising => Sys2Proof.Machine.execFsyncPulse rising s
  | .cciTransferDone bus status data => Sys2Proof.Machine.execCciTransferDone bus status data s
  | .portTrainingDone port farModule farPort => Sys2Proof.Machine.execPortTrainingDone port farModule farPort s
  | .portDown port lane => Sys2Proof.Machine.execPortDown port lane s
  | .portTrainingRetry port => Sys2Proof.Machine.execPortTrainingRetry port s
  | .flitCrcError port seq => Sys2Proof.Machine.execFlitCrcError port seq s
  | .packetForward port pkt => Sys2Proof.Machine.execPacketForward port pkt s
  | .escapeWaitExpiry index => Sys2Proof.Machine.execEscapeWaitExpiry index s
  | .write pkt => Sys2Proof.Machine.execWrite pkt s
  | .writeAck pkt => Sys2Proof.Machine.execWriteAck pkt s
  | .readReq pkt => Sys2Proof.Machine.execReadReq pkt s
  | .readData pkt => Sys2Proof.Machine.execReadData pkt s
  | .msg pkt => Sys2Proof.Machine.execMsg pkt s
  | .msgCredit pkt => Sys2Proof.Machine.execMsgCredit pkt s
  | .nack pkt => Sys2Proof.Machine.execNack pkt s
  | .eventPacket pkt => Sys2Proof.Machine.execEventPacket pkt s
  | .eventForwardSend cluster line => Sys2Proof.Machine.execEventForwardSend cluster line s
  | .collUp pkt => Sys2Proof.Machine.execCollUp pkt s
  | .collDown pkt => Sys2Proof.Machine.execCollDown pkt s
  | .globalBarrierArrival group module tenant => Sys2Proof.Machine.execGlobalBarrierArrival group module tenant s
  | .globalBarrierRelease group tenant => Sys2Proof.Machine.execGlobalBarrierRelease group tenant s
  | .globalBroadcastPacket group tenant payload => Sys2Proof.Machine.execGlobalBroadcastPacket group tenant payload s
  | .marker port vc => Sys2Proof.Machine.execMarker port vc s
  | .snapshotBroadcast tenant origin => Sys2Proof.Machine.execSnapshotBroadcast tenant origin s
  | .globalReport module => Sys2Proof.Machine.execGlobalReport module s
  | .fabricResetBroadcast => Sys2Proof.Machine.execFabricResetBroadcast s
  | .tenantFenceBroadcast tenant gen origin => Sys2Proof.Machine.execTenantFenceBroadcast tenant gen origin s
  | .guyline module frame => Sys2Proof.Machine.execGuyline module frame s
  | .timePacket t1 t2 t3 t4 => Sys2Proof.Machine.execTimePacket t1 t2 t3 t4 s
  | .timeExchange child => Sys2Proof.Machine.execTimeExchange child s
  | .timeHoldover => Sys2Proof.Machine.execTimeHoldover s
  | .timeRootTakeover root => Sys2Proof.Machine.execTimeRootTakeover root s
  | .uoaRead r index sub param offset => Sys2Proof.Machine.execUoaRead r index sub param offset s
  | .uoaWrite r index sub offset more data => Sys2Proof.Machine.execUoaWrite r index sub offset more data s
  | .uoaWriteNv r index sub param offset more data => Sys2Proof.Machine.execUoaWriteNv r index sub param offset more data s
  | .uoaWriteSigned r index sub data => Sys2Proof.Machine.execUoaWriteSigned r index sub data s
  | .uoaEnumerate r index first => Sys2Proof.Machine.execUoaEnumerate r index first s
  | .uoaSubscribe r data => Sys2Proof.Machine.execUoaSubscribe r data s
  | .uoaUnsubscribe r number => Sys2Proof.Machine.execUoaUnsubscribe r number s
  | .uoaAbort r => Sys2Proof.Machine.execUoaAbort r s
  | .uoaDiscover r => Sys2Proof.Machine.execUoaDiscover r s
  | .uoaHeartbeat onSegment fromManager module node segUp => Sys2Proof.Machine.execUoaHeartbeat onSegment fromManager module node segUp s
  | .proxyResponse worker requestId frame => Sys2Proof.Machine.execProxyResponse worker requestId frame s
  | .proxyTimeout worker requestId => Sys2Proof.Machine.execProxyTimeout worker requestId s
  | .stagedSegmentTimeout r index sub => Sys2Proof.Machine.execStagedSegmentTimeout r index sub s
  | .heartbeatSend => Sys2Proof.Machine.execHeartbeatSend s
  | .segmentDown peer => Sys2Proof.Machine.execSegmentDown peer s
  | .telemetrySnapshot number late => Sys2Proof.Machine.execTelemetrySnapshot number late s
  | .cmdInProgressDone index sub status => Sys2Proof.Machine.execCmdInProgressDone index sub status s
  | .extentDefine r v => Sys2Proof.Machine.execExtentDefine r v s
  | .extentRemove r v => Sys2Proof.Machine.execExtentRemove r v s
  | .pagePin r v => Sys2Proof.Machine.execPagePin r v s
  | .pageFree r v => Sys2Proof.Machine.execPageFree r v s
  | .stateSetCreate r v => Sys2Proof.Machine.execStateSetCreate r v s
  | .stateSetDelete r v => Sys2Proof.Machine.execStateSetDelete r v s
  | .stateSetAttach r v => Sys2Proof.Machine.execStateSetAttach r v s
  | .checkpointNow r v => Sys2Proof.Machine.execCheckpointNow r v s
  | .kvLayoutDefine r v => Sys2Proof.Machine.execKvLayoutDefine r v s
  | .kvLayoutRemove r v => Sys2Proof.Machine.execKvLayoutRemove r v s
  | .kvSeqCreate r v => Sys2Proof.Machine.execKvSeqCreate r v s
  | .kvSeqDrop r v => Sys2Proof.Machine.execKvSeqDrop r v s
  | .stateHandleBind r v => Sys2Proof.Machine.execStateHandleBind r v s
  | .stateHandleRevoke r v => Sys2Proof.Machine.execStateHandleRevoke r v s
  | .stateHandleSwapOut r v => Sys2Proof.Machine.execStateHandleSwapOut r v s
  | .stateHandleSwapIn r v => Sys2Proof.Machine.execStateHandleSwapIn r v s
  | .pitchCreate r v => Sys2Proof.Machine.execPitchCreate r v s
  | .pitchStart r v => Sys2Proof.Machine.execPitchStart r v s
  | .pitchRemove r v => Sys2Proof.Machine.execPitchRemove r v s
  | .pegShare r v => Sys2Proof.Machine.execPegShare r v s
  | .pegUnshare r v => Sys2Proof.Machine.execPegUnshare r v s
  | .pegStatusClear r cluster v => Sys2Proof.Machine.execPegStatusClear r cluster v s
  | .pitchPriorityWrite r pitch v => Sys2Proof.Machine.execPitchPriorityWrite r pitch v s
  | .queueEnable r queue => Sys2Proof.Machine.execQueueEnable r queue s
  | .queueDisable r queue => Sys2Proof.Machine.execQueueDisable r queue s
  | .portEnable r port v => Sys2Proof.Machine.execPortEnable r port v s
  | .snapshotStart r v => Sys2Proof.Machine.execSnapshotStart r v s
  | .fabricReset r v => Sys2Proof.Machine.execFabricReset r v s
  | .tenantFence r v => Sys2Proof.Machine.execTenantFence r v s
  | .eventForwardDefine r cluster v => Sys2Proof.Machine.execEventForwardDefine r cluster v s
  | .eventForwardRemove r cluster v => Sys2Proof.Machine.execEventForwardRemove r cluster v s
  | .collGroupDefine r group v => Sys2Proof.Machine.execCollGroupDefine r group v s
  | .collGroupRemove r group v => Sys2Proof.Machine.execCollGroupRemove r group v s
  | .encStreamAssign r v => Sys2Proof.Machine.execEncStreamAssign r v s
  | .encStreamRelease r v => Sys2Proof.Machine.execEncStreamRelease r v s
  | .encCountersClear r v => Sys2Proof.Machine.execEncCountersClear r v s
  | .kwsModelLoad r v => Sys2Proof.Machine.execKwsModelLoad r v s
  | .glimpseEnable r v => Sys2Proof.Machine.execGlimpseEnable r v s
  | .playbackEnable r v => Sys2Proof.Machine.execPlaybackEnable r v s
  | .cciTransfer r v => Sys2Proof.Machine.execCciTransfer r v s
  | .faultLogClear r v => Sys2Proof.Machine.execFaultLogClear r v s
  | .frameRetire r v => Sys2Proof.Machine.execFrameRetire r v s
  | .lpddrBankRetire r v => Sys2Proof.Machine.execLpddrBankRetire r v s
  | .sramBankRetire r v => Sys2Proof.Machine.execSramBankRetire r v s
  | .coreRetire r v => Sys2Proof.Machine.execCoreRetire r v s
  | .flashDieRetire r v => Sys2Proof.Machine.execFlashDieRetire r v s
  | .retireClear r v => Sys2Proof.Machine.execRetireClear r v s
  | .attestRequest r v => Sys2Proof.Machine.execAttestRequest r v s
  | .attestReportReady => Sys2Proof.Machine.execAttestReportReady s
  | .ephemeralKeyExpiry => Sys2Proof.Machine.execEphemeralKeyExpiry s
  | .sessionOpen r v => Sys2Proof.Machine.execSessionOpen r v s
  | .sessionClose r v => Sys2Proof.Machine.execSessionClose r v s
  | .sessionIdleTimeout session => Sys2Proof.Machine.execSessionIdleTimeout session s
  | .debugUnlock r v => Sys2Proof.Machine.execDebugUnlock r v s
  | .rollbackAdvanceNow r v => Sys2Proof.Machine.execRollbackAdvanceNow r v s
  | .rollbackAdvance => Sys2Proof.Machine.execRollbackAdvance s
  | .tenantCreate r v => Sys2Proof.Machine.execTenantCreate r v s
  | .tenantRemove r v => Sys2Proof.Machine.execTenantRemove r v s
  | .tenantRemoveFabric r v => Sys2Proof.Machine.execTenantRemoveFabric r v s
  | .retentionDaysWrite r tenant v => Sys2Proof.Machine.execRetentionDaysWrite r tenant v s
  | .epochExpire r v => Sys2Proof.Machine.execEpochExpire r v s
  | .rekeyStart r v => Sys2Proof.Machine.execRekeyStart r v s
  | .rekeySweepDone tenant => Sys2Proof.Machine.execRekeySweepDone tenant s
  | .pendingKeyCreate tenant => Sys2Proof.Machine.execPendingKeyCreate tenant s
  | .dayKeyRoll tenant => Sys2Proof.Machine.execDayKeyRoll tenant s
  | .expiryFence entry => Sys2Proof.Machine.execExpiryFence entry s
  | .expiryDrainDone entry => Sys2Proof.Machine.execExpiryDrainDone entry s
  | .expiryDrainCut entry => Sys2Proof.Machine.execExpiryDrainCut entry s
  | .keyStoreCommit => Sys2Proof.Machine.execKeyStoreCommit s
  | .powerFloorSet r v => Sys2Proof.Machine.execPowerFloorSet r v s
  | .powerRequestStowed r => Sys2Proof.Machine.execPowerRequestStowed r s
  | .powerRequestOff r => Sys2Proof.Machine.execPowerRequestOff r s
  | .dozeEntry => Sys2Proof.Machine.execDozeEntry s
  | .lanternEntry => Sys2Proof.Machine.execLanternEntry s
  | .powerEntryStep => Sys2Proof.Machine.execPowerEntryStep s
  | .clusterGate cluster => Sys2Proof.Machine.execClusterGate cluster s
  | .wakeSource cause => Sys2Proof.Machine.execWakeSource cause s
  | .powerReturnStep => Sys2Proof.Machine.execPowerReturnStep s
  | .wakeAtAlarm => Sys2Proof.Machine.execWakeAtAlarm s
  | .powerCapWindow averageMw => Sys2Proof.Machine.execPowerCapWindow averageMw s
  | .thermalInterval temps => Sys2Proof.Machine.execThermalInterval temps s
  | .thermalTrip sensor => Sys2Proof.Machine.execThermalTrip sensor s
  | .vinApply => Sys2Proof.Machine.execVinApply s
  | .vinRemove => Sys2Proof.Machine.execVinRemove s
  | .vlntApply straps => Sys2Proof.Machine.execVlntApply straps s
  | .vcalLoss => Sys2Proof.Machine.execVcalLoss s
  | .refclkLoss => Sys2Proof.Machine.execRefclkLoss s
  | .resetNAssert => Sys2Proof.Machine.execResetNAssert s
  | .resetRelease straps => Sys2Proof.Machine.execResetRelease straps s
  | .updateBegin r v => Sys2Proof.Machine.execUpdateBegin r v s
  | .updatePiece r offset data => Sys2Proof.Machine.execUpdatePiece r offset data s
  | .updateActivate r => Sys2Proof.Machine.execUpdateActivate r s
  | .updateActivateReset r => Sys2Proof.Machine.execUpdateActivateReset r s
  | .activateReset straps => Sys2Proof.Machine.execActivateReset straps s
  | .updateCancel r v => Sys2Proof.Machine.execUpdateCancel r v s
  | .trialConfirm => Sys2Proof.Machine.execTrialConfirm s
  | .roleKeyInstall r v => Sys2Proof.Machine.execRoleKeyInstall r v s
  | .roleKeyReset r v => Sys2Proof.Machine.execRoleKeyReset r v s
  | .nvImageWrite r v => Sys2Proof.Machine.execNvImageWrite r v s
  | .nvClearSection r v => Sys2Proof.Machine.execNvClearSection r v s
  | .calendarSet r v => Sys2Proof.Machine.execCalendarSet r v s
  | .mbReqLen mailbox len => Sys2Proof.Machine.execMbReqLen mailbox len s
  | .mbRespAck mailbox => Sys2Proof.Machine.execMbRespAck mailbox s
  | .pwrDoorbell value => Sys2Proof.Machine.execPwrDoorbell value s
  | .doorbell d => Sys2Proof.Machine.execDoorbell d s
  | .winBase high value => Sys2Proof.Machine.execWinBase high value s
  | .windowPitch r v => Sys2Proof.Machine.execWindowPitch r v s
  | .dmaProd channel value => Sys2Proof.Machine.execDmaProd channel value s
  | .dmaDescriptorDone channel descriptor hostData => Sys2Proof.Machine.execDmaDescriptorDone channel descriptor hostData s
  | .bar2Read offset len => Sys2Proof.Machine.execBar2Read offset len s
  | .bar2Write offset data => Sys2Proof.Machine.execBar2Write offset data s
  | .usb2BulkTransfer frame => Sys2Proof.Machine.execUsb2BulkTransfer frame s
  | .linkCl2Request => Sys2Proof.Machine.execLinkCl2Request s
  | .usb4EnChange level => Sys2Proof.Machine.execUsb4EnChange level s
  | .coreModeWrite c value => Sys2Proof.Machine.execCoreModeWrite c value s
  | .ftimeLoRead u => Sys2Proof.Machine.execFtimeLoRead u s
  | .registerWrite bar0 address value => Sys2Proof.Machine.execRegisterWrite bar0 address value s
  | .vlntRemove => Sys2Proof.Machine.execVlntRemove s
  | .refclkReturn straps => Sys2Proof.Machine.execRefclkReturn straps s
  | .audioSample samples => Sys2Proof.Machine.execAudioSample samples s
  | .usb4LinkConnect hostToModule moduleToHost => Sys2Proof.Machine.execUsb4LinkConnect hostToModule moduleToHost s

end Sys2Proof.Machine
end

