-- ==== Sys2Proof/Machine/Tick.lean ====
section
/-! DEFINITION. A tick of the time base: what goes on in the block with no command waiting (R45, R473, R474, R482, R797, and what waited
under R27, R39 and R558). -/

namespace Sys2Proof.Machine

/-- Flits that the next routers have freed return to their pitches (R474), and what waited for them is sent (R473). -/
def State.returnCredits (s : State) : State :=
  if s.fabric.inFlight.isEmpty && s.fabric.due.isEmpty then s else s.freeFlits.sendDue.serveTags

/-- The tick's nanoseconds are added to the timers that run: the reference clock's own, and the watchdogs (R482). -/
def State.runTimers (s : State) (ns : Nat) : State :=
  ({ s with timers := tabSet s.timers tmRun (tabGet s.timers tmRun 0 + ns) } : State).runWatchdogs ns

/-- What waited goes on as far as it can: credits, packets, the host's requests, a cut. -/
def State.goOnWaiting (s : State) : State := s.returnCredits.serveArrivals.serveAsks.advanceCuts

/-! ### Garbage collection (R297) -/

/-- May tiles be collected: the balance is above 0, or at most 1 % of tier C is free (R297). -/
def State.mayCollect (s : State) : Bool :=
  decide (0 < s.tier.balance) || decide (s.tierCFree * 100 ≤ s.tierCCapacity)

/-- Is a tile of a flash page the valid one of its page, and readable: its page stands in the flash page's stream with no migration in
progress, and this is the tile's last program (R279, R290). -/
def State.validTile (s : State) (f : FlashPage) (t : FlashTile) (g : Page) : Bool :=
  g.stream == f.key && g.migration.isNone && (g.tier == .c || g.cleanCopy.contains t.tile) && !g.unreadable.contains t.tile
    && t.written && t.seq == s.newestSeq t.page t.tile

/-- A valid tile is programmed anew in its stream, and counted. -/
def State.collectTile (s : State) (f : FlashPage) (t : FlashTile) : State :=
  match s.page t.page with
  | some g => if s.validTile f t g then (s.programTiles g [t.tile]).bump Key.flashGcBytes 4096 else s
  | none => s

/-- Garbage collection at a tick: the flash controller may move the valid tiles of one full or closed flash page (DESIGN CHOICE, log entry 31:
whether, and of which, is a free value). -/
def State.collectFlash (s : State) : State :=
  if s.tier.flash.isEmpty || !(s.power.st == .active || s.power.st == .doze) || !s.tier.journalReplayed || !s.up 54 || !s.mayCollect then s
  else
    let (n, t) := s.fresh
    match t.tier.flash[Config.freeNat n % (2 * t.tier.flash.length)]? with
    | some f => if f.isOpen && decide (f.tiles.length < 4) then t else f.tiles.foldl (fun (u : State) k => u.collectTile f k) t
    | none => t

/-- What the block does with no command waiting: a tick of the time base where it runs (R45), what waited, what counts at a second, and
what slots fetch. -/
def State.idle (s : State) : State :=
  if !s.timeRuns then s
  else
    let u := s.tick
    let t := (u.runTimers (u.time - s.time)).goOnWaiting.collectFlash
    let t1 := if s.time / 1000000000 < t.time / 1000000000 then t.countSecond else t
    (t1.slots.map (·.1)).foldl State.rejectReserved t1

end Sys2Proof.Machine
end

