-- ==== Sys2Proof/WellFormed.lean ====
section
/-! DEFINITION. Which commands are well-formed: operands within the widths that the spec gives them. A step does not ask
it: an operand outside its width is a value that no sender of the spec can send. -/

namespace Sys2Proof

/-- A unit address within its field widths (R31). -/
def UnitAddr.wf (u : UnitAddr) : Bool :=
  decide (u.module < 32768) && decide (u.cluster < 8) && decide (u.core < 8) && decide (u.slot < 4)
    && decide (u.roleEpoch < 65536)

/-- A packet within its header's field widths (R516), with at most 4,096 B of payload and its trailer. -/
def Packet.wf (p : Packet) : Bool :=
  p.dstUnit.wf && p.srcUnit.wf && decide (p.addr < 2 ^ 48) && decide (p.dstModule < 32768) && decide (p.dstPitch < 32)
    && decide (p.tenant < 65536) && decide (p.tag < 131072) && decide (p.len ≤ 4096) && decide (p.vc < 8)
    && decide (p.code < 256) && decide (p.enc < 16) && decide (p.rowLen < 8192) && decide (p.rows < 1024)
    && decide (p.group < 64) && decide (p.seq < 65536) && decide (p.pktIndex < 4096) && decide (p.cop < 8)
    && decide (p.rop < 8) && decide (p.gop < 8) && decide (p.line < 256) && decide (p.creditPeg < 8192)

/-- A dictionary request within its header's field widths (R782). -/
def Req.wf (r : Req) : Bool :=
  decide (r.session < 2 ^ 32) && decide (r.requestId < 2 ^ 32) && decide (r.target < 65536)

/-- Every operand of a command within its width. -/
def Instr.wf (i : Instr) : Bool :=
  match i with
  | .donationQuantumExpiry _ peg => decide (peg < 1024)
  | .eventPulseArrive _ line => decide (line < 256)
  | .eventForwardSend _ line => decide (line < 256)
  | .readResponse tag poison _ location => decide (location < 2 ^ 36) && decide (tag < 131072) && poison.elim true (fun c => decide (c < 256))
  | .writeCommitAck tag => decide (tag < 131072)
  | .quotaStallTimeout p => decide (p < 32)
  | .teardownComplete p => decide (p < 32)
  | .islandBrownout k => decide (k < 64)
  | .islandReturn k => decide (k < 64)
  | .staleTailNotice _ => true
  | .packetForward _ p => p.wf
  | .write p => p.wf && p.kind == .write
  | .writeAck p => p.wf && p.kind == .writeAck
  | .readReq p => p.wf && p.kind == .readReq
  | .readData p => p.wf && p.kind == .readData
  | .msg p => p.wf && p.kind == .msg
  | .msgCredit p => p.wf && p.kind == .msgCredit
  | .nack p => p.wf && p.kind == .nack
  | .eventPacket p => p.wf && p.kind == .event
  | .collUp p => p.wf && p.kind == .collUp
  | .collDown p => p.wf && p.kind == .collDown
  | .globalBarrierArrival g m t => decide (g < 64) && decide (m < 32768) && decide (t < 65536)
  | .globalBarrierRelease g t => decide (g < 64) && decide (t < 65536)
  | .globalBroadcastPacket g t p => decide (g < 64) && decide (t < 65536) && decide (p.length ≤ 192)
  | .marker _ vc => decide (vc < 8)
  | .snapshotBroadcast t o => decide (t < 64) && decide (o < 32768)
  | .tenantFenceBroadcast t g o => decide (t < 64) && decide (g < 1024) && decide (o < 32768)
  | .globalReport m => decide (m < 32768)
  | .uoaRead r i sub param _ => r.wf && decide (i < 65536) && decide (sub < 256) && decide (param < 256)
  | .uoaWrite r i sub _ _ d => r.wf && decide (i < 65536) && decide (sub < 256) && decide (d.length ≤ 1024)
  | .uoaWriteNv r i sub p _ _ d => r.wf && decide (i < 65536) && decide (sub < 256) && decide (p < 256) && decide (d.length ≤ 1024)
  | .uoaWriteSigned r i sub d => r.wf && decide (i < 65536) && decide (sub < 256) && decide (d.length ≤ 1024)
  | .uoaEnumerate r i p => r.wf && decide (i < 65536) && decide (p < 256)
  | .audioSample xs => decide (xs.length = 24) && xs.all (fun x => decide (-8388608 ≤ x) && decide (x < 8388608))
  | .l0Frame xs => decide (xs.length = 4)
  | .l1Hop xs => decide (xs.length = 4) && xs.all (fun x => decide (x < 256))
  | .mbReqLen _ n => decide (n < 2 ^ 32)
  | .bar2Read _ n => decide (1 ≤ n) && decide (n ≤ 4096)
  | .registerWrite _ a _ => decide (a < 2 ^ 32)
  | _ => true

end Sys2Proof
end

