-- ==== Sys2Proof/Safety.lean ====
section
/-! DEFINITION. The conditions and the views of a state in which the statements are made: when a command of a slot may issue and
with what, when a dictionary request is heard and accepted, the rows of the engine commands, and the canonical form of the memories. -/

namespace Sys2Proof.Machine

/-! ### Memories and the queue -/

/-- Every addressed memory of the block is in canonical form. -/
def State.memWf (s : State) : Bool :=
  s.cores.all (fun e => e.2.scratch.wf && e.2.acc.wf) && s.clusters.all (fun e => e.2.sram.wf)

/-- Every command that waits is well-formed. -/
def State.queueWf (s : State) : Bool := s.pending.all Instr.wf

/-- Nothing waits that a tick would bring on: no flit in flight, no packet, request or cut, no flash page to collect, no watchdog that
runs, no slot that could fetch. -/
def State.quiet (s : State) : Bool :=
  s.fabric.inFlight.isEmpty && s.fabric.due.isEmpty && s.fabric.arrivals.isEmpty && s.host.asks.isEmpty && s.fabric.cut.isNone
    && s.tier.flash.isEmpty
    && s.slots.all (fun e => !s.watchdogRuns e.1 && !s.canIssue e.1)

/-- What a step answers, where it is a next state. -/
def nextOf (o : Host.Outcome State Fault Refusal) : Option State :=
  match o with
  | .next t => some t
  | _ => none

/-! ### Commands of a slot (chapter 03) -/

/-- The state in which a command acts: fetched into its slot's buffer, where a loop holds it (R142). -/
def State.fetched (s : State) (u : SlotRef) (w : CmdWord) (opcode : Nat) : State := s.fetch (slotIndex u) opcode w.toNat

/-- The command of opcode `opcode` is fetched: the slot may issue (R27, R116), its buffer holds no other command at its position, and the
command's line is not poisoned (R126, R127, R659). -/
def State.fetches (s : State) (u : SlotRef) (w : CmdWord) (opcode : Nat) : Bool :=
  s.canIssue (slotIndex u) && (s.slot (slotIndex u)).fits opcode w.toNat && (s.fetchPoison (slotIndex u)).2.isNone

/-- The command is fetched and it is its slot's turn: no ready slot comes before it (R128). -/
def State.mayIssue (s : State) (u : SlotRef) (w : CmdWord) (opcode : Nat) : Bool :=
  s.fetches u w opcode && (s.fetched u w opcode).turn (slotIndex u)

/-- State memory can be asked: the journal is replayed and the tier unit is up (R27, R295). -/
def State.stateServed (s : State) : Bool := s.tier.journalReplayed && s.up 54

/-- A control command issues: it is fetched and its turn, the predicate holds (R118), and the form is that of R139: no flags, an
operand kind among `kinds`, ARGS zero outside `fields`. -/
def State.controlReady (s : State) (u : SlotRef) (w : CmdWord) (opcode : Nat) (kinds : List Nat) (fields : List (Nat × Nat)) : Bool :=
  s.mayIssue u w opcode && (s.slot (slotIndex u)).predicate w.toNat && !cwDesc w.toNat && !cwDesc128 w.toNat
    && !cwDone w.toNat && !cwPre w.toNat && kinds.contains (cwKind w.toNat) && opndFormed w.toNat
    && onlyBits (cwArgs w.toNat) fields

/-- The slot's next command is skipped: it is fetched, it is its turn, and the predicate does not hold (R118). -/
def State.skips (s : State) (u : SlotRef) (w : CmdWord) (opcode : Nat) : Bool :=
  s.mayIssue u w opcode && !(s.slot (slotIndex u)).predicate w.toNat

/-- The peg that a command names is one that the slot may wait on: of its own cluster and usable by its pitch (R146, R147). -/
def State.pegHere (s : State) (u : SlotRef) (w : CmdWord) : Bool :=
  s.mayUsePeg (s.slot (slotIndex u)).pitch (cwOpnd w.toNat) && cwOpnd w.toNat / 1024 == clusterOfSlot (slotIndex u)

/-- The value of the peg that a command names. -/
def State.namedPeg (s : State) (w : CmdWord) : Nat := (s.peg (cwOpnd w.toNat / 1024) (cwOpnd w.toNat % 1024)).value.toNat

/-- An engine command of opcode `opcode` issues: all that R118 to R127 ask before its work begins. The answer is the descriptor
(or ARGS), its engines, whether it names either matrix engine, and the state once PRE_WAIT is met; none where it does not. -/
def State.engineReady (s : State) (u : SlotRef) (w : CmdWord) (opcode : Nat) (form : Form)
    (engines : Nat → List Engine × Bool) : Option (Nat × List Engine × Bool × State) :=
  let i := slotIndex u
  let n := w.toNat
  let t := s.fetched u w opcode
  if s.mayIssue u w opcode && (s.slot i).predicate n && (decide (opcode < 0x60) || t.stateServed)
      && formOk form n && t.opndAllowed i n then
    match t.readDesc i n form with
    | .error _ => none
    | .ok d =>
      if t.slotBusy i (engines d).1 then none
      else match t.preWait i n with
        | (_, false) => none
        | (s1, true) =>
          if s1.tagCurrent (s1.pitch (s.slot i).pitch).tenantTag then some (d, (engines d).1, (engines d).2, s1) else none
  else none

/-- The work with which a command enters: its descriptor recorded for its later steps, and a hold for tier B space ended (R301). -/
def entering (s : State) (u : SlotRef) (d : Nat) (k : Work) : Work :=
  { k with s := k.s.settleHold (s.slot (slotIndex u)).pitch (s.slot (slotIndex u)).hold, words := d }

/-- An engine command of opcode `opcode` completes its issue wherever it is ready and its work meets no fault and no stall: the
next state is that of its work, with the command recorded on its engines, then `after` (the first packet of a transfer, a grant of
a handle, a group's arrivals). `mine` tells the descriptors of this row where rows share an opcode. -/
def EngineIssues (cmd : SlotRef → CmdWord → Instr) (opcode : Nat) (form : Form) (engines : Nat → List Engine × Bool)
    (work : State → Nat → Nat → Work) (mine : Nat → Bool := fun _ => true)
    (after : SlotRef → State → State := fun _ t => t) : Prop :=
  ∀ (u : SlotRef) (w : CmdWord) (s : State) (d : Nat) (es : List Engine) (either : Bool) (s1 : State),
    s.engineReady u w opcode form engines = some (d, es, either, s1) → mine d = true →
    (work s1 (slotIndex u) d).err = none → (work s1 (slotIndex u) d).stall = none →
    exec (cmd u w) s = .next (after u (State.enter (slotIndex u) w.toNat opcode es either (entering s u d (work s1 (slotIndex u) d))))

/-- Commands of a slot, with consecutive opcodes from `first`. -/
def opcodesFrom (first : Nat) (cmds : List (SlotRef → CmdWord → Instr)) : List (Nat × (SlotRef → CmdWord → Instr)) :=
  cmds.zipIdx.map (fun e => (first + e.2, e.1))

/-- The slot commands that have an opcode of their own (RSWAP, FCOLL and FGLOBAL have one for several rows), with it (R124). -/
def slotCommands : List (Nat × (SlotRef → CmdWord → Instr)) :=
  opcodesFrom 0x00 [.nop, .wait, .signal, .pegTake, .pegGive, .park, .loop, .branch, .fence, .event, .setreg, .addreg, .pset, .slotRd,
      .slotWr, .stop] ++
  opcodesFrom 0x20 [.mma, .accZero, .accMove] ++
  opcodesFrom 0x40 [.vadd, .vsub, .vmul, .vfma, .vmax, .vmin, .vcmp, .vsel, .vcvt, .vexp, .vexp2, .vlog2, .vrcp, .vrsqrt, .vdiv, .vtanh,
      .vsigm, .vsilu, .vgelu, .vrsum, .vrmax, .vrssq, .vtrans] ++
  opcodesFrom 0x60 [.xcopy, .xgather, .xscatter, .xchain, .xqread, .xqflush, .xfill] ++
  opcodesFrom 0x80 [.wconv, .wpool, .wexpand, .whalo] ++
  opcodesFrom 0x90 [.kvapp, .kvscore, .kvsel, .kvattn, .kvpref, .kvsketch] ++
  opcodesFrom 0xA1 [.rproj] ++
  opcodesFrom 0xB0 [.fwrite, .fread, .fmsg]

/-- The vector engine alone. -/
def vecOnly (_ : Nat) : List Engine × Bool := ([.vec], false)

/-- A vector command issues, and its opcode has that shape and that function. -/
def VectorIssues (cmd : SlotRef → CmdWord → Instr) (opcode : Nat) (f : VecForm) (fn : VecFn) : Prop :=
  EngineIssues cmd opcode .d64 vecOnly (State.vecWork opcode) ∧ vecOp opcode = (f, fn)

/-- A transfer begins with its first packet (R213). -/
def firstPacket (u : SlotRef) (t : State) : State := t.pushMove (slotIndex u)

/-- Grant the handles whose hold is free (R394). -/
def State.grantHandles (s : State) : State := (s.tier.handles.map (·.1)).foldl State.grant s

/-! ### Requests to the object dictionary (chapter 16) -/

/-- A request reaches its serving: the MC runs, the request is for this module, no kept response answers it, and its caller is
known (R783, R788, R793). -/
def State.hears (s : State) (r : Req) (h : Head) (c : Caller) : Bool :=
  s.mcOn && !(s.countSegment r.path).isProxied r && ((s.countSegment r.path).keptFor r h).isNone
    && (s.countSegment r.path).callerOf r == some c

/-- The state in which a request that reaches its serving is served: it is counted. -/
def State.asked (s : State) (r : Req) : State := (s.countSegment r.path).bump Key.uoaRequests

/-- The header of a WRITE of an object. -/
def writeHead (key : Nat) : Head := { op := 2, index := key / 256, sub := key % 256 }

/-- The header of a WRITE_SIGNED of an object. -/
def signedHead (key : Nat) : Head := { op := 4, index := key / 256, sub := key % 256 }

/-- A write of a CMD object is taken up: the object exists, the caller's role reaches it, the value has its length, a BOOL is 1,
and no such command is in progress (R766 to R771, R787, R873). -/
def State.cmdOpen (s : State) (c : Caller) (key min : Nat) (v : List Byte) : Bool :=
  match objRow key with
  | none => false
  | some row => decide (min ≤ c.role.rank)
    && (row.ty == .domain || row.ty == .string || v.length == max 1 (row.ty.width / 8))
    && (row.ty != .domain || row.size == 0 || v.length == row.size) && (row.ty != .bool || leNat v == 1)
    && !s.mgmt.inProgress.any (·.2 == key)

/-- A write of a scalar object is taken up: its role, its length and a value that the object permits (R766, R767, R771). -/
def State.scalarOpen (s : State) (c : Caller) (key min : Nat) (v : List Byte) : Bool :=
  match objRow key with
  | none => false
  | some row => decide (min ≤ c.role.rank) && v.length == max 1 (row.ty.width / 8) && (row.ty != .bool || decide (leNat v ≤ 1))
    && s.permits row (leNat v)

/-- A CMD write completes wherever it is heard and taken up and `ok` holds of the state, the caller and the value: it has its effect
and is answered with STATUS `st`; one answered IN_PROGRESS runs on for its request (R787). -/
def CmdCompletes (cmd : Req → List Byte → Instr) (key min : Nat) (ok : State → Caller → List Byte → Bool)
    (effect : State → Caller → List Byte → State) (st : Nat := stOk) : Prop :=
  ∀ (s : State) (r : Req) (v : List Byte) (c : Caller),
    s.hears r (writeHead key) c = true → (s.asked r).cmdOpen c key min v = true → ok (s.asked r) c v = true →
    exec (cmd r v) s = .next (((effect (s.asked r) c v).noteProgress r key st).answer r (writeHead key) st [] false)

/-- A CMD write completes wherever it is heard and taken up and `ok` holds: its effect and its STATUS are those of `act`, which may
turn on a measurement or a verification. -/
def CmdAnswers (cmd : Req → List Byte → Instr) (key min : Nat) (ok : State → Caller → List Byte → Bool)
    (act : State → Caller → List Byte → State × Nat) : Prop :=
  ∀ (s : State) (r : Req) (v : List Byte) (c : Caller),
    s.hears r (writeHead key) c = true → (s.asked r).cmdOpen c key min v = true → ok (s.asked r) c v = true →
    exec (cmd r v) s = .next (((act (s.asked r) c v).1.noteProgress r key (act (s.asked r) c v).2).answer r (writeHead key)
      (act (s.asked r) c v).2 [] false)

/-- A write of a scalar object completes wherever it is heard and taken up and `ok` holds. -/
def ScalarCompletes (cmd : Req → List Byte → Instr) (key min : Nat) (ok : State → Caller → Nat → Bool)
    (effect : State → Caller → Nat → State) : Prop :=
  ∀ (s : State) (r : Req) (v : List Byte) (c : Caller),
    s.hears r (writeHead key) c = true → (s.asked r).scalarOpen c key min v = true → ok (s.asked r) c (leNat v) = true →
    exec (cmd r v) s = .next ((effect (s.asked r) c (leNat v)).answer r (writeHead key) stOk [] false)

/-- A vendor-signed CMD write is served wherever it is heard with an envelope's 448 B, the command is taken up and `ok` holds: where
the envelope verifies (R774) it has its effect and VendorNonce is drawn anew; where it does not, SIGNATURE and no effect. -/
def SignedCompletes (cmd : Req → List Byte → Instr) (key : Nat) (ok : State → Caller → List Byte → Bool)
    (effect : State → Caller → List Byte → State) : Prop :=
  ∀ (s : State) (r : Req) (value env : List Byte) (c : Caller),
    let a := s.asked r
    let c' : Caller := { c with role := .vendor }
    let t := a.redrawNonce
    s.hears r (signedHead key) c = true → env.length = 448 → t.cmdOpen c' key rkVendor value = true → ok t c' value = true →
    exec (cmd r (value ++ env)) s = .next (
      if envelopeOk Config.dieSerial a.sec.vendorNonce (key / 256) (key % 256) value env then
        (effect t c' value).answer r (signedHead key) stOk [] false
      else a.answer r (signedHead key) stSignature [] false)

/-! ### When the commands of the memory tiers are accepted (chapter 05) -/

/-- R249, R250: an ExtentDefine value that is in range and contradicts nothing. -/
def okExtentDefine (s : State) (_ : Caller) (v : List Byte) : Bool :=
  let d := leNat v
  let x := (extentOf v s.sec.extentNonce).2
  let r := s.pitch (field d 4 0)
  onlyBits d [(4, 0), (13, 8), (111, 64), (186, 160), (211, 194), (255, 224)] && decide (x.initTier < 2) && x.codeClass != 3
    && decide (x.minLog2 ≤ x.maxLog2) && decide (x.maxLog2 ≤ 9) && x.excl != 7 && !pinExcluded x.pin x.excl
    && !bit x.excl x.initTier && x.base % 2097152 == 0 && decide (x.base + x.length ≤ 2 ^ 48)
    && r.extents.all (fun y => !x.overlaps y && y.number != x.number) && r.st != .free
    && (x.stateSet == 0 || s.tier.sets.any (fun t => t.id == x.stateSet && t.tenant == tenantOfTag r.tenantTag))

/-- R271, R272: a PagePin to tiers B or C, or to none, of a range of 4 KiB multiples, that excludes neither its own tier nor all. -/
def okPagePin (_ : State) (_ : Caller) (v : List Byte) : Bool :=
  let d := leNat v
  let pin := field d 177 176
  onlyBits d [(4, 0), (111, 64), (175, 128), (177, 176), (180, 178)] && field d 175 128 % 4096 == 0 && pin != 1
    && field d 180 178 != 7 && !pinExcluded pin (field d 180 178)

/-- R254: a PageFree value whose length is a multiple of 4 KiB. -/
def okPageFree (_ : State) (_ : Caller) (v : List Byte) : Bool :=
  let d := leNat v
  onlyBits d [(4, 0), (111, 64), (175, 128)] && field d 175 128 % 4096 == 0

/-- R304, R311: a StateSetCreate value with a new number, an interval of 10 s to a day and a tenant that its sender reaches. -/
def okStateSetCreate (s : State) (c : Caller) (v : List Byte) : Bool :=
  let d := leNat v
  c.reaches (field d 37 32) && onlyBits d [(31, 0), (37, 32), (65, 64), (127, 96)] && field d 31 0 != 0
    && decide (10 ≤ field d 127 96) && decide (field d 127 96 ≤ 86400) && s.tier.sets.all (fun t => t.id != field d 31 0)
    && decide (s.tier.sets.length < 4096)

/-- R312: the value names a set of a tenant that the sender reaches, with no checkpoint in progress. -/
def okSetIdle (s : State) (c : Caller) (v : List Byte) : Bool :=
  match s.tier.sets.find? (fun t => t.id == leNat v) with
  | none => false
  | some t => c.reaches t.tenant && !t.inProgress

/-- R310, R377: a StateSetAttach of a set that is not attached, to a resident pitch of its tenant whose extents and layouts it does
not meet. -/
def okStateSetAttach (s : State) (c : Caller) (v : List Byte) : Bool :=
  let d := leNat v
  let r := s.pitch (field d 36 32)
  onlyBits d [(31, 0), (36, 32)] && (match s.tier.sets.find? (fun t => t.id == field d 31 0) with
    | none => false
    | some t => c.reaches t.tenant && !t.inProgress && t.attached.isNone && r.st != .free && tenantOfTag r.tenantTag == t.tenant
      && t.extents.all (fun x => r.extents.all (fun y => !x.overlaps y && y.number != x.number))
      && t.layouts.all (fun l => r.layouts.all (fun k => k.number != l.number)))

/-! ### When the commands of the KV store and of state handles are accepted (chapters 06, 07) -/

/-- The layout that a KvLayoutDefine value defines. -/
def layoutIn (v : List Byte) : KvLayout := { number := field (leNat v) 10 8, record := v }

/-- R313, R315: a KvLayoutDefine value with the permitted numbers, new to its pitch, over an extent whose smallest page holds a
token. -/
def okKvLayoutDefine (s : State) (_ : Caller) (v : List Byte) : Bool :=
  let l := layoutIn v
  let r := s.pitch (l.get 4 0)
  let idx := (List.range l.indexCount).map l.indexLayer
  onlyBits (leNat v) [(175, 128), (127, 96), (66, 64), (63, 56), (51, 49), (48, 48), (47, 45), (44, 40), (39, 32), (21, 16),
      (10, 8), (4, 0)]
    && decide (l.indexCount ≤ 4) && l.get 63 56 != 0 && l.get 175 128 % 64 == 0 && ([1, 2, 4, 8, 16, 32] : List Nat).contains l.heads
    && ([1, 3, 4] : List Nat).contains (l.get 51 49) && idx.all (fun i => decide (i < l.layers))
    && (distinct idx).length == idx.length && r.st != .free && r.layouts.all (fun k => k.number != l.number)
    && r.layouts.all (fun k => k.get 21 16 != l.get 21 16)
    && (match r.extents.find? (fun x => x.number == l.get 21 16) with
        | none => false
        | some x => decide (l.tokenBytes ≤ 4096 * 2 ^ x.minLog2))

/-- R316: a KvLayoutRemove value names a layout without sequences. -/
def okKvLayoutRemove (s : State) (_ : Caller) (v : List Byte) : Bool :=
  let d := leNat v
  let r := s.pitch (field d 12 8)
  onlyBits d [(12, 8), (2, 0)] && r.layouts.any (fun l => l.number == field d 2 0) && r.seqs.all (fun q => q.layout != field d 2 0)

/-- R318: a KvSeqCreate value names a layout of a pitch that its sender reaches and a sequence that is not there, and a sequence is
free. -/
def okKvSeqCreate (s : State) (c : Caller) (v : List Byte) : Bool :=
  match seqNames v with
  | none => false
  | some (p, l, n) => c.reaches (tenantOfTag (s.pitch p).tenantTag) && (s.layoutOf p l).isSome && (s.seqOf p l n).isNone
    && (s.seqInUse p l n).isNone && decide (s.kvSequences < 262144)

/-- R320: a KvSeqDrop value names a sequence of a pitch that its sender reaches. -/
def okKvSeqDrop (s : State) (c : Caller) (v : List Byte) : Bool :=
  match seqNames v with
  | none => false
  | some (p, l, n) => c.reaches (tenantOfTag (s.pitch p).tenantTag) && (s.seqOf p l n).isSome

/-- The handle that a StateHandleBind value binds. -/
def handleIn (s : State) (v : List Byte) : Handle :=
  let d := leNat v
  { s.handle (field d 11 0) with
    st := .bound, pitch := field d 20 16, page := field d 111 64, comp := bit d 24, vectors := field d 26 25, elems := field d 50 32, steps := 0 }

/-- R385: a StateHandleBind value names a free handle of a resident pitch that its sender reaches, with 1 or 2 vectors of some
elements, and its page can be allocated. -/
def okStateHandleBind (s : State) (c : Caller) (v : List Byte) : Bool :=
  let d := leNat v
  let h := handleIn s v
  onlyBits d [(11, 0), (20, 16), (24, 24), (26, 25), (50, 32), (111, 64)]
    && c.reaches (tenantOfTag (s.pitch h.pitch).tenantTag) && (s.handle (field d 11 0)).st == .free && (s.pitch h.pitch).st != .free
    && h.vectors != 0 && decide (h.vectors ≤ 2) && h.elems != 0 && decide (h.elems ≤ 262144) && (s.bindHandle (field d 11 0) h).isSome

/-- R410: a StateHandleRevoke value names a handle in use of a pitch that its sender reaches, and no command uses the handle. -/
def okStateHandleRevoke (s : State) (c : Caller) (v : List Byte) : Bool :=
  let d := leNat v
  let h := s.handle (field d 11 0)
  onlyBits d [(11, 0), (15, 15)] && h.st != .free && c.reaches (tenantOfTag (s.pitch h.pitch).tenantTag)
    && (s.revoke (field d 11 0) (bit d 15)).2.isEmpty

/-- R411: a StateHandleSwap value names a handle of a pitch that its sender reaches, without both IN and FORCE. -/
def swapAllowed (s : State) (c : Caller) (v : List Byte) : Bool :=
  let d := leNat v
  let h := s.handle (field d 11 0)
  onlyBits d [(13, 0), (111, 64)] && h.st != .free && !(bit d 12 && bit d 13)
    && c.reaches (tenantOfTag (s.pitch h.pitch).tenantTag)

/-- The state after a StateHandleSwap value that names OUT. -/
def swapOutIn (s : State) (v : List Byte) : State :=
  s.askSwapOut (field (leNat v) 11 0) (field (leNat v) 111 64) (bit (leNat v) 13)

/-! ### When the commands of pitches are accepted (chapter 09) -/

/-- R454: a PitchCreate value over a free pitch ID and an active tenant, whose cores are available and have room, whose entries are
acceptable and whose credit shares fit. -/
def okPitchCreate (s : State) (_ : Caller) (v : List Byte) : Bool :=
  let d := leNat v
  let r : Pitch := { st := .created, record := v, tenantTag := s.tenantTag (field d 29 24) }
  let others := (s.pitches.map (·.2)).filter (fun q => q.st != .free)
  (s.pitch (field d 4 0)).st == .free && (s.tenant (field d 29 24)).st == .active && recordReserved d && !(coresOf v).isEmpty
    && (coresOf v).all s.coreAvailable && (s.placesOf v).all Option.isSome
    && (List.range 6).all (s.entryOk r)
    && (List.range 4).all (fun k => decide (r.credit k ≤ 100) && decide (others.foldl (fun n q => n + q.credit k) (r.credit k) ≤ 100))

/-- R465: a PegShare loan within the owner's pegs, between two resident pitches of one tenant, while fewer than 64 loans stand. -/
def okPegShare (s : State) (l : Loan) : Bool :=
  let o := s.pitch l.owner
  let b := s.pitch l.borrower
  decide (l.cluster < 6) && l.owner != l.borrower && o.st != .free && b.st != .free && tenantOfTag o.tenantTag == tenantOfTag b.tenantTag && l.count != 0
    && decide ((o.pegRange l.cluster).1 ≤ l.first)
    && decide (l.first + l.count ≤ (o.pegRange l.cluster).1 + (o.pegRange l.cluster).2) && decide (s.loans.length < 64)

/-! ### Camera control (chapter 12) -/

/-- R645: a CciTransfer value of its own length, at most 64 B each way, while no transfer is in progress. -/
def okCciTransfer (s : State) (_ : Caller) (v : List Byte) : Bool :=
  let d := leNat (v.take 4)
  decide (4 ≤ v.length) && field d 31 24 == 0 && decide (field d 15 8 ≤ 64) && decide (field d 23 16 ≤ 64)
    && v.length == 4 + field d 15 8 && s.cams.cciBusy.isNone

/-! ### Packets and objects of the fabric (chapter 10) -/

/-- A packet for this module is taken as it comes: the module is ACTIVE, and no ordered packet of its source and channel waits before
it (R514, R558). -/
def State.takesNow (s : State) (p : Packet) : Bool := s.arrives p && !s.behind p

/-- The commands by which a packet of each kind reaches this module (R517). -/
def packetCommands (p : Packet) : List Instr :=
  [.write p, .writeAck p, .readReq p, .readData p, .msg p, .msgCredit p, .nack p, .eventPacket p, .collUp p, .collDown p]

/-- R535: an EventForwardDefine value for a line of a pitch with credit, to a unit inside the torus. -/
def okEventForward (n : Nat) (s : State) (_ : Caller) (v : List Byte) : Bool :=
  let d := leNat v
  let u := unitOfBits (field d 46 8)
  onlyBits d [(54, 0)] && decide (u.cluster < 6) && s.inTorus u.module
    && (match s.lineOwner n (field d 7 0) with
        | none => false
        | some p => (s.pitch p).credit 0 != 0)

/-- The forward that an EventForwardDefine value defines. -/
def forwardIn (v : List Byte) : Forward :=
  { line := field (leNat v) 7 0, unit := unitOfBits (field (leNat v) 46 8), destLine := field (leNat v) 54 47 }

/-- R536, R541, R563: a CollGroupDefine of a free group over a resident pitch: a box within the torus that holds the root and this
module, and a store that fits. -/
def okCollGroup (g : Nat) (s : State) (_ : Caller) (v : List Byte) : Bool :=
  let r : Group := { st := 1, record := v }
  let others := (s.fabric.groups.filter (fun e => e.1 != g && e.2.st != 0)).foldl (fun n e => n + e.2.store) 0
  onlyBits (leNat v) [(4, 0), (54, 10), (70, 64)] && r.store != 0 && decide (r.store ≤ 64) && (s.group g).st == 0
    && (s.pitch r.member).st != .free && (r.axes.zip s.sizes).all (fun e => decide (e.1.1 ≤ e.1.2) && decide (e.1.2 < e.2))
    && r.holds r.root && r.holds s.moduleId && decide (others + r.store ≤ 512)

/-! ### Retirement (chapter 13) -/

/-- R674: a LpddrBankRetire of a bank that is not retired, where the free frames hold what its pages need. -/
def okBankRetire (s : State) (_ : Caller) (v : List Byte) : Bool :=
  let d := leNat v
  decide (d < 512) && !s.isRetired Key.lpddrBankRetire d
    && decide (4096 * s.bankFrames + (s.bankPages d).foldl (fun n g => n + g.size) 0 ≤ s.tierBFree)

/-! ### The security island (chapter 14) -/

/-- R689, R692: a SessionOpen record of its form, of a role whose key is known, within 60 s of the report, while fewer than 16 sessions
are open. Its signature is not among these. -/
def sessionOffered (s : State) (v : List Byte) (key : List Byte) (e : Nat) : Bool :=
  v.length == 488 && leNat ((v.drop 1).take 3) == 0 && leNat ((v.drop 101).take 3) == 0
    && s.sessionKey (leNat (v.take 1)) == some key && s.sec.ephemeral == some e && decide (s.sec.sessions.length < 16)
    && decide (s.time < s.sec.ephemeralStamp + 60000000000)

/-- R696, R730: a TenantCreate value over a free tenant, with permitted days and offset, while the key entries suffice and the calendar
is set. -/
def okTenantCreate (s : State) (_ : Caller) (v : List Byte) : Bool :=
  let d := leNat (v.take 2)
  let days := leNat ((v.drop 2).take 2)
  let off := leNat ((v.drop 4).take 4)
  v.length == 396 && onlyBits d [(5, 0), (8, 8)] && (s.tenant (field d 5 0)).st == .free && (!bit d 8 || s.sec.confidential)
    && days != 0 && decide (days ≤ 3650) && off % 900 == 0 && decide (off < 86400)
    && decide (s.keyReserve (fun _ => true) + days + 3 ≤ 4032) && s.mgmt.calendarValid

/-! ### Power (chapter 15) -/

/-- R741: a request for STOWED or OFF, `k` 4 or 5, while no entry is in progress. -/
def okEntryRequest (k : Nat) (s : State) (_ : Caller) (v : List Byte) : Bool := v == [BitVec.ofNat 8 k] && s.power.entry.isNone

/-- R743: what LANTERN_ENTRY waits for. -/
def State.lanternReady (s : State) : Bool :=
  (s.power.st == .active || s.power.st == .doze) && s.power.entry.isNone && s.obj Key.powerFloor == 3
    && decide (s.obj Key.wakeStage ≤ 1) && s.listen.stageWaking.isNone && s.listen.dropTo.isNone && s.slots.all (fun e => e.2.dropped)

/-- R738: every core of cluster `n` that the profile enables is parked, and no request to its SRAM is outstanding. -/
def State.clusterParked (s : State) (n : Nat) : Bool :=
  !s.sramAsked n && (List.range 8).all (fun k => !coreEnabled s.profile (8 * n + k) || s.coreParked (8 * n + k))

/-! ### The operations of the dictionary (chapter 16) -/

/-- A request is served with `result` wherever it is heard and `ok` holds of the state and its caller. -/
def Serves (i : Instr) (r : Req) (h : Head) (ok : State → Caller → Bool) (result : State → Caller → Served) : Prop :=
  ∀ (s : State) (c : Caller), s.hears r h c = true → ok (s.asked r) c = true →
    exec i s = .next ((result (s.asked r) c).1.answer r h (result (s.asked r) c).2.1 (result (s.asked r) c).2.2.1
      (result (s.asked r) c).2.2.2)

/-- A value that comes in one piece, with nothing staged of its object (R786). -/
def State.onePiece (s : State) (r : Req) (key offset : Nat) (more : Bool) (data : List Byte) : Bool :=
  decide (data.length ≤ 1024) && offset == 0 && !more && (s.mgmt.staged.find? (fun x => x.isAt r key)).isNone

/-- A setting whose write only changes its live value: no Select object, and none of those with an operation of their own. -/
def plainSetting (row : ObjRow) (key : Nat) : Bool :=
  !isSelect key && !([Key.queueEnable, Key.portEnable, Key.pitchPriority, Key.retentionDays, Key.glimpseEnable, Key.playbackEnable,
    Key.coreDivRequest, Key.windowPitch, Key.hostDmaPitch] : List Nat).contains row.key

/-- R767, R770 to R772: a WRITE of a plain scalar setting that its caller may write, of a value that it permits. -/
def okPlainWrite (r : Req) (index sub offset : Nat) (more : Bool) (data : List Byte) (row : ObjRow) (s : State) (c : Caller) : Bool :=
  let key := 256 * index + sub
  s.writeGate c index sub == stOk && s.onePiece r key offset more data && objRow key == some row && row.acc == .rw
    && !row.ty.isBytes && key != Key.updatePiece && key != Key.nvImage && plainSetting row key && s.scalarOpen c key rkTenant data
    && (s.unstage r key).settingStatus row key (leNat data) == stOk

/-- R778, R779: a WRITE_NV of a value that its object permits, to a section that may hold it, while the image has room. -/
def okNvWrite (r : Req) (index sub param offset : Nat) (more : Bool) (data : List Byte) (row : ObjRow) (sec : Nat) (s : State) (c : Caller) :
    Bool :=
  let key := 256 * index + sub
  let t := s.unstage r key
  s.nvGate c index sub param == stOk && s.onePiece r key offset more data && objRow key == some row
    && nvParam s.profile param == some sec && t.nvValueStatus row key data == stOk
    && decide ((nvBuild 0 (nvSet t.nvRecs sec key data)).length ≤ 262144)

/-- R796: a SUBSCRIBE of its form, of an interval from 100 ms to a day, while fewer than 8 stand: the keys and their values. -/
def okSubscribe (data : List Byte) (keys : List Nat) (vs : List (List Byte)) (s : State) (c : Caller) : Bool :=
  c.role != .none && decide (8 ≤ data.length) && decide (data.length ≤ 132) && data.length % 4 == 0
    && decide (100 ≤ leNat (data.take 4)) && decide (leNat (data.take 4) ≤ 86400000)
    && subEntries ((data.length - 4) / 4) (data.drop 4) == some keys
    && (match s.entryValues c keys with
        | .ok ws => ws == vs
        | .error _ => false)
    && vs.all (fun v => decide (v.length ≤ 64)) && decide ((vs.map List.length).foldl (· + ·) 0 ≤ 1016) && decide (s.mgmt.subs.length < 8)

/-! ### Field update (chapter 17) -/

/-- R808: an UpdateBegin value in range, while nothing is ARMED or on TRIAL. -/
def okUpdateBegin (s : State) (_ : Caller) (v : List Byte) : Bool :=
  decide (129 ≤ leNat (v.take 4)) && decide (leNat (v.take 4) ≤ 16777216) && leNat ((v.drop 4).take 4) == 0 && s.update.st != 3
    && s.update.st != 4

/-- R800: a CalendarSet at a module without a time parent, not further back than CalendarMaxBackS where the calendar is valid. -/
def okCalendarSet (s : State) (_ : Caller) (v : List Byte) : Bool :=
  s.obj Key.timeParentPort == 7 && (!s.mgmt.calendarValid || decide (s.calendarNow ≤ leNat v + s.obj Key.calendarMaxBackS))
    && decide (1000000000 * leNat v < 2 ^ 64)

end Sys2Proof.Machine
end

