-- ==== Sys2Proof/Certificates/Slice0/Obligations.lean ====
section
/-! DEFINITION. The statements for the provers. Where a statement says that exec answers .next t with t written out, t is the state with
the command's effect and nothing else: its frame is in the equation. -/

open Sys2Proof Sys2Proof.Machine

/-! ### The queue and the clock -/

/-- A step takes the command at the front of the queue. -/
def Obligations.StepRunsFrontCommand : Prop :=
  ∀ (c : Instr) (s : State) (rest : List Instr), step { s with pending := c :: rest } = exec c { s with pending := rest }

/-- R45, R48: with no command waiting, a step is a tick of the time base: 4 ns, or 3 or 5 while the time base slews, where it runs. A
tick that reaches no new second, with nothing waiting and nothing in flash, changes beside the time only the count of time that runs; a running watchdog
(R482) runs by the tick's nanoseconds. That ticks come with the empty queue is the model's choice (log entry 2). -/
def Obligations.EmptyQueueTicks : Prop :=
  ∀ s : State, s.pending = [] →
    step s = .next s.idle ∧
    (s.timeRuns = true →
      s.tick.time = s.time + (if s.mgmt.slewTo < 0 then 3 else if 0 < s.mgmt.slewTo then 5 else 4) ∧
      (s.quiet = true → s.mgmt.slewTo = 0 → (s.time + 4) / 1000000000 = s.time / 1000000000 →
        step s = .next { s with time := s.time + 4, timers := tabSet s.timers tmRun (tabGet s.timers tmRun 0 + 4) }) ∧
      (∀ i ns, (s.runTimers ns).slot i
        = if s.slots.any (fun e => e.1 == i) && s.watchdogRuns i then { s.slot i with watchRun := (s.slot i).watchRun + ns } else s.slot i)) ∧
    (s.power.st = .stowed ∨ s.power.st = .off ∨ s.power.refclk = false → step s = .next s)

/-- Every step that answers a next state takes exactly the front command off the queue, and no command puts one there: what waits
runs first in, first out. -/
def Obligations.StepConsumesFront : Prop :=
  ∀ s t : State, step s = .next t → t.pending = s.pending.tail

/-- Well-formedness of the waiting commands is kept by every step. -/
def Obligations.StepKeepsQueueWellFormed : Prop :=
  ∀ s t : State, s.queueWf = true → step s = .next t → t.queueWf = true

/-- The empty queue after reset is well-formed, and every addressed memory is in canonical form. -/
def Obligations.ResetIsWellFormed : Prop :=
  State.reset.queueWf = true ∧ State.reset.memWf = true ∧ State.reset.pending = []

/-- R736, R116, R183: after reset the module is ACTIVE, every cluster is gated, no pitch is resident, every slot is IDLE, and each
core's CORE_MODE holds DIV 3 and MODE RUN. -/
def Obligations.ResetLeaves : Prop :=
  State.reset.power.st = .active ∧ (∀ n < 6, (State.reset.cluster n).gated = true) ∧
    (∀ p < 32, (State.reset.pitch p).st = .free) ∧ (∀ i < 192, (State.reset.slot i).st = .idle) ∧
    (∀ c < 48, field (State.reset.core c).mode.toNat 10 8 = 3 ∧ field (State.reset.core c).mode.toNat 1 0 = 0)

/-- No command is refused, and the one command that can stop the machine is a write of a register that no table holds. -/
def Obligations.OnlyUnknownRegistersStop : Prop :=
  ∀ (c : Instr) (s : State), (∀ r, exec c s ≠ .refused r) ∧
    (∀ f, exec c s = .fault f → ∃ bar0 a v, c = .registerWrite bar0 a v ∧ f = .noSuchRegister a)

/-! ### Commands of a slot: control (chapter 03) -/

/-- R118: a skipped command moves the slot on and does nothing else, whatever its flags: it applies neither PRE_WAIT nor DONE_SIG and
uses no engine; so for every command with an opcode of its own. It is skipped where PRED bit PIDX (P0 is 1), inverted if PNEG is 1, is not 1
at the moment at which it would issue. -/
def Obligations.SkippedCommandsDoNothing : Prop :=
  ∀ (u : SlotRef) (w : CmdWord) (s : State),
    let x := s.slot (slotIndex u)
    (x.predicate w.toNat = ((if field w.toNat 114 112 = 0 then true else x.pred.toNat.testBit (field w.toNat 114 112)) != bit w.toNat 115)) ∧
    ∀ e ∈ slotCommands, (s.skips u w e.1 = (s.mayIssue u w e.1 && !x.predicate w.toNat)) ∧
      (s.skips u w e.1 = true → exec (e.2 u w) s = .next ((s.fetched u w e.1).advance (slotIndex u)))

/-- R129, R139: the control commands whose condition holds complete: what each leaves. `f` is the state with the command fetched, which
differs from `s` at most in the slot's command buffer. -/
def Obligations.ControlCommandsComplete : Prop :=
  ∀ (u : SlotRef) (w : CmdWord) (s : State),
    let i := slotIndex u
    let n := w.toNat
    let peg := cwOpnd n
    let f := s.fetched u w
    let t := fun (op : Nat) => (f op).advance i
    (s.controlReady u w 0x00 [0] [] → exec (.nop u w) s = .next (t 0x00)) ∧
    (s.controlReady u w 0x01 [2] [(15, 0)] → (f 0x01).pegHere u w → field n 15 0 ≤ (f 0x01).namedPeg w →
      exec (.wait u w) s = .next (t 0x01)) ∧
    (s.controlReady u w 0x02 [1] [] → (f 0x02).mayRaise ((f 0x02).slot i).pitch (clusterOfSlot i) (cwOpnd n) →
      exec (.signal u w) s = .next ((t 0x02).applyOperand i (.line (cwOpnd n)))) ∧
    (s.controlReady u w 0x03 [2] [(15, 0)] → (f 0x03).pegHere u w → field n 15 0 = 0 → exec (.pegTake u w) s = .next (t 0x03)) ∧
    (s.controlReady u w 0x03 [2] [(15, 0)] → (f 0x03).pegHere u w → field n 15 0 ≠ 0 →
      (f 0x03).takeReady (peg / 1024) (peg % 1024) i (field n 15 0) →
      exec (.pegTake u w) s
        = .next (((t 0x03).takePeg (peg / 1024) (peg % 1024) i (field n 15 0)).examine (peg / 1024) (peg % 1024))) ∧
    (s.controlReady u w 0x04 [2] [(15, 0)] → (f 0x04).mayUsePeg ((f 0x04).slot i).pitch peg → (f 0x04).up (48 + peg / 1024) →
      exec (.pegGive u w) s = .next ((((f 0x04).callCluster (peg / 1024)).advance i).givePeg peg (field n 15 0) (some i))) ∧
    (s.controlReady u w 0x05 [0] [(1, 0)] → field n 1 0 = 1 ∨ field n 1 0 = 2 →
      exec (.park u w) s = .next (((t 0x05).modSlot i (fun x => { x with hold := .park (field n 1 0) })).settle i)) ∧
    (s.controlReady u w 0x08 [0] [(3, 0), (4, 4)] →
      exec (.fence u w) s = .next (((t 0x08).modSlot i (fun x => { x with hold := .fence (field n 3 0) (bit n 4) })).settle i)) ∧
    (s.controlReady u w 0x09 [1] [] → 0 < tabGet ((f 0x09).slot i).pending (cwOpnd n) 0 →
      exec (.event u w) s = .next ((t 0x09).modSlot i (fun x => x.consume (cwOpnd n)))) ∧
    (s.controlReady u w 0x0F [0, 1, 2] [] → (f 0x0F).opndAllowed i n →
      exec (.stop u w) s = .next (((t 0x0F).modSlot i (fun x => { x with hold := .stop (opndOf n) })).settle i))

/-- R139, R142, R143: LOOP begins its body or skips it where COUNT is 0; BRANCH goes to its target and leaves the loops whose body the
target is not in. Neither changes anything outside the slot but which slot of its core issued last. -/
def Obligations.LoopAndBranchComplete : Prop :=
  ∀ (u : SlotRef) (w : CmdWord) (s : State),
    let i := slotIndex u
    let n := w.toNat
    let f := s.fetched u w
    let x := (f 0x06).slot i
    let y := (f 0x07).slot i
    let target : Int := y.streamPtr + 16 * signed 24 (field n 23 0)
    let share := ((f 0x07).pitch y.pitch).share (clusterOfSlot i)
    (s.controlReady u w 0x06 [0] [(15, 0), (21, 16), (23, 22)] → 1 ≤ field n 21 16 → field n 21 16 ≤ 32 →
      x.loops.all (fun l => l.lc != field n 23 22) → field n 15 0 = 0 →
      exec (.loop u w) s
        = .next (((f 0x06).setSlot i { x.goTo (x.streamPtr + 16 * (field n 21 16 + 1)) with watchRun := 0 }).markIssued i)) ∧
    (s.controlReady u w 0x06 [0] [(15, 0), (21, 16), (23, 22)] → 1 ≤ field n 21 16 → field n 21 16 ≤ 32 →
      x.loops.all (fun l => l.lc != field n 23 22) → field n 15 0 ≠ 0 →
      exec (.loop u w) s = .next (((f 0x06).setSlot i { x with
        loops := { lc := field n 23 22, start := x.streamPtr + 16, body := field n 21 16, count := field n 15 0 } :: x.loops
        buffer := keepBodies x.loops x.buffer
        lc := x.lc.setIfInBounds (field n 23 22) 0
        streamPtr := x.streamPtr + 16
        watchRun := 0 }).markIssued i)) ∧
    (s.controlReady u w 0x07 [0] [(23, 0)] → (share.1 : Int) ≤ target → target + 16 ≤ (share.1 + share.2 : Nat) →
      exec (.branch u w) s = .next (((f 0x07).setSlot i { y with
        loops := (y.loops.reverse.takeWhile (fun l => l.holds target.toNat)).reverse
        buffer := keepBodies (y.loops.reverse.takeWhile (fun l => l.holds target.toNat)).reverse y.buffer
        streamPtr := target.toNat
        watchRun := 0 }).markIssued i))

/-- R142: at the end of a loop's body the body runs again, with LC[LC] one higher, until COUNT passes are done; then LC keeps its last
value and the loop ends. -/
def Obligations.LoopsCountTheirPasses : Prop :=
  ∀ (f : LoopFrame) (rest : List LoopFrame) (lc : Vector Half 4),
    (((lc[f.lc]?.getD 0).toNat + 1 < f.count →
      settleLoops (f :: rest) lc (f.start + 16 * f.body)
        = (f :: rest, lc.setIfInBounds f.lc (BitVec.ofNat 16 ((lc[f.lc]?.getD 0).toNat + 1)), f.start)) ∧
    (f.count ≤ (lc[f.lc]?.getD 0).toNat + 1 →
      settleLoops (f :: rest) lc (f.start + 16 * f.body) = settleLoops rest lc (f.start + 16 * f.body))) ∧
    (∀ ptr, ptr ≠ f.start + 16 * f.body → settleLoops (f :: rest) lc ptr = (f :: rest, lc, ptr))

/-- R139, R188: SETREG, ADDREG, PSET, SLOT_RD and SLOT_WR write their slot's registers and nothing else: a next state with the register
written, and every other register of the bank as before. SLOT_RD of STREAM_PTR gives the position of the command behind it. -/
def Obligations.RegisterCommandsComplete : Prop :=
  ∀ (u : SlotRef) (w : CmdWord) (s : State),
    let i := slotIndex u
    let n := w.toNat
    let r := field n 36 32
    let f := s.fetched u w
    let x := fun (op : Nat) => (f op).slot i
    let t := fun (op : Nat) => (f op).advance i
    (s.controlReady u w 0x0A [0] [(31, 0), (36, 32)] →
      exec (.setreg u w) s = .next ((t 0x0A).modSlot i (fun y => y.setReg r (BitVec.ofNat 32 (field n 31 0))))) ∧
    (s.controlReady u w 0x0B [0] [(31, 0), (36, 32)] →
      exec (.addreg u w) s = .next ((t 0x0B).modSlot i (fun y => y.setReg r (y.reg r + BitVec.ofNat 32 (field n 31 0))))) ∧
    (∀ v, s.controlReady u w 0x0C [0] [(31, 0), (36, 32), (39, 37), (42, 40)] → field n 39 37 ≠ 0 →
      compareRegs (field n 42 40) ((x 0x0C).reg r) (BitVec.ofNat 32 (field n 31 0)) = some v →
      exec (.pset u w) s = .next ((t 0x0C).modSlot i (fun y => { y with pred := setPred y.pred (field n 39 37) v }))) ∧
    (s.controlReady u w 0x0D [0] [(36, 32), (47, 40)] → field n 47 40 % 4 = 0 → field n 47 40 ≠ 0x40 → field n 47 40 ≠ 0x0C →
      exec (.slotRd u w) s = .next ((t 0x0D).modSlot i (fun y => y.setReg r ((f 0x0D).slotReg i (field n 47 40))))) ∧
    (s.controlReady u w 0x0D [0] [(36, 32), (47, 40)] → field n 47 40 = 0x0C →
      exec (.slotRd u w) s
        = .next ((t 0x0D).modSlot i (fun y => y.setReg r (BitVec.ofNat 32 ((t 0x0D).slot i).streamPtr)))) ∧
    (s.controlReady u w 0x0D [0] [(36, 32), (47, 40)] → field n 47 40 = 0x40 →
      exec (.slotRd u w) s
        = .next ((((f 0x0D).latchTime i).advance i).modSlot i (fun y => y.setReg r (BitVec.ofNat 32 s.time)))) ∧
    (s.controlReady u w 0x0E [0] [(36, 32), (47, 40)] → slotWritable (field n 47 40) →
      exec (.slotWr u w) s = .next ((t 0x0E).modSlot i (fun y => y.writeReg (field n 47 40) (y.reg r))))

/-- R139, R115: the scalar registers after SETREG and ADDREG: S[REG] holds the new value, S0 still reads 0, every other S register,
the predicates and the slot's other registers but STREAM_PTR, the loops and the command buffer are unchanged; so is every other slot, and
everything of the module but its slots and which slot of the core issued last. -/
def Obligations.ScalarWritesFrame : Prop :=
  ∀ (u : SlotRef) (w : CmdWord) (s : State) (q : Nat), q < 32 →
    let i := slotIndex u
    let r := field w.toNat 36 32
    let x := s.slot i
    ∀ c ∈ [(0x0A, Instr.setreg u w, BitVec.ofNat 32 (field w.toNat 31 0)),
        (0x0B, Instr.addreg u w, x.reg r + BitVec.ofNat 32 (field w.toNat 31 0))],
      s.controlReady u w c.1 [0] [(31, 0), (36, 32)] →
      ∃ t, exec c.2.1 s = .next t ∧ (t.slot i).reg q = (if q = 0 then 0 else if q = r then c.2.2 else x.reg q)
        ∧ (t.slot i).pred = x.pred ∧ (t.slot i).numFlags = x.numFlags ∧ (t.slot i).numTrap = x.numTrap
        ∧ (t.slot i).satCount = x.satCount ∧ (t.slot i).pending = x.pending ∧ (t.slot i).st = x.st ∧ (t.slot i).hold = x.hold
        ∧ (∀ j, j ≠ i → t.slot j = s.slot j) ∧ t = { s with slots := t.slots, lastIssued := t.lastIssued }

/-- R115: S0 reads as 0, and writes to it are ignored; P0 reads as 1, in a predicate and in PRED, and writes of PRED leave it 1. -/
def Obligations.ConstantRegisters : Prop :=
  ∀ x : Slot, x.reg 0 = 0 ∧ (∀ v, x.setReg 0 v = x) ∧
    (∀ n, field n 114 112 = 0 → x.predicate n = !bit n 115) ∧
    (∀ v, (x.writeReg 0x10 v).pred.toNat % 2 = 1) ∧
    (∀ (s : State) (i : Nat), (s.slotReg i 0x10).toNat % 2 = 1)

/-- R140: what CMP selects, and that a PSET leaves it in P[PIDX]; its reserved values and PIDX 0 fault with DESCRIPTOR_INVALID. -/
def Obligations.PsetComparisons : Prop :=
  (∀ a b : Word, compareRegs 0 a b = some (a == b) ∧ compareRegs 1 a b = some (a != b) ∧
    compareRegs 2 a b = some (a.ult b) ∧ compareRegs 3 a b = some (b.ule a) ∧
    compareRegs 4 a b = some (a.slt b) ∧ compareRegs 5 a b = some (b.sle a)) ∧
  ∀ (u : SlotRef) (w : CmdWord) (s : State),
    let i := slotIndex u
    let n := w.toNat
    let x := s.slot i
    s.controlReady u w 0x0C [0] [(31, 0), (36, 32), (39, 37), (42, 40)] →
    (∀ v, field n 39 37 ≠ 0 → compareRegs (field n 42 40) (x.reg (field n 36 32)) (BitVec.ofNat 32 (field n 31 0)) = some v →
      ∃ t, exec (.pset u w) s = .next t ∧ (t.slot i).pred.toNat.testBit (field n 39 37) = v
        ∧ (∀ k, k ≠ field n 39 37 → (t.slot i).pred.toNat.testBit k = x.pred.toNat.testBit k)) ∧
    (field n 39 37 = 0 ∨ field n 42 40 = 6 ∨ field n 42 40 = 7 →
      exec (.pset u w) s = .next ((s.fetched u w 0x0C).faultSlot i (fcDescriptor, 0) 0x0C x.streamPtr))

/-- R116, R129: a WAIT whose threshold is not reached, a PEG_TAKE that cannot be granted, and an EVENT with no pulse pending hold the
slot: it is WAITING, and it issues nothing until its condition holds. A PEG_GIVE to a cluster whose island is down waits to issue (R27). -/
def Obligations.UnmetConditionsHoldTheSlot : Prop :=
  ∀ (u : SlotRef) (w : CmdWord) (s : State),
    let i := slotIndex u
    let n := w.toNat
    let peg := cwOpnd n
    let f := s.fetched u w
    let t := fun (op : Nat) => (f op).advance i
    (s.controlReady u w 0x01 [2] [(15, 0)] → (f 0x01).pegHere u w → (f 0x01).namedPeg w < field n 15 0 →
      exec (.wait u w) s = .next (((t 0x01).modSlot i (fun x => { x with hold := .pegWait peg (field n 15 0), st := .waiting })).waitPeg
        (peg / 1024) (peg % 1024) i (field n 15 0) true)) ∧
    (s.controlReady u w 0x03 [2] [(15, 0)] → (f 0x03).pegHere u w → field n 15 0 ≠ 0 →
      (f 0x03).takeReady (peg / 1024) (peg % 1024) i (field n 15 0) = false →
      exec (.pegTake u w) s = .next (((t 0x03).modSlot i (fun x =>
        { x with hold := .pegTake peg (field n 15 0), st := .waiting })).waitPeg (peg / 1024) (peg % 1024) i (field n 15 0) false)) ∧
    (s.controlReady u w 0x09 [1] [] → tabGet ((f 0x09).slot i).pending (cwOpnd n) 0 = 0 →
      exec (.event u w) s = .next ((t 0x09).modSlot i (fun x => { x with hold := .event (cwOpnd n), st := .waiting }))) ∧
    (s.controlReady u w 0x04 [2] [(15, 0)] → (f 0x04).mayUsePeg ((f 0x04).slot i).pitch peg → (f 0x04).up (48 + peg / 1024) = false →
      exec (.pegGive u w) s = .next (f 0x04)) ∧
    ((s.slot i).st = .waiting → s.canIssue i = false)

/-- R151, R40: a give to a peg on which nothing waits: the value rises by the amount and stops at 65,535; the peg's overflow bit and the
cluster's overflow counter change exactly where it would have passed it; every other peg of the cluster keeps its value. -/
def Obligations.GivesStopAtTheTop : Prop :=
  ∀ (s : State) (name amount : Nat),
    let n := name / 1024
    let k := name % 1024
    let p := s.peg n k
    let t := s.givePeg name amount none
    name < 6144 → (s.cluster n).waiters.all (fun v => v.peg != k) →
    (t.peg n k).value.toNat = min 65535 (p.value.toNat + amount) ∧
    ((t.peg n k).ovf = (p.ovf || decide (65535 < p.value.toNat + amount))) ∧
    (t.peg n k).holders = p.holders ∧ (∀ j, j ≠ k → t.peg n j = s.peg n j) ∧
    t.obj (Key.at Key.pegOverflows n)
      = (if 65535 < p.value.toNat + amount then min (2 ^ 32 - 1) (s.obj (Key.at Key.pegOverflows n) + 1)
         else s.obj (Key.at Key.pegOverflows n))

/-- R148: a granted take subtracts its amount, and a take of more than the peg holds is never granted. -/
def Obligations.TakesSubtract : Prop :=
  ∀ (s : State) (n k i amount : Nat),
    (s.takeReady n k i amount = true → amount ≤ (s.peg n k).value.toNat) ∧
    (s.takeReady n k i amount = true →
      ((s.takePeg n k i amount).peg n k).value.toNat = (s.peg n k).value.toNat - amount) ∧
    (∀ j, j ≠ k → (s.takePeg n k i amount).peg n j = s.peg n j)

/-- R153: a pulse increments a slot's pending counter of its line; at 255 it is lost. The other lines' counters keep their counts. -/
def Obligations.PendingCountersStop : Prop :=
  ∀ (t : Tab Nat) (line : Nat),
    (tabGet t line 0 < 255 → tabGet (addPending t line).1 line 0 = tabGet t line 0 + 1 ∧ (addPending t line).2 = false) ∧
    (255 ≤ tabGet t line 0 → addPending t line = (t, true)) ∧
    (∀ l, l ≠ line → tabGet (addPending t line).1 l 0 = tabGet t l 0)

/-! ### Engine commands (chapters 03 to 10) -/

/-- R126 to R128, R142, R295, R460: how a command is fetched, and what holds it back. Fetching it changes nothing but its slot's buffer, and
that only within the body of an active loop, which is held there. It is a slot's turn where no other slot of its core has a command that
waits, could issue and comes before it: by effective priority, and among equals in ascending order of slot number from the slot after the
one that issued last. An engine command whose engine holds an earlier command of its slot, or whose turn it is not, waits in the buffer,
and no other command of the slot issues until it has. One that may request state before the journal is replayed issues nothing. -/
def Obligations.BusyEnginesHoldIssue : Prop :=
  (∀ (u : SlotRef) (w : CmdWord) (s : State) (op : Nat),
    let i := slotIndex u
    let x := s.slot i
    let f := s.fetched u w op
    f.slot i = { x with buffer := (f.slot i).buffer } ∧ (∀ j, j ≠ i → f.slot j = s.slot j) ∧ f = { s with slots := f.slots } ∧
    (x.loops.all (fun l => !l.holds x.streamPtr) = true ∨ x.held ≠ none → f = s) ∧
    (x.loops.any (fun l => l.holds x.streamPtr) = true → x.held = none →
      (f.slot i).held = some { ptr := x.streamPtr, opcode := op, word := w.toNat, waits := none })) ∧
  (∀ (s : State) (i : Nat),
    s.turn i = true ↔ ∀ k, k < 4 →
      let o := 4 * coreOfSlot i + k
      let after := fun (q : Nat) => (q + 3 - tabGet s.lastIssued (coreOfSlot i) 3) % 4
      o ≠ i → s.waitingReady o = true →
      s.effPrio o < s.effPrio i ∨ (s.effPrio o = s.effPrio i ∧ after (i % 4) < after k)) ∧
  ∀ (s : State) (u : SlotRef) (w : CmdWord) (opcode : Nat) (form : Form) (engines : Nat → List Engine × Bool)
    (work : State → Nat → Nat → Work) (d : Nat),
    let i := slotIndex u
    let f := s.fetched u w opcode
    let held := f.holdCommand i opcode w.toNat (some (engines d).1)
    s.fetches u w opcode = true → (s.slot i).predicate w.toNat = true →
    (0x60 ≤ opcode → f.stateServed = false → s.issueEngine u w opcode form engines work = f) ∧
    (formOk form w.toNat = true → f.opndAllowed i w.toNat = true → f.readDesc i w.toNat form = .ok d →
      (opcode < 0x60 ∨ f.stateServed = true) → (f.slotBusy i (engines d).1 = true ∨ f.turn i = false) →
      s.issueEngine u w opcode form engines work = held) ∧
    (∀ op n, (held.slot i).fits op n = true ↔ (op = opcode ∧ n = w.toNat))

/-- R120, R123, R117: an engine command with both DONE_SIG and PRE_WAIT, with either and no operand, with neither and an operand, or
with flags that do not match its opcode's form, is rejected with DESCRIPTOR_INVALID: its pitch is torn down and it does no work. So is a
control command with DONE_SIG or PRE_WAIT, whatever its operand (R139), and a command in a slot's stream whose opcode R124 does not list,
as the slot fetches it (R10); a listed opcode, and a command that a false predicate skips, is not rejected so. -/
def Obligations.MalformedCommandsAreRejected : Prop :=
  (∀ (s : State) (i word : Nat),
    let x := s.slot i
    s.streamWord i = some word →
    (s.canIssue i = true → x.held = none → x.predicate word = true → opcodeListed (field word 127 120) = false →
      s.rejectReserved i = s.faultSlot i (fcDescriptor, 0) (field word 127 120) x.streamPtr) ∧
    (opcodeListed (field word 127 120) = true ∨ x.predicate word = false → s.rejectReserved i = s)) ∧
  (∀ (s : State) (u : SlotRef) (w : CmdWord) (opcode : Nat) (form : Form) (engines : Nat → List Engine × Bool)
    (work : State → Nat → Nat → Work),
    let i := slotIndex u
    let n := w.toNat
    let f := s.fetched u w opcode
    s.fetches u w opcode = true → (s.slot i).predicate n = true → (opcode < 0x60 ∨ f.stateServed = true) →
    ((cwDone n = true ∧ cwPre n = true) ∨ ((cwDone n = true ∨ cwPre n = true) ∧ cwKind n = 0) ∨
      (cwDone n = false ∧ cwPre n = false ∧ (cwKind n ≠ 0 ∨ cwOpnd n ≠ 0)) ∨ cwDesc n ≠ decide (form ≠ .inline) ∨
      cwDesc128 n ≠ decide (form = .d128)) →
    s.issueEngine u w opcode form engines work
      = f.faultSlot i (fcDescriptor, if cwDesc n then cwArgs n % 2 ^ 22 else 0) opcode (s.slot i).streamPtr) ∧
  ∀ (s : State) (u : SlotRef) (w : CmdWord) (opcode : Nat) (kind : Nat → Bool) (fields : List (Nat × Nat)) (act : State → Nat → Nat → State),
    let i := slotIndex u
    s.mayIssue u w opcode = true → (s.slot i).predicate w.toNat = true → (cwDone w.toNat = true ∨ cwPre w.toNat = true) →
    s.control u w opcode kind fields act = (s.fetched u w opcode).faultSlot i (fcDescriptor, 0) opcode (s.slot i).streamPtr

/-- R121: where a descriptor block may lie: its offset not a multiple of 64 B is DESCRIPTOR_INVALID, and a block that runs outside the
slot's scratchpad share is ADDRESS: the command faults and its pitch is torn down; one that lies within it and meets no poison is read
whole, least significant byte first. -/
def Obligations.DescriptorBlocks : Prop :=
  ∀ (s : State) (i n : Nat) (form : Form), form ≠ .inline →
    let off := cwArgs n
    let size := (s.slot i).spBytes
    (off % 64 ≠ 0 → s.readDesc i n form = .error (fcDescriptor, off)) ∧
    (off % 64 = 0 → size < off + form.bytes → s.readDesc i n form = .error (fcAddress, off)) ∧
    (off % 64 = 0 → off + form.bytes ≤ size → s.spPoisonFault i off form.bytes = none →
      s.readDesc i n form = .ok (leNat (s.readSp i off form.bytes))) ∧
    (∀ (u : SlotRef) (w : CmdWord) (e : PitchFault) (opcode : Nat) (engines : Nat → List Engine × Bool) (work : State → Nat → Nat → Work),
      let f := s.fetched u w opcode
      slotIndex u = i → w.toNat = n → s.fetches u w opcode = true → (s.slot i).predicate n = true →
      (opcode < 0x60 ∨ f.stateServed = true) → formOk form n = true → f.opndAllowed i n = true →
      f.readDesc i n form = .error e →
      s.issueEngine u w opcode form engines work = f.faultSlot i e opcode (s.slot i).streamPtr)

/-- R157, R158, R168: MMA, ACC_ZERO and ACC_MOVE issue on the matrix engine that they name, with their work. A matrix operation's tile
steps go tile by tile, each tile's chunks of 512 reduction indices in ascending order; with ENGINE 0b11 the even tiles are engine 0's and
the odd ones engine 1's; each step writes within its tile. -/
def Obligations.MatrixCommandsIssue : Prop :=
  (∀ (s : State) (i engine tile m n k t q : Nat) (start : Nat → Nat → Word) (operands : Nat → Nat → List (Option (Machine.Num × Machine.Num))),
    t < ceilDiv m 32 * ceilDiv n 32 → q < ceilDiv k 512 →
    ∃ x, (s.tileSteps i engine tile m n k start operands)[t * ceilDiv k 512 + q]? = some x ∧
      x.on = (if engine = 3 then some (if t % 2 = 0 then .m0 else .m1) else none) ∧
      ∀ w ∈ x.writes, w.1 = true ∧ 4096 * (tile + t) ≤ w.2.1 ∧ w.2.1 + w.2.2.length ≤ 4096 * (tile + t + 1)) ∧
  EngineIssues .mma 0x20 .d64 (fun d => matEngines (field d 266 265)) State.mmaWork ∧
  EngineIssues .accZero 0x21 .inline accEngine State.accZeroWork ∧
  EngineIssues .accMove 0x22 .inline accEngine State.accMoveWork

/-- R170, R171, R173, R178: the vector commands issue on the vector engine; each computes this of its sources. Its steps write the
destination's rows in order, each once, however rows divide among steps (the model's choice, log entry 126). -/
def Obligations.VectorCommandsIssue : Prop :=
  (∀ (per : Nat) (rows : List Step), (joinSteps per rows).flatMap (fun x => x.writes) = rows.flatMap (fun x => x.writes)) ∧
  VectorIssues .vadd 0x40 (vecElem 2) (map2 f32Add) ∧ VectorIssues .vsub 0x41 (vecElem 2) (map2 f32Sub) ∧
  VectorIssues .vmul 0x42 (vecElem 2) (map2 f32Mul) ∧ VectorIssues .vfma 0x43 (vecElem 3) (map3 f32Fma) ∧
  VectorIssues .vmax 0x44 (vecElem 2) (map2 f32Max) ∧ VectorIssues .vmin 0x45 (vecElem 2) (map2 f32Min) ∧
  VectorIssues .vcmp 0x46 (vecElem 2 true) compareRows ∧ VectorIssues .vsel 0x47 (vecElem 3) (map3 selectElem) ∧
  VectorIssues .vcvt 0x48 (vecElem 1) (map1 convertElem) ∧
  VectorIssues .vexp 0x49 (vecElem 1) (map1 (transcendental 0x49)) ∧
  VectorIssues .vexp2 0x4A (vecElem 1) (map1 (transcendental 0x4A)) ∧
  VectorIssues .vlog2 0x4B (vecElem 1) (map1 (transcendental 0x4B)) ∧
  VectorIssues .vrcp 0x4C (vecElem 1) (map1 (transcendental 0x4C)) ∧
  VectorIssues .vrsqrt 0x4D (vecElem 1) (map1 (transcendental 0x4D)) ∧
  VectorIssues .vdiv 0x4E (vecElem 2) (map2 f32Div) ∧
  VectorIssues .vtanh 0x4F (vecElem 1) (map1 (transcendental 0x4F)) ∧
  VectorIssues .vsigm 0x50 (vecElem 1) (map1 (transcendental 0x50)) ∧
  VectorIssues .vsilu 0x51 (vecElem 1) (map1 (transcendental 0x51)) ∧
  VectorIssues .vgelu 0x52 (vecElem 1) (map1 (transcendental 0x52)) ∧
  VectorIssues .vrsum 0x53 vecReduce (mapRow (laneReduce f32Add)) ∧ VectorIssues .vrmax 0x54 vecReduce (mapRow rowMax) ∧
  VectorIssues .vrssq 0x55 vecReduce (mapRow (laneReduce addSquare)) ∧ VectorIssues .vtrans 0x56 vecTransposed transposeRows

/-- Chapter 04: the transfer commands issue on the transfer engine; those that move bytes form their first packet at once. -/
def Obligations.TransferCommandsIssue : Prop :=
  EngineIssues .xcopy 0x60 .d64 xfrOnly (State.xWork 0x60) (after := firstPacket) ∧
  EngineIssues .xgather 0x61 .d64 xfrOnly (State.xWork 0x61) (after := firstPacket) ∧
  EngineIssues .xscatter 0x62 .d64 xfrOnly (State.xWork 0x62) (after := firstPacket) ∧
  EngineIssues .xchain 0x63 .d128 xfrOnly State.xchainWork ∧
  EngineIssues .xqread 0x64 .d64 xfrOnly State.xqreadWork (after := firstPacket) ∧
  EngineIssues .xqflush 0x65 .inline xfrOnly State.xqflushWork ∧
  EngineIssues .xfill 0x66 .inline xfrOnly State.xfillWork (after := firstPacket)

/-- Chapter 08: the sliding-window commands issue on the engines of R124. -/
def Obligations.WindowCommandsIssue : Prop :=
  EngineIssues .wconv 0x80 .d128 (fun d => matEngines (field d 434 433)) State.wconvWork ∧
  EngineIssues .wpool 0x81 .d128 vecOnly State.wpoolWork ∧
  EngineIssues .wexpand 0x82 .d128 xfrOnly State.wexpandWork (after := firstPacket) ∧
  EngineIssues .whalo 0x83 .d128 xfrOnly State.whaloWork (after := firstPacket)

/-- Chapter 06: the key/value commands issue on the engines of R124. -/
def Obligations.KvCommandsIssue : Prop :=
  EngineIssues .kvapp 0x90 .d64 (fun _ => ([.vec, .xfr], false)) State.kvAppWork ∧
  EngineIssues .kvscore 0x91 .d128 (fun _ => ([.m0], false)) State.kvScoreWork ∧
  EngineIssues .kvsel 0x92 .d64 vecOnly State.kvSelWork ∧
  EngineIssues .kvattn 0x93 .d128 (fun _ => ([.m0, .m1, .vec], false)) State.kvAttnWork ∧
  EngineIssues .kvpref 0x94 .d128 (fun _ => ([.m0, .m1, .vec], false)) State.kvPrefWork ∧
  EngineIssues .kvsketch 0x95 .d64 vecOnly State.kvSketchWork

/-- Chapter 07: the recurrent commands issue, and a handle whose hold is free is granted at once; RSWAP's rows differ in ACTION. -/
def Obligations.RecurrentCommandsIssue : Prop :=
  EngineIssues .rcell 0xA0 .d128 cellEngines State.rcellWork (after := (fun _ => State.grantHandles)) ∧
  EngineIssues .rproj 0xA1 .d128 (fun d => matEngines (field d 334 333)) State.rprojWork ∧
  EngineIssues .rscan 0xA2 .d128 vecOnly State.rscanWork (after := (fun _ => State.grantHandles)) ∧
  EngineIssues .rckpt 0xA3 .d64 xfrOnly State.rckptWork (after := (fun _ => State.grantHandles)) ∧
  EngineIssues .rswapOut 0xA4 .d64 xfrOnly State.rswapWork (fun d => field d 33 32 == 0) (fun _ => State.grantHandles) ∧
  EngineIssues .rswapIn 0xA4 .d64 xfrOnly State.rswapWork (fun d => field d 33 32 == 1) (fun _ => State.grantHandles) ∧
  EngineIssues .rswapRevoke 0xA4 .d64 xfrOnly State.rswapWork (fun d => field d 33 32 == 2) (fun _ => State.grantHandles)

/-- Chapter 10: the fabric commands issue on the transfer engine; a group's arrivals are served at once; FCOLL's rows differ in COP,
FGLOBAL's in GOP. -/
def Obligations.FabricCommandsIssue : Prop :=
  EngineIssues .fwrite 0xB0 .d64 xfrOnly State.fwriteWork ∧ EngineIssues .fread 0xB1 .d64 xfrOnly State.freadWork ∧
  EngineIssues .fmsg 0xB2 .d64 xfrOnly State.fmsgWork ∧
  EngineIssues .fcollAllreduce 0xB3 .d128 xfrOnly State.fcollWork (fun d => field d 297 295 == 0) (fun _ => State.serveGroups) ∧
  EngineIssues .fcollReduce 0xB3 .d128 xfrOnly State.fcollWork (fun d => field d 297 295 == 1) (fun _ => State.serveGroups) ∧
  EngineIssues .fcollBroadcast 0xB3 .d128 xfrOnly State.fcollWork (fun d => field d 297 295 == 2) (fun _ => State.serveGroups) ∧
  EngineIssues .fglobalBarrier 0xB4 .d64 xfrOnly State.fglobalWork (fun d => field d 494 492 == 0) (fun _ => State.serveGroups) ∧
  EngineIssues .fglobalBroadcast 0xB4 .d64 xfrOnly State.fglobalWork (fun d => field d 494 492 == 1) (fun _ => State.serveGroups)

/-! ### What engine commands leave -/

/-- R169: ACC_ZERO leaves +0 in the tiles it names; ACC_MOVE leaves in tile DST + k what tile SRC + k held, overlaps included; neither
changes another byte of the accumulator file, another core, a slot, or anything else. What is left is said of the command's steps, each
landed in order. -/
def Obligations.AccumulatorTilesMove : Prop :=
  ∀ (s : State) (i d a : Nat),
    let n := field d 14 8 + 1
    let first := field d 6 0
    let dst := field d 22 16
    let base := (s.slot i).accBase * 4096
    let acc := (s.core (coreOfSlot i)).acc
    let ran := fun (k : Work) => k.todo.foldl (fun t x => t.landStep i x) k.s
    let after := fun (k : Work) => memByte ((ran k).core (coreOfSlot i)).acc a
    let rest := fun (k : Work) => (∀ c, c ≠ coreOfSlot i → (ran k).core c = s.core c) ∧ (∀ j, (ran k).slot j = s.slot j) ∧
      ((ran k).core (coreOfSlot i)).scratch = (s.core (coreOfSlot i)).scratch ∧
      ran k = { s with cores := (ran k).cores, slots := (ran k).slots }
    (onlyBits d [(6, 0), (14, 8), (24, 24)] = true → first + n ≤ (s.slot i).accTiles →
      (s.accZeroWork i d).err = none ∧ (s.accZeroWork i d).stall = none ∧
      after (s.accZeroWork i d) = (if base + 4096 * first ≤ a ∧ a < base + 4096 * (first + n) then 0 else memByte acc a) ∧
      rest (s.accZeroWork i d)) ∧
    (onlyBits d [(6, 0), (14, 8), (22, 16), (24, 24)] = true → first + n ≤ (s.slot i).accTiles → dst + n ≤ (s.slot i).accTiles →
      s.spacePoison i true (4096 * first) (4096 * n) = none →
      (s.accMoveWork i d).err = none ∧ (s.accMoveWork i d).stall = none ∧
      after (s.accMoveWork i d) = (if base + 4096 * dst ≤ a ∧ a < base + 4096 * (dst + n)
        then memByte acc (a - 4096 * dst + 4096 * first) else memByte acc a) ∧
      rest (s.accMoveWork i d))

/-- R196, R208, R210: XFILL of a range of the slot's scratchpad share goes by packets of 4,096 B in ascending order. A packet within the
share is formed and lands: byte j of the range receives byte j mod 4 of PATTERN, every other byte of the scratchpad is unchanged, and so
is everything but the core. A packet that runs outside the share faults with ADDRESS as it is formed. -/
def Obligations.FillWritesThePattern : Prop :=
  ∀ (s : State) (i d k a : Nat),
    let off := field d 23 0
    let len := field d 55 32 + 1
    let w := s.xfillWork i d
    let at_ := off + 4096 * k
    let n := min 4096 (len - 4096 * k)
    onlyBits d [(95, 64), (55, 32), (31, 28), (27, 25), (23, 0)] = true → field d 31 28 = 0 → field d 27 25 = 0 →
    w.err = none ∧ w.stall = none ∧ w.s = s ∧ ∃ m, w.move = some m ∧ m.runs.length = ceilDiv len 4096 ∧
    (k < ceilDiv len 4096 →
      let f := s.formPacket i { m with runs := m.runs.drop k }
      let t := s.landPieces i f.2.2
      let base := (s.slot i).spBase * 262144 + at_
      ((s.slot i).spBytes < at_ + n → f.1.err = some (fcAddress, at_)) ∧
      (at_ + n ≤ (s.slot i).spBytes → f.1.err = none ∧ f.1.s = s ∧ t.err = none ∧ t.stall = none ∧
        memByte (t.s.core (coreOfSlot i)).scratch a
          = (if base ≤ a ∧ a < base + n then BitVec.ofNat 8 (field d 95 64 / 256 ^ ((a - base) % 4))
             else memByte (s.core (coreOfSlot i)).scratch a) ∧
        (∀ c, c ≠ coreOfSlot i → t.s.core c = s.core c) ∧ t.s = { s with cores := t.s.cores }))

/-- R64, R65: an operation with a NaN operand returns NaN, maximum and minimum included; the maximum of +0 and −0 is +0, and their
minimum −0, in either operand order. -/
def Obligations.NanAndSignedZeros : Prop :=
  (∀ a b c : Word, (isNan32 a = true ∨ isNan32 b = true →
      (f32Add a b).bits = nan32 ∧ (f32Sub a b).bits = nan32 ∧ (f32Mul a b).bits = nan32 ∧ (f32Div a b).bits = nan32 ∧
      (f32Max a b).bits = nan32 ∧ (f32Min a b).bits = nan32 ∧ (f32Fma a b c).bits = nan32) ∧
    (isNan32 c = true → (f32Fma a b c).bits = nan32)) ∧
  (f32Max 0 0x80000000).bits = 0 ∧ (f32Max 0x80000000 0).bits = 0 ∧
  (f32Min 0 0x80000000).bits = 0x80000000 ∧ (f32Min 0x80000000 0).bits = 0x80000000

/-- R171: a comparison gives 1.0 or +0; with a NaN operand only "not equal" holds; without one it is the order of the values, in which
the two zeros are equal. -/
def Obligations.VectorComparisons : Prop :=
  ∀ (a b : Word) (subop : Nat), subop < 4 →
    ((vecCompare subop a b).bits = 0x3F800000 ∨ (vecCompare subop a b).bits = 0) ∧
    (isNan32 a = true ∨ isNan32 b = true → (vecCompare subop a b).bits = (if subop = 1 then 0x3F800000 else 0)) ∧
    (isNan32 a = false → isNan32 b = false → (vecCompare subop a b).bits =
      (if (subop = 0 ∧ f32Key a = f32Key b) ∨ (subop = 1 ∧ f32Key a ≠ f32Key b) ∨ (subop = 2 ∧ f32Key a < f32Key b)
          ∨ (subop = 3 ∧ f32Key a ≤ f32Key b) then 0x3F800000 else 0))

/-- R54, R67: a bf16 value widened to FP32 and narrowed again is itself, without a flag; a NaN becomes the canonical NaN. -/
def Obligations.Bf16RoundTrip : Prop :=
  ∀ h : Nat, h < 65536 → toBf16 (ofBf16 h)
    = (if isNan32 (BitVec.ofNat 32 (h * 65536)) then { bits := 0x7FC0 } else { bits := BitVec.ofNat 32 h, fl := 0 })

/-- R69: narrowing to the FP8 formats: a finite value below half the smallest subnormal goes to zero of its sign, and one of exactly
half of it to the smallest subnormal. `q` is the exponent of half the smallest subnormal: −10 and −17. -/
def Obligations.NarrowingBelowSubnormals : Prop :=
  ∀ (x : Word) (neg : Bool) (m : Nat) (e : Int), f32Value x = .fin neg m e →
    ∀ p ∈ [(Fmt.e4m3, (-10 : Int)), (Fmt.e5m2, (-17 : Int))],
      (∀ k : Nat, e + k = p.2 → m < 2 ^ k → (narrow p.1 x).bits = (if x.toNat < 2 ^ 31 then 0 else 128)) ∧
      (∀ k : Nat, e + k = p.2 → m = 2 ^ k → (narrow p.1 x).bits = (if x.toNat < 2 ^ 31 then 1 else 129))

/-- R98, R99: the conditions that a command meets are set in its slot's NUM_FLAGS and stay; NUM_SAT_COUNT counts the saturated elements
and stops at 0xFFFF_FFFF; no other register of the slot, and no other slot, changes. -/
def Obligations.NumberStatusAccumulates : Prop :=
  ∀ (s : State) (i : Nat) (m : Met),
    ((s.meet i m).slot i).numFlags = (s.slot i).numFlags ||| m.fl ∧
    ((s.meet i m).slot i).satCount.toNat = min 0xFFFFFFFF ((s.slot i).satCount.toNat + m.sat) ∧
    (s.meet i m).slot i = { s.slot i with numFlags := ((s.meet i m).slot i).numFlags, satCount := ((s.meet i m).slot i).satCount } ∧
    (∀ j, j ≠ i → (s.meet i m).slot j = s.slot j) ∧ s.meet i m = { s with slots := (s.meet i m).slots }

/-- A store to any of the block's memories: the bytes stored read back, every other byte reads as before, and the canonical form is
kept; clearing a range leaves zeros there and nothing else changed. -/
def Obligations.MemoryReadsAfterWrites : Prop :=
  ∀ (m : Mem) (a x : Nat) (bs : List Byte),
    memByte (memWrite m a bs) x = (if a ≤ x ∧ x < a + bs.length then bs.getD (x - a) 0 else memByte m x) ∧
    (m.wf = true → (memWrite m a bs).wf = true) ∧
    (∀ n, (m.wf = true → (memClear m a n).wf = true) ∧
      memByte (memClear m a n) x = (if a ≤ x ∧ x < a + n then 0 else memByte m x))

/-! ### Engines, cluster controllers and requests on their own -/

/-- R101, R134, R136, R181: an engine's step or packet ends: its cycles are counted, the conditions met in it are decided, and the command
goes on with its next step or packet; where a condition it met is enabled in NUM_TRAP as it stands at that end the pitch is torn down with
ARITH_TRAP; where a command of higher priority waits, the command is suspended with what it still has to do, and the engine given away. A
later step reads memory as it begins (R131, R157). DIV_APPLY sets DIV and nothing else of CORE_MODE (R185). -/
def Obligations.EngineStepsEnd : Prop :=
  ∀ (cr : CoreRef) (e : Engine) (cycles : Nat) (s : State) (j : Job),
    let c := coreIndex cr
    let s1 := if s.sec.confidential then s else s.modCore c (fun k => k.busy e cycles)
    let s2 := s1.modJob j.slot e (fun k => { k with conds := k.conds.filter (fun x => x.1 != e) })
    (((s.core c).runner e = some j → j.condsOn e &&& (s1.slot j.slot).numTrap = 0 → s2.preempter c e j = none →
      exec (.engineStepEnd cr e cycles) s = .next (s2.goOn j.slot e)) ∧
    ((s.core c).runner e = some j → j.condsOn e &&& (s1.slot j.slot).numTrap ≠ 0 →
      exec (.engineStepEnd cr e cycles) s
        = .next (s2.faultSlot j.slot (fcArith, (s2.slot j.slot).numFlags.toNat) j.opcode j.cmdPtr)) ∧
    (∀ k, (s.core c).runner e = some j → j.condsOn e &&& (s1.slot j.slot).numTrap = 0 → s2.preempter c e j = some k →
      exec (.engineStepEnd cr e cycles) s = .next ((s2.modCore c (fun k => { k with
        jobs := updateJob k.jobs j.slot e (fun j => { j with running := j.running.filter (· != e) })
        preempts := if s.sec.confidential then k.preempts else k.preempts + 1 })).startFreed c))) ∧
    (∀ (i : Nat) (x : Step) (rest : List Step), s.jobOf i e = some j → j.isChunk = false → s.formed j = true →
      j.nextStep e = some (x, rest) →
      (∀ y, s.stepNow j x = .ok y → s.goOn i e = (s.modJob i e (fun j =>
        { j with todo := rest, conds := j.conds ++ [(e, y.fl)] })).landStep i y) ∧
      (∀ f, s.stepNow j x = .error f → s.goOn i e = s.faultSlot i f j.opcode j.cmdPtr)) ∧
    (∀ d, (s.core c).newDiv = some d → ∃ t, exec (.divApply cr) s = .next t ∧
      (d < 8 → field (t.core c).mode.toNat 10 8 = d) ∧ (t.core c).mode &&& 0xFFFFF8FF = (s.core c).mode &&& 0xFFFFF8FF ∧
      t.core c = { s.core c with mode := (t.core c).mode, newDiv := none } ∧
      (∀ k, k ≠ c → t.core k = s.core k) ∧ t = { s with cores := t.cores })

/-- R132, R226, R218: a command that runs on all its engines and waits for nothing completes; a commit acknowledgement and clean read
data free their tag and bring on the command that asked, and the commands that wait for a tag. -/
def Obligations.CommandsAndRequestsComplete : Prop :=
  ∀ (s : State) (u : SlotRef) (e : Engine) (j : Job) (tag line : Nat) (g : TagEntry),
    let s1 := s.pushJob (slotIndex u) e
    (s.power.st = .active → s1.jobOf (slotIndex u) e = some j → s1.canComplete j = true →
      exec (.commandComplete u e) s = .next (s1.complete (slotIndex u) e j).afterRequests) ∧
    (s.tier.tags.find? (fun x => x.tag == tag && x.write && !x.fabric && x.slot != noSlot) = some g →
      (s.freeTag tag).jobOfTag g.slot tag = some j →
      let t := (s.freeTag tag).returnTag j tag
      t.tagCurrent (t.pitch g.pitch).tenantTag = true → exec (.writeCommitAck tag) s = .next (t.afterReturn j).afterAnswer) ∧
    (s.tier.tags.find? (fun x => x.tag == tag && !x.write && !x.fabric && x.slot != noSlot) = some g →
      ∀ found, found ≠ .uncorrectable → found ≠ .poison →
      let f := (s.freeTag tag).noteRead g none found line
      f.jobOfTag g.slot tag = some j →
      (f.returnTag j tag).tagCurrent ((f.returnTag j tag).pitch g.pitch).tenantTag = true →
      exec (.readResponse tag none found line) s = .next ((f.returnTag j tag).afterReturn j).afterAnswer)

/-- R217, R469, R482, R301: poisoned read data, a donation's quantum, a watchdog and a quota stall that have run out tear down the pitch
with ECC_UNCORRECTABLE or the poison's code, PEG_DONATION_TIMEOUT, WATCHDOG and QUOTA; one that has not run out changes nothing. -/
def Obligations.TimersAndPoisonTearDown : Prop :=
  ∀ (s : State) (u : SlotRef) (cluster : Fin 6) (peg : Nat) (d : Donation) (pitch slot tag code line : Nat) (g : TagEntry)
    (j : Job) (w : Stalled) (since : Nat),
    let i := slotIndex u
    let us := s.obj (Key.at Key.watchdogUs (s.slot i).pitch)
    let quantum := 1000 * s.obj (Key.at Key.donationQuantumUs (s.slot d.waiter).pitch)
    (s.watchdogRuns i = true → us ≠ 0 → 1000 * us ≤ (s.slot i).watchRun →
      exec (.watchdogExpiry u) s = .next (s.faultSlot i (fcWatchdog, 0) 0 (s.slot i).streamPtr)) ∧
    (s.watchdogRuns i = false ∨ us = 0 ∨ (s.slot i).watchRun < 1000 * us → exec (.watchdogExpiry u) s = .next s) ∧
    ((s.cluster cluster.val).donations = [d] → d.peg = peg → (s.peg cluster.val peg).held d.holder ≠ 0 →
      (d.start + quantum ≤ s.time → exec (.donationQuantumExpiry cluster peg) s
        = .next (s.faultPitch (s.slot d.holder).pitch fcDonation (1024 * cluster.val + peg)
          { slot := some d.holder, waiter := (s.slot d.waiter).pitch })) ∧
      (s.time < d.start + quantum → exec (.donationQuantumExpiry cluster peg) s = .next s)) ∧
    (s.tier.stalled = [w] → w.pitch = pitch → w.since = some since →
      (since + 1000 * s.obj (Key.at Key.quotaStallUs pitch) ≤ s.time →
        (s.quotaSlot pitch w.addr = some slot →
          exec (.quotaStallTimeout pitch) s = .next (s.faultSlot slot (fcQuota, w.addr) 0 (s.slot slot).streamPtr)) ∧
        (s.quotaSlot pitch w.addr = none → exec (.quotaStallTimeout pitch) s = .next (s.faultPitch pitch fcQuota w.addr))) ∧
      (s.time < since + 1000 * s.obj (Key.at Key.quotaStallUs pitch) → exec (.quotaStallTimeout pitch) s = .next s)) ∧
    (s.tier.tags.find? (fun x => x.tag == tag && !x.write && !x.fabric && x.slot != noSlot) = some g →
      let f := (s.freeTag tag).noteRead g (some code) .clean line
      f.jobOfTag g.slot tag = some j →
      exec (.readResponse tag (some code) .clean line) s
        = .next ((f.returnTag j tag).faultSlot g.slot (code, g.addr) j.opcode j.cmdPtr).afterAnswer) ∧
    (s.tier.tags.find? (fun x => x.tag == tag && !x.write && !x.fabric && x.slot != noSlot) = some g →
      let f := (s.freeTag tag).noteRead g none .uncorrectable line
      f.jobOfTag g.slot tag = some j →
      exec (.readResponse tag none .uncorrectable line) s
        = .next ((f.returnTag j tag).faultSlot g.slot (fcEccUncorr, g.addr) j.opcode j.cmdPtr).afterAnswer)

/-- R26, R42, R144, R153: the oldest pulse in flight on a line, no older one of its sender being in flight, arrives at the one slot to which
the line is routed; one with an older pulse of its sender before it stays. A parked slot that MC firmware wakes is ACTIVE again; FTIME_LO
latches the upper half of fabric time (R192). -/
def Obligations.PulsesAndWakes : Prop :=
  ∀ (s : State) (cluster : Fin 6) (line core slot : Nat) (q r : Pulse) (u : SlotRef),
    let n := cluster.val
    let s1 := s.modCluster n (fun c => { c with pulses := c.pulses.eraseP (·.line == line) })
    ((s.cluster n).pulses.find? (fun p => p.line == line) = some q →
      ((s.cluster n).pulses.find? (fun p => p.src == q.src) = some q → q.only = none →
        (s.cluster n).routes.filter (fun r => r.1 == line) = [(line, .slot core slot)] →
        (s.cluster n).forwards.any (fun f => f.line == line) = false →
        exec (.eventPulseArrive cluster line) s = .next (s1.pulseSlot (32 * n + 4 * core + slot) line)) ∧
      ((s.cluster n).pulses.find? (fun p => p.src == q.src) = some r → r.line ≠ line →
        exec (.eventPulseArrive cluster line) s = .next s)) ∧
    ((s.slot (slotIndex u)).st = .parked →
      exec (.slotWake u) s = .next (((s.modSlot (slotIndex u) (fun x => { x with st := .active, watchRun := 0 })).modCore
        (coreOfSlot (slotIndex u)) (fun k => k.wake)).callCluster (clusterOfSlot (slotIndex u)))) ∧
    (∃ t, exec (.ftimeLoRead u) s = .next t ∧
      t = s.modSlot (slotIndex u) (fun x => { x with ftimeHi := BitVec.ofNat 32 (s.time / 2 ^ 32) }))

/-- R220 to R223: a chain's next entry starts once the entry before it is complete: its descriptor is read from the list; without WAIT_EN it
forms its first packet under the steps of its repetition, and the chain moves to its next entry; an entry outside the share faults with
ADDRESS. One of its packets that is not yet written, or a tag that is out, holds the next entry back. -/
def Obligations.ChainEntriesStart : Prop :=
  ∀ (s : State) (u : SlotRef) (j : Job) (c : Chain),
    let i := slotIndex u
    let off := c.listOff + 64 * c.entry
    let d := leNat (s.readSp i off 64)
    let k := s.entryWork i d c
    s.jobOf i .xfr = some j → j.chain = some c →
    (j.flight ≠ [] ∨ j.tags ≠ [] ∨ j.move ≠ none ∨ j.qread ≠ none ∨ j.running.contains .xfr = false →
      exec (.xchainEntryStart u) s = .next s) ∧
    (j.slot = i → j.wait = .none → j.moved = true → j.cmplLines = [] → j.running.contains .xfr = true →
      (s.outside i false off 64 = true →
        exec (.xchainEntryStart u) s = .next (s.faultSlot i (fcAddress, off) 0x63 j.cmdPtr)) ∧
      (s.outside i false off 64 = false → s.spPoisonFault i off 64 = none → [0x60, 0x61, 0x62, 0x64].contains (xOp d) = true →
        xWaitEn d = false → k.err = none →
        exec (.xchainEntryStart u) s = .next ((k.s.putXfr { j with
          cmplLines := k.cmpl, qread := k.qread, move := k.move, chain := c.next }).pushMove i)))

/-- R486 step 6, R490: a torn-down pitch ends its teardown: its slots are IDLE, it is TORN_DOWN, its count of teardowns and its last
fault code follow, and the record stands first in the teardown log and goes to the host. -/
def Obligations.TeardownEnds : Prop :=
  ∀ (s : State) (p : Nat) (d : Teardown),
    ((s.pitch p).st = .teardown → (s.pitch p).down = some d → d.removeAfter = false →
      exec (.teardownComplete p) s = .next (((s.endTeardown p d).recordTeardown p d).tellTeardown p).afterRequests) ∧
    (((s.endTeardown p d).pitch p).st = .tornDown ∧ ((s.endTeardown p d).pitch p).down = none ∧
      (∀ i ∈ (s.pitch p).slots, ((s.endTeardown p d).slot i).st = .idle) ∧
      (∀ q, q ≠ p → (s.endTeardown p d).pitch q = s.pitch q) ∧
      (s.recordTeardown p d).teardownLog.head? = some (teardownRecord p (s.pitch p).tenantTag d false) ∧
      (s.recordTeardown p d).teardownLog.length ≤ 256)

/-- R185, R187: a write of CORE_MODE asks for its DIV where that is 3 to 7, and takes its MODE only where no slot of the core is
assigned and the MODE is not reserved; a MODE other than RUN then gates the core. That RUN gates and wakes nothing is the model's choice
(log entry 125). -/
def Obligations.CoreModeWrites : Prop :=
  ∀ (cr : CoreRef) (v : Word) (s : State),
    let c := coreIndex cr
    let div := field v.toNat 10 8
    let mode := field v.toNat 1 0
    let s1 := ({ s with power := { s.power with divRequest := tabSet s.power.divRequest c div } } : State).requestDiv c
    let free := (List.range 4).all (fun k => (s.slot (4 * c + k)).st == .idle)
    let moded := fun (t : State) => t.modCore c (fun k => { k with mode := k.mode &&& 0xFFFFFFFC ||| BitVec.ofNat 32 mode })
    (div < 3 → (free = false ∨ mode = 3) → exec (.coreModeWrite cr v) s = .next s) ∧
    (3 ≤ div → (free = false ∨ mode = 3) → exec (.coreModeWrite cr v) s = .next s1) ∧
    (div < 3 → free = true → mode = 0 → exec (.coreModeWrite cr v) s = .next (moded s)) ∧
    (3 ≤ div → free = true → mode = 0 → exec (.coreModeWrite cr v) s = .next (moded s1)) ∧
    (div < 3 → free = true → (mode = 1 ∨ mode = 2) → exec (.coreModeWrite cr v) s = .next ((moded s).gateCore c)) ∧
    (3 ≤ div → free = true → (mode = 1 ∨ mode = 2) → exec (.coreModeWrite cr v) s = .next ((moded s1).gateCore c))

/-! ### Memory tiers and flash (chapter 05) -/

/-- R249, R250, R254, R271, R304, R307, R310, R311: the commands of the memory tiers, where they are accepted. -/
def Obligations.TierRequestsComplete : Prop :=
  CmdCompletes .extentDefine Key.extentDefine rkOperator okExtentDefine (fun s _ v =>
    s.addExtent (field (leNat v) 4 0) (extentOf v s.sec.extentNonce).2) ∧
  (∀ x : Extent, CmdCompletes .extentRemove Key.extentRemove rkOperator (fun s _ v =>
      onlyBits (leNat v) [(12, 8), (5, 0)]
        && (s.pitch (field (leNat v) 12 8)).extents.find? (fun y => y.number == field (leNat v) 5 0) == some x)
    (fun s _ v => s.removeExtent (field (leNat v) 12 8) x)) ∧
  CmdCompletes .pagePin Key.pagePin rkOperator okPagePin (fun s _ v =>
    let d := leNat v
    s.pinPages (field d 4 0) (field d 111 64) (field d 175 128) (field d 177 176) (field d 180 178)) ∧
  CmdCompletes .pageFree Key.pageFree rkOperator okPageFree (fun s _ v =>
    let d := leNat v
    s.freePages (fun g => g.inRange (field d 4 0) (field d 111 64) (field d 175 128))) ∧
  CmdCompletes .stateSetCreate Key.stateSetCreate rkTenant okStateSetCreate (fun s _ v =>
    let d := leNat v
    s.addSet { id := field d 31 0, tenant := field d 37 32, policy := field d 65 64, interval := field d 127 96
               next := s.time / (1000000000 * field d 127 96) + 1 }) ∧
  CmdCompletes .stateSetDelete Key.stateSetDelete rkTenant okSetIdle (fun s _ v => s.deleteSet (leNat v)) ∧
  (∀ t : StateSet, CmdCompletes .stateSetAttach Key.stateSetAttach rkTenant (fun s c v =>
      okStateSetAttach s c v && s.tier.sets.find? (fun x => x.id == field (leNat v) 31 0) == some t)
    (fun s _ v => s.attachSet t (field (leNat v) 36 32))) ∧
  CmdCompletes .checkpointNow Key.checkpointNow rkTenant okSetIdle (fun s _ v => s.startCheckpoint (leNat v) true) stInProgress

/-- R256, R266 to R268, R274 to R280, R291, R297, R299, R305, R307, R374, R676, R295: what the memory tier unit and the flash controller do
on their own: the leaves of a page in its pitch's table, the place of a tile whose stream begins a flash page, heat at its window, a migration step by step (a tile in ascending order, up to three passes over the tiles that writes marked, then
the switch, once no write is out), frames that a switch left (R278), promotions tile by tile, expiry, checkpoints at their interval, and
the day's credit. What is not due, and what the flash balance does not permit, waits. -/
def Obligations.TierEventsComplete : Prop :=
  ∀ (s : State) (page tile set tag ch die plane block ms : Nat) (readable : Bool) (g : Page) (m : Migration) (t : StateSet),
    let loc := ch % 8 * 2 ^ 30 + die % 2 * 2 ^ 29 + plane % 4 * 2 ^ 27 + block % 8192 * 2 ^ 14
    let left := (List.range g.tiles).find? (fun t => !m.done.contains t)
    let within := s.page page = some g ∧ g.migration = some m ∧ s.keyLive g = true ∧
      ((g.tier = .b ∧ m.dest = .a) ∨ (g.tier = .a ∧ m.dest = .b) ∨ (g.tier = .b ∧ m.dest = .b))
    let down := s.page page = some g ∧ g.migration = some m ∧ s.keyLive g = true ∧ g.tier ≠ .c ∧ m.dest = .c
    (∀ p a, a < 2 ^ 48 →
      (s.pageAt p (a / 4096 * 4096) = some g → g.leafLevel = 4 → s.tableEntry p (tableIndices a) = g.leafEntry) ∧
      (s.pageAt p (a / 2097152 * 2097152) = some g → g.leafLevel = 3 →
        s.tableEntry p ((tableIndices a).take 3) = g.leafEntry ∧ s.tableEntry p (tableIndices (a / 2097152 * 2097152)) = 0)) ∧
    (∀ last : FlashPage,
      let mine := s.tier.flash.filter (fun f => f.key == g.stream)
      s.tier.retiredDies = [] → mine.all (fun f => !f.isOpen || decide (4 ≤ f.tiles.length)) = true → mine.getLast? = some last →
      ∃ d, (s.placeTile g tile).tier.flash = s.tier.flash ++ [{
        number := s.tier.flash.length
        channel := (last.channel + 1) % 8
        die := d
        tag := g.tenantTag
        epoch := g.epoch
        entry := g.keyIndex
        tiles := [{ page := g.id, tile }] }]) ∧
    (s.windowBegun tmHeatBC (1000 * s.obj Key.heatPeriodBCUs) = true →
      exec (.heatHalving true) s = .next (((s.mark tmHeatBC).halveHeat true).demoteB).resumeA) ∧
    (s.windowBegun tmHeatA (1000 * s.obj Key.heatPeriodAUs) = true →
      exec (.heatHalving false) s = .next ((((s.mark tmHeatA).halveHeat false).enforceAll.drainA).resumeA)) ∧
    (s.windowBegun tmHeatBC (1000 * s.obj Key.heatPeriodBCUs) = false → exec (.heatHalving true) s = .next s) ∧
    (s.windowBegun tmHeatA (1000 * s.obj Key.heatPeriodAUs) = false → exec (.heatHalving false) s = .next s) ∧
    (within → ∀ k, left = some k → exec (.migrationSwitch page) s
      = .next ((s.modPage g.id (fun g => { g with migration := some { m with done := m.done ++ [k] } })).afterStep page)) ∧
    (within → left = none → m.marked ≠ [] → m.passes < 3 → exec (.migrationSwitch page) s
      = .next ((s.modPage g.id (fun g => { g with migration := some { m with marked := [], passes := m.passes + 1 } })).afterStep page)) ∧
    (within → left = none → m.marked ≠ [] → 3 ≤ m.passes → exec (.migrationSwitch page) s
      = .next (((s.abandon g.id).modPage g.id (fun g => { g with aborted := true })).afterStep page)) ∧
    (within → left = none → m.marked = [] → s.writesOut g = false →
      exec (.migrationSwitch page) s = .next ((s.switchPage g m).afterStep page)) ∧
    (within → left = none → m.marked = [] → s.writesOut g = true → exec (.migrationSwitch page) s = .next (s.afterStep page)) ∧
    (down → ∀ k ks, g.uncopied = k :: ks →
      (s.mayDemote = true → exec (.migrationSwitch page) s = .next (
        (((if m.done = [] then (s.placeTiles g (k :: ks)).chargeRecord else s).programTile g k).modPage g.id (fun g => { g with
          cleanCopy := g.cleanCopy ++ [k]
          dirty := g.dirty.filter (· != k)
          migration := some { m with done := m.done ++ [k] } })).afterStep page)) ∧
      (s.mayDemote = false → exec (.migrationSwitch page) s = .next (s.afterStep page))) ∧
    (down → g.uncopied = [] → s.writesOut g = false → exec (.migrationSwitch page) s = .next
      (((s.programTiles g ((List.range (s.companionTiles g)).map (· + g.tiles))).switchPage g m).afterStep page)) ∧
    (∀ l : Leaving, s.tier.leaving = [l] → l.tags ≠ [] →
      ((s.freeTag tag).tier.leaving = [] ↔ ∀ k ∈ l.tags, k = tag)) ∧
    (s.readsOut g ≠ [] → ∀ c f, (s.release g c f).tier.leaving
      = s.tier.leaving ++ [{ cluster := c, frame := f, size := g.size, cls := g.codeClass, tags := s.readsOut g }]) ∧
    (s.page page = some g → g.nextTile = some tile → g.arrive tile readable ≠ g →
      let a := (s.modPage page (fun _ => g.arrive tile readable)).flashRetries g tile 2 readable none
      ((g.arrive tile readable).tier ≠ .b → exec (.promotionTileArrive page tile readable) s = .next a) ∧
      ((g.arrive tile readable).tier = .b → exec (.promotionTileArrive page tile readable) s
        = .next (((a.freeTag (g.migration.elim 0 (·.tag))).bump Key.promotions).afterStep page))) ∧
    (s.page page = some g → g.nextTile ≠ some tile → exec (.promotionTileArrive page tile readable) s = .next s) ∧
    (s.page page = some g → s.expired g = true → exec (.lazyPageFree page) s = .next (s.freePage page)) ∧
    (s.page page = some g → s.expired g = false → exec (.lazyPageFree page) s = .next s) ∧
    (s.tier.sets.find? (fun t => t.id == set) = some t → bit t.policy 0 = true →
      let n := s.time / (1000000000 * t.interval)
      let s1 := s.modSet set (fun t => { t with next := n + 1 })
      (n < t.next → exec (.periodicCheckpoint set) s = .next s) ∧
      (t.next ≤ n → t.inProgress = false → -(s.obj Key.flashDailyBudget : Int) < s.tier.balance →
        exec (.periodicCheckpoint set) s = .next (s1.startCheckpoint set false)) ∧
      (t.next ≤ n → (t.inProgress = true ∨ s.tier.balance ≤ -(s.obj Key.flashDailyBudget : Int)) →
        exec (.periodicCheckpoint set) s = .next (s1.bump Key.checkpointsSkipped))) ∧
    (s.tier.sets.find? (fun t => t.id == set) = some t → t.inProgress = true →
      (4096 * s.checkpointTiles t ≤ s.tierCFree → exec (.checkpointCommit set) s = .next (s.commitCheckpoint t)) ∧
      (s.tierCFree < 4096 * s.checkpointTiles t → exec (.checkpointCommit set) s = .next s)) ∧
    ((s.tier.lastBudgetDay < s.time / 86400000000000 → s.mcOn = true →
      exec .budgetDayStart s = .next ((s.creditDay.setObj Key.flashBytesToday 0).demoteB.enforceAll)) ∧
      (s.time / 86400000000000 ≤ s.tier.lastBudgetDay ∨ s.mcOn = false → exec .budgetDayStart s = .next s) ∧
      s.creditDay.tier.balance = min (3 * s.obj Key.flashDailyBudget : Int) (s.tier.balance + s.obj Key.flashDailyBudget)) ∧
    (s.tier.retiredBlocks.contains loc = false → exec (.flashProgramFail ch die plane block) s =
      .next (s.retireBlock loc (Config.freeNat s.freeCtr % (Config.flashBlockBytes / 4096 + 1)))) ∧
    (s.tier.journalReplayed = false → exec (.journalReplay ms) s
      = .next (({ s with tier := { s.tier with journalReplayed := true } } : State).setObj Key.lastRecoveryMs ms))

/-! ### KV store and state handles (chapters 06 and 07) -/

/-- R313, R315, R316, R318, R320, R385, R410, R411: the commands of the KV store and of state handles, where they are accepted. A drop
takes effect once no command in progress names the sequence. A swap-out whose handle another command holds is answered IN_PROGRESS. -/
def Obligations.KvAndHandleRequestsComplete : Prop :=
  CmdCompletes .kvLayoutDefine Key.kvLayoutDefine rkOperator okKvLayoutDefine (fun s _ v =>
    s.setPitch ((layoutIn v).get 4 0)
      { s.pitch ((layoutIn v).get 4 0) with layouts := (s.pitch ((layoutIn v).get 4 0)).layouts ++ [layoutIn v] }) ∧
  CmdCompletes .kvLayoutRemove Key.kvLayoutRemove rkOperator okKvLayoutRemove (fun s _ v =>
    s.setPitch (field (leNat v) 12 8) { s.pitch (field (leNat v) 12 8) with
      layouts := (s.pitch (field (leNat v) 12 8)).layouts.filter (fun l => l.number != field (leNat v) 2 0) }) ∧
  (∀ p l n, CmdCompletes .kvSeqCreate Key.kvSeqCreate rkTenant (fun s c v => okKvSeqCreate s c v && seqNames v == some (p, l, n))
    (fun s _ _ => s.modPitch p (fun r => { r with seqs := r.seqs ++ [{ layout := l, number := n }] }))) ∧
  (∀ p l n, CmdCompletes .kvSeqDrop Key.kvSeqDrop rkTenant (fun s c v => okKvSeqDrop s c v && seqNames v == some (p, l, n))
    (fun s _ _ => (s.modSeq p l n (fun q => { q with dropping := true })).finishDrops p)) ∧
  (∀ (s : State) (p : Nat) (q : KvSeq), (s.pitch p).seqs.filter (fun x => x.dropping) = [q] →
    (s.seqBusy p q = true → s.finishDrops p = s) ∧ (s.seqBusy p q = false → s.finishDrops p = s.dropSeq p q)) ∧
  CmdCompletes .stateHandleBind Key.stateHandleBind rkTenant okStateHandleBind
    (fun s _ v => (s.bindHandle (field (leNat v) 11 0) (handleIn s v)).getD s) ∧
  CmdCompletes .stateHandleRevoke Key.stateHandleRevoke rkTenant okStateHandleRevoke
    (fun s _ v => (s.revoke (field (leNat v) 11 0) (bit (leNat v) 15)).1) ∧
  CmdCompletes .stateHandleSwapOut Key.stateHandleSwap rkTenant
    (fun s c v => swapAllowed s c v && !bit (leNat v) 12 && (s.handle (field (leNat v) 11 0)).st == .bound
      && !(s.handle (field (leNat v) 11 0)).waiting.contains mcEntry
      && !((swapOutIn s v).handle (field (leNat v) 11 0)).waiting.contains mcEntry
      && ((swapOutIn s v).handle (field (leNat v) 11 0)).st == .swapped) (fun s _ v => swapOutIn s v) ∧
  CmdCompletes .stateHandleSwapOut Key.stateHandleSwap rkTenant
    (fun s c v => swapAllowed s c v && !bit (leNat v) 12 && (s.handle (field (leNat v) 11 0)).st == .bound
      && !(s.handle (field (leNat v) 11 0)).waiting.contains mcEntry
      && ((swapOutIn s v).handle (field (leNat v) 11 0)).waiting.contains mcEntry) (fun s _ v => swapOutIn s v) stInProgress ∧
  CmdCompletes .stateHandleSwapIn Key.stateHandleSwap rkTenant
    (fun s c v => swapAllowed s c v && bit (leNat v) 12 && (s.handle (field (leNat v) 11 0)).st == .swapped
      && (s.handle (field (leNat v) 11 0)).held.isNone
      && (s.copyTo (field (leNat v) 11 0) (s.handle (field (leNat v) 11 0)).backing (field (leNat v) 111 64) .firmware).2.isNone)
    (fun s _ v =>
      let h := field (leNat v) 11 0
      let a := field (leNat v) 111 64
      (((s.copyTo h (s.handle h).backing a .firmware).1).endSwapIn h a).grant h)

/-! ### Pitches, pegs and queues (chapters 04 and 09) -/

/-- R243 to R245, R454 to R459, R461, R465, R495: the commands of pitches, peg loans and queues, where they are accepted. A RUNNING
pitch is torn down before it is removed, and one in teardown is removed after it: both are answered IN_PROGRESS. -/
def Obligations.PitchRequestsComplete : Prop :=
  CmdCompletes .pitchCreate Key.pitchCreate rkOperator okPitchCreate (fun s _ v => s.createPitch v) ∧
  CmdCompletes .pitchStart Key.pitchStart rkOperator (fun s _ v => decide (leNat v < 32)
    && ([.created, .tornDown, .complete] : List PitchState).contains (s.pitch (leNat v)).st) (fun s _ v => s.startPitch (leNat v)) ∧
  CmdCompletes .pitchRemove Key.pitchRemove rkOperator (fun s _ v => decide (leNat v < 32)
    && ([.created, .tornDown, .complete] : List PitchState).contains (s.pitch (leNat v)).st) (fun s _ v => s.removePitch (leNat v)) ∧
  CmdCompletes .pitchRemove Key.pitchRemove rkOperator (fun s _ v => decide (leNat v < 32) && (s.pitch (leNat v)).st == .running)
    (fun s _ v => (s.faultPitch (leNat v) fcRemoved 0 { byCommand := true }).removeLater (leNat v)) stInProgress ∧
  CmdCompletes .pitchRemove Key.pitchRemove rkOperator (fun s _ v => decide (leNat v < 32) && (s.pitch (leNat v)).st == .teardown)
    (fun s _ v => s.removeLater (leNat v)) stInProgress ∧
  (∀ l : Loan, CmdCompletes .pegShare Key.pegShare rkOperator (fun s _ v => loanOf v == some l && okPegShare s l)
    (fun s _ _ => { s with loans := s.loans ++ [l] })) ∧
  (∀ l : Loan, CmdCompletes .pegUnshare Key.pegUnshare rkOperator (fun s _ v => loanOf v == some l && s.loans.contains l)
    (fun s _ _ => { s with loans := s.loans.erase l })) ∧
  (∀ n : Fin 6, CmdCompletes (fun r v => .pegStatusClear r n v) (Key.at Key.pegStatusClear n.val) rkOperator
    (fun _ _ v => decide (leNat v < 1024))
    (fun s _ v => s.setPeg n.val (leNat v) { s.peg n.val (leNat v) with ovf := false, abandoned := false })) ∧
  (∀ p : Fin 32, ScalarCompletes (fun r v => .pitchPriorityWrite r p v) (Key.at Key.pitchPriority p.val) rkOperator
    (fun s _ _ => (s.pitch p.val).st != .free) (fun s _ n => s.setObj (Key.at Key.pitchPriority p.val) n)) ∧
  (∀ q : Fin 32, ScalarCompletes (fun r _ => .queueEnable r q) (Key.at Key.queueEnable q.val) rkOperator
    (fun s _ n => n == 1 && s.obj (Key.at Key.queueEnable q.val) != 1 && s.queueFits q.val) (fun s _ _ => s.enableQueue q.val)) ∧
  (∀ q : Fin 32, ScalarCompletes (fun r _ => .queueDisable r q) (Key.at Key.queueEnable q.val) rkOperator
    (fun s _ n => n == 0 && s.obj (Key.at Key.queueEnable q.val) == 1) (fun s _ _ => s.disableQueue q.val))

/-! ### Sensor queues and listening (chapters 04 and 11) -/

/-- R229, R240, R241, R569 to R599: what the queues, the acoustic front end, the cascade, glimpse and playback do on their own, and
their commands. -/
def Obligations.ListeningComplete : Prop :=
  (∀ (s : State) (q : Fin 32), ((s.queue q.val).flushAsked ≠ [] → (s.queue q.val).inProgress = false →
      exec (.queueFlushEffect q) s = .next (s.flushQueue q.val)) ∧
    (∀ p, (s.queue q.val).oldest = some p →
      let due := max (s.queue q.val).reference p.commitStamp + s.obj (Key.at Key.staleTailNs q.val)
      (due ≤ s.time → (s.queue q.val).noticeFired = false → s.obj (Key.at Key.queueEnable q.val) ≠ 0 →
        exec (.staleTailNotice q) s
          = .next ((s.setQueue q.val { s.queue q.val with noticeFired := true }).pulse (s.queueCluster q.val) (129 + 2 * q.val))) ∧
      (s.time < due → exec (.staleTailNotice q) s = .next s))) ∧
  (∀ (s : State) (samples : List Int), s.lanternOn = true → ∃ t, exec (.audioSample samples) s = .next t ∧
    t.listen.index = s.listen.index + 1) ∧
  (∀ (s : State) (k : Fin 4) (b : Nat), k.val ≠ 3 → s.listen.streamsOn.contains k.val = true → tabGet s.listen.streamPos k.val 0 = b →
    s.streamQ k.val < 32 → s.listen.holdsBlock b = true → s.queueReachable (s.streamQ k.val) = true →
    (tabGet s.listen.streamEnd k.val 0 ≤ b → b < s.listen.endBlocks → exec (.audioBlockCommit k) s = .next (s.commitBlock k.val b false)) ∧
    (b < tabGet s.listen.streamEnd k.val 0 → (s.pickSlot (s.streamQ k.val)).2 = none →
      (s.passed (tmReplay k.val) 10000 = true →
        exec (.replayBlock k) s = .next ((s.mark (tmReplay k.val)).commitBlock k.val b true)) ∧
      (s.passed (tmReplay k.val) 10000 = false → exec (.replayBlock k) s = .next s))) ∧
  (∀ (s : State) (k : Fin 4) (r : RawBlock) (rest : List RawBlock), k.val = 3 → s.listen.rawReady = r :: rest → s.streamQ 3 < 32 →
    s.queueReachable (s.streamQ 3) = true → exec (.audioBlockCommit k) s =
      .next (((s.modListen (fun l => { l with rawReady := rest })).burstPacket 57 (s.streamQ 3) r.stamp
        (s.listen.prodFlags r.block false false) r.data).bump (Key.at Key.streamPackets 3))) ∧
  (∀ (s : State) (scores : List Nat), s.lanternOn = true →
    (s.listen.l0Next < s.listen.endBlocks → exec (.l0Frame scores) s
      = .next ((((List.range 4).zip scores).foldl (fun (t : State) e => t.scoreBeam e.1 e.2) s).modListen (fun l =>
        { l.flagVoice with l0Next := l.endBlocks }))) ∧
    (s.listen.endBlocks ≤ s.listen.l0Next → exec (.l0Frame scores) s = .next s)) ∧
  (∀ (s : State) (scores : List Nat) (beam v : Nat), s.lanternOn = true → s.listen.model ≠ [] → s.hopTop scores = some (beam, v) →
    s.listen.l1Next < s.listen.index / 320 →
    let t := s.modListen (fun l => { l with l1Next := l.index / 320 })
    (s.obj Key.kwsThreshold ≤ v → (∀ t, s.listen.lastTrigger = some t → t + 1000000 * s.obj Key.kwsHoldMs ≤ s.time) →
      exec (.l1Hop scores) s = .next ((t.recordTrigger beam).cascadeTrigger s.time)) ∧
    (v < s.obj Key.kwsThreshold ∨ (∃ t, s.listen.lastTrigger = some t ∧ s.time < t + 1000000 * s.obj Key.kwsHoldMs) →
      exec (.l1Hop scores) s = .next t)) ∧
  (∀ (s : State) (k : Nat), s.listen.stageWaking = some k → s.power.st = .active → exec .stageWake s = .next (s.awakenStage k)) ∧
  (∀ (s : State) (k : Nat), 2 ≤ k → s.obj Key.wakeStage = k → s.obj (Key.wakeTimeoutMs + (k - 2)) ≠ 0 → s.listen.dropTo = none →
    s.listen.stageWaking = none →
    let due := s.listen.stageSince + 1000000 * s.obj (Key.wakeTimeoutMs + (k - 2))
    (due ≤ s.time → exec (.stageTimeout k) s = .next ((s.bump Key.wakeTimeouts).abandonStage k)) ∧
    (s.time < due → exec (.stageTimeout k) s = .next s)) ∧
  (∀ (s : State) (k : Nat), s.listen.dropTo = some k →
    let due := s.listen.dropSince + 1000 * s.obj Key.wakeDropGraceUs
    (due ≤ s.time → exec .dropGraceExpiry s = .next (s.finishDrop k)) ∧ (s.time < due → exec .dropGraceExpiry s = .next s)) ∧
  (∀ s : State,
    let due := s.listen.wakeOutSince + 1000000 * s.obj Key.wakeOutHoldMs
    (due ≤ s.time → exec .wakeOutHoldExpiry s = .next (s.modListen (fun l => { l with wakeOut := false }))) ∧
    (s.time < due → exec .wakeOutHoldExpiry s = .next s)) ∧
  (∀ s : State, s.power.st = .lantern → exec .lanternBrownout s = .next ((((s.restartRing.modListen (fun l => { l with
    attack := []
    below := []
    voiced := []
    lastTrigger := none
    heldTrigger := none
    stageWaking := none })).bump Key.lanternBrownouts).bump Key.lanternBrownoutsLife))) ∧
  (∀ (s : State) (stamp : Nat) (luma : List Byte),
    let w := s.obj Key.glimpseWidth
    let h := s.obj Key.glimpseHeight
    let f := fitBytes (w * h) luma
    let score := motionScore s.listen.glimpse f w h (s.obj Key.glimpseCellThreshold)
    let t := (s.modListen (fun l => { l with glimpse := f })).setObj Key.glimpseLastScore score
    s.power.st = .lantern → s.obj Key.glimpseEnable ≠ 0 → s.listen.glimpse.length = w * h →
    t.obj Key.glimpseScoreThreshold ≤ score →
    (t.obj Key.glimpseAction = 1 → exec (.glimpseFrame stamp luma) s = .next (t.cascadeTrigger stamp)) ∧
    (t.obj Key.glimpseAction = 2 → exec (.glimpseFrame stamp luma) s = .next (t.assertWakeOut 1))) ∧
  (∀ s : State, s.obj Key.playbackEnable ≠ 0 → s.lanternOn = true →
    let t := s.endPlayed.callCluster (s.obj Key.playbackCluster)
    (t.playReady = true → exec .playbackBlockDue s = .next t.playBlock) ∧
    (t.playReady = false → exec .playbackBlockDue s = .next ((t.bump Key.playbackUnderruns).modListen (fun l =>
      { l with tdmOut := List.replicate s.playbackBytes 0 })))) ∧
  ScalarCompletes .glimpseEnable Key.glimpseEnable rkOperator (fun _ _ _ => true)
    (fun s _ n => (s.setObj Key.glimpseEnable n).modListen (fun l => { l with glimpse := [] })) ∧
  ScalarCompletes .playbackEnable Key.playbackEnable rkOperator (fun _ _ _ => true)
    (fun s _ n => (s.setObj Key.playbackEnable n).modListen (fun l => { l with playPos := 0 })) ∧
  CmdAnswers .kwsModelLoad Key.kwsModelLoad rkOperator (fun _ _ _ => true) (fun s _ v =>
    if 262144 < (Config.modelHeader v).1 || 32768 < (Config.modelHeader v).2 then (s, stRefused)
    else ((s.modListen (fun l => { l with model := v })).measureLantern, stOk))

/-! ### Cameras (chapter 12) -/

/-- R605 to R645: what the receivers, the arbiter, the band writer, frame sync and the camera control buses do: a good header opens,
closes or fills the frame of its context. -/
def Obligations.CamerasComplete : Prop :=
  (∀ (s : State) (p vc : Fin 4) (f : Frame), s.portServed p.val = true →
    let c := 4 * p.val + vc.val
    (s.openFrame c = none → s.obj (Key.at Key.ctxEnable c) ≠ 0 → exec (.csiFrameStart p vc .good) s = .next (s.startFrame c)) ∧
    (s.openFrame c = none → s.obj (Key.at Key.ctxEnable c) = 0 → exec (.csiFrameStart p vc .good) s = .next s.tidyFrames) ∧
    (s.openFrame c = some f → (s.closeFrame f mkLate 0).obj (Key.at Key.ctxEnable c) ≠ 0 →
      exec (.csiFrameStart p vc .good) s = .next ((s.closeFrame f mkLate 0).startFrame c)) ∧
    (s.openFrame c = some f → s.time < f.timeout → exec (.csiFrameEnd p vc .good) s = .next (s.closeFrame f 0 s.time).tidyFrames) ∧
    (s.openFrame c = some f → f.timeout ≤ s.time → exec (.csiFrameEnd p vc .good) s = .next (s.closeFrame f mkLate 0).tidyFrames) ∧
    (s.openFrame c = some f → s.cams.overflowed.contains c = false → s.cams.quiet.contains c = false → f.received < f.height →
      (tabGet s.cams.buffers p.val []).length < 2 → ∀ payload crcOk,
      exec (.csiLongPacket p vc (f.get Key.ctxDataType) .good payload crcOk) s
        = .next (s.placeLine p.val f (f.get Key.ctxDataType) payload crcOk)) ∧
    (s.openFrame c = some f → s.cams.overflowed.contains c = false → s.cams.quiet.contains c = false → f.received < f.height →
      2 ≤ (tabGet s.cams.buffers p.val []).length → ∀ payload crcOk,
      exec (.csiLongPacket p vc (f.get Key.ctxDataType) .good payload crcOk) s = .next (s.overflowLine p.val f))) ∧
  (∀ (s : State) (c : Fin 16) (f : Frame), s.openFrame c.val = some f →
    (f.timeout ≤ s.time → exec (.frameTimeout c) s = .next (s.closeFrame f mkLate 0).tidyFrames) ∧
    (s.time < f.timeout → exec (.frameTimeout c) s = .next s)) ∧
  (∀ (s : State) (p : Nat), s.power.st = .active → s.arbiterPort = some p →
    exec .lineArbitration s = .next (s.takeLine p).beginBands) ∧
  (∀ (s : State) (c : Fin 16) (o : Fin 3) (f : Frame) (lines : Nat) (last : Bool), s.power.st = .active →
    s.cams.frames.find? (fun f => f.ctx == c.val && f.outOn o.val && !(f.out o.val).last) = some f →
    s.nextBand f o.val = some (lines, last) →
    exec (.bandCommit c o) s = .next (s.deliverBand f o.val lines last).tidyFrames) ∧
  (∀ s : State, s.power.st = .active → s.obj Key.camFsyncPeriodNs ≠ 0 →
    exec (.fsyncPulse true) s
      = .next (s.modCams (fun c => { c with fsync := (List.range 4).filter (fun p => bit (s.obj Key.camFsyncEnable) p) })) ∧
    exec (.fsyncPulse false) s = .next (s.modCams (fun c => { c with fsync := [] }))) ∧
  CmdCompletes .cciTransfer Key.cciTransfer rkOperator okCciTransfer (fun s _ v => s.beginCci v) ∧
  (∀ (s : State) (b : Fin 2) (data : List Byte), s.cams.cciBusy = some b.val → (s.power.st = .active ∨ s.power.st = .doze) →
    exec (.cciTransferDone b 0 data) s = .next (s.modCams (fun c => { c with
      cciBusy := none
      cciResult := 0 :: fitBytes ((tabGet s.cams.cci b.val []).getD 2 0).toNat data })) ∧
    ∀ st, st ≠ 0 → exec (.cciTransferDone b st data) s = .next (s.modCams (fun c => { c with
      cciBusy := none
      cciResult := [BitVec.ofNat 8 st] })))

/-! ### Ports, links, packets and fabric time (chapter 10) -/

/-- R48, R500 to R514, R551 to R557: what happens at a port, and fabric time. Which UP productive port a data packet takes, if any has
credit, is a free value (the model keeps no count of credits, log entry 4). What is not due, and what comes while the router is off (R14), changes
nothing. -/
def Obligations.PortsAndTimeComplete : Prop :=
  (∀ (s : State) (p : Fin 6) (m q : Nat), (s.port p.val).st = .training → s.routerOn = true →
    let t := s.setObj (Key.at Key.portNeighbour p.val) m
    (m = s.neighbour s.moduleId p.val → q = (p.val + 3) % 6 →
      exec (.portTrainingDone p m q) s = .next (((t.portTo p.val .up).bump (Key.at Key.portUpCount p.val)).idleDetour p.val)) ∧
    (m ≠ s.neighbour s.moduleId p.val ∨ q ≠ (p.val + 3) % 6 →
      exec (.portTrainingDone p m q) s = .next (t.portTo p.val .miswired))) ∧
  (∀ (s : State) (p : Fin 6), (s.port p.val).st = .up →
    let t := ((s.portTo p.val .down).bump (Key.at Key.portDownCount p.val)).useDetour p.val
    (exec (.portDown p none) s = .next t) ∧
    (∀ tx k, exec (.portDown p (some (tx, k))) s = .next (t.logEvent
      { kind := 7, outcome := ocLaneDown, location := flag tx * 32 + p.val * 4 + k.val, source := 5 })) ∧
    (∀ seq, exec (.flitCrcError p seq) s
      = .next ((s.setPort p.val { s.port p.val with replayFrom := seq }).bump (Key.at Key.replayedFlits p.val)))) ∧
  (∀ (s : State) (p : Fin 6), s.routerOn = true →
    ((s.port p.val).st = .down → s.passed (tmPort p.val) 10000000 = true →
      exec (.portTrainingRetry p) s = .next (s.portTo p.val .training)) ∧
    ((s.port p.val).st = .miswired → s.passed (tmPort p.val) 100000000 = true →
      exec (.portTrainingRetry p) s = .next (s.portTo p.val .training)) ∧
    (s.passed (tmPort p.val) 10000000 = false → exec (.portTrainingRetry p) s = .next s)) ∧
  (∀ p : Fin 6, ScalarCompletes (fun r v => .portEnable r p v) (Key.at Key.portEnable p.val) rkOperator (fun _ _ _ => true)
    (fun s _ n =>
      let t := s.setObj (Key.at Key.portEnable p.val) n
      if n = 0 then t.parkPort p.val else t.trainPort p.val)) ∧
  (∀ (s : State) (p : Fin 6) (pkt : Packet), s.routerOn = false →
    exec (.packetForward p pkt) s = .next s ∧ exec (.portTrainingRetry p) s = .next s ∧ exec (.timeExchange none) s = .next s) ∧
  (∀ (s : State) (p : Fin 6) (pkt : Packet) (q : Nat) (det : Bool), pkt.dstModule ≠ s.moduleId → s.routerOn = true →
    let t := s.bump (Key.at Key.rxFlits p.val) (packetFlits pkt)
    let ups := sortBy id ((t.productive pkt.dstModule).filter t.portUp)
    let c := Config.freeNat t.freeCtr % (ups.length + 1)
    (6 ≤ pkt.vc → t.escapePort pkt.dstModule = some (q, det) →
      exec (.packetForward p pkt) s = .next (t.putOut pkt q (t.escapeVc p.val q pkt.vc) det)) ∧
    (t.escapePort pkt.dstModule = none → 6 ≤ pkt.vc → exec (.packetForward p pkt) s = .next (t.unreachableNack pkt)) ∧
    (2 ≤ pkt.vc → pkt.vc < 6 → pkt.ordered = false → (t.productive pkt.dstModule).filter t.portUp ≠ [] →
      exec (.packetForward p pkt) s = .next (match ups[c]? with
        | some q => t.fresh.2.putOut pkt q pkt.vc false
        | none => t.fresh.2.holdPacket pkt (ups.headD 0)))) ∧
  (∀ (s : State) (k : Nat) (h : HeldPacket) (q : Nat) (det : Bool), s.fabric.held[k]? = some h →
    (h.since + s.obj Key.escapeWaitNs ≤ s.time → (s.unhold k).escapePort h.pkt.dstModule = some (q, det) →
      exec (.escapeWaitExpiry k) s = .next ((s.unhold k).putOut h.pkt q 6 det)) ∧
    (s.time < h.since + s.obj Key.escapeWaitNs → exec (.escapeWaitExpiry k) s = .next s)) ∧
  (∀ s : State, s.obj Key.timeParentPort < 6 →
    (s.routerOn = true → s.windowBegun tmExchange 1000000 = false → exec (.timeExchange none) s = .next s) ∧
    (s.routerOn = true → s.windowBegun tmExchange 1000000 = true → exec (.timeExchange none) s = .next ((s.mark tmExchange).emit {
      kind := .time, dstModule := s.neighbour s.moduleId (s.obj Key.timeParentPort), srcUnit := { module := s.moduleId }
      stamp := s.time, vc := 0 })) ∧
    (∀ t1 t2 t3 t4 : Nat, exec (.timePacket t1 t2 t3 t4) s
      = .next (s.takeExchange ((((t4 : Int) - t1) - ((t3 : Int) - t2)) / 2) ((((t2 : Int) - t1) + ((t3 : Int) - t4)) / 2))) ∧
    (s.fabric.holdover = false → s.passed tmTime 3000000 = true → exec .timeHoldover s = .next s.beginHoldover) ∧
    (s.passed tmTime 3000000 = false → exec .timeHoldover s = .next s)) ∧
  (∀ (s : State) (p : Fin 6) (t1 : Nat), s.routerOn = true → p.val ≠ s.obj Key.timeParentPort → s.portUp p.val = true →
    exec (.timeExchange (some (p, t1))) s = .next (s.emit {
      kind := .time, dstModule := s.neighbour s.moduleId p.val, srcUnit := { module := s.moduleId }, stamp := s.time, vc := 0, len := 16
      payload := natLe 8 t1 ++ natLe 8 s.time })) ∧
  (∀ (s : State) (root : Nat), s.inTorus root = true → (root ≠ s.moduleId ∨ s.obj Key.timeRootEligible ≠ 0) →
    exec (.timeRootTakeover root) s = .next (s.takeRoot root)) ∧
  (∀ (s : State) (offset : Int), (1000000 < offset → (s.alignTime offset).time = s.time + offset.toNat) ∧
    (offset ≤ 1000000 → (s.alignTime offset).time = s.time ∧ (s.alignTime offset).mgmt.slewTo = offset))

/-- R217, R476 to R480, R514, R521 to R523, R529, R532 to R535, R558: packets that reach this module, the answers to its own, and forwarded
event lines. A packet that is not for this module, or that comes while its router is off, changes nothing; in DOZE a packet waits and wakes
the module; an ordered packet behind one that waits waits; what waits is taken in order. -/
def Obligations.PacketsComplete : Prop :=
  (∀ (s : State) (pkt : Packet), ∀ c ∈ packetCommands pkt,
    (s.forHere pkt = false → exec c s = .next s) ∧
    (s.forHere pkt = true → s.power.st = .doze → exec c s = .next (s.keep pkt).beginReturn) ∧
    (s.arrives pkt = true → s.behind pkt = true → exec c s = .next (s.keep pkt))) ∧
  (∀ (s : State) (p : Packet) (ps : List Packet), s.fabric.arrivals = p :: ps → s.power.st = .active →
    s.serveArrivals = ps.foldl (fun (t : State) q => t.arrive q takeByKind)
      (({ s with fabric := { s.fabric with arrivals := [] } } : State).arrive p takeByKind)) ∧
  (∀ (s : State) (pkt : Packet), s.takesNow pkt = true → s.tier.journalReplayed = true →
    (∀ code, s.remoteRefusal pkt 0 (expandPacket pkt).length = some code →
      exec (.write pkt) s = .next (s.emit (reply pkt .nack code))) ∧
    (∀ tag s1 s2, s.remoteRefusal pkt 0 (expandPacket pkt).length = none →
      s.takeTag .router true false pkt.dstPitch 0 pkt.addr = some (tag, s1) →
      s1.writeState pkt.dstPitch pkt.addr (expandPacket pkt) .router = (s2, none) →
      exec (.write pkt) s = .next ((s2.freeTag tag).emit (reply pkt .writeAck 0))) ∧
    (s.remoteRefusal pkt 0 (expandPacket pkt).length = none → s.takeTag .router true false pkt.dstPitch 0 pkt.addr = none →
      exec (.write pkt) s = .next (s.keep pkt)) ∧
    (∀ code, s.remoteRefusal pkt 1 pkt.len = some code → exec (.readReq pkt) s = .next (s.emit (reply pkt .nack code))) ∧
    (∀ tag s1 s2 bs, s.remoteRefusal pkt 1 pkt.len = none → s.takeTag .router false false pkt.dstPitch 0 pkt.addr = some (tag, s1) →
      s1.readState pkt.dstPitch pkt.addr pkt.len .router = (s2, bs, none) →
      exec (.readReq pkt) s = .next ((s2.freeTag tag).emit
        { reply pkt .readData 0 with len := bs.length, payload := bs, last := pkt.last }))) ∧
  (∀ (s : State) (pkt : Packet), s.takesNow pkt = true → s.tier.journalReplayed = false →
    exec (.write pkt) s = .next (s.keep pkt) ∧ exec (.readReq pkt) s = .next (s.keep pkt)) ∧
  (∀ (s : State) (pkt : Packet), s.takesNow pkt = true → s.tagCurrent pkt.tenant = true → s.unitCurrent pkt.dstUnit = true →
    let i := unitSlot pkt.dstUnit
    let p := (s.slot i).pitch
    let full := s.obj (Key.at Key.inboxEntries p) ≤ (tabGet (s.pitch p).inboxHeld i []).length
    let long := s.obj (Key.at Key.inboxEntryBytes p) < pkt.len + 64
    (¬full → ¬long → exec (.msg pkt) s = .next (s.deliverMsg i pkt)) ∧
    (full ∨ long → exec (.msg pkt) s = .next ((s.bump (Key.at Key.inboxRefusals p)).emit (reply pkt .nack fcAddress))) ∧
    (overlap (pkt.line, 1) ((s.pitch p).fabRange (clusterOfSlot i)) = true →
      exec (.eventPacket pkt) s = .next (s.raiseLine (clusterOfSlot i) pkt.line 55)) ∧
    (overlap (pkt.line, 1) ((s.pitch p).fabRange (clusterOfSlot i)) = false →
      exec (.eventPacket pkt) s = .next (s.emit (reply pkt .nack fcAddress)))) ∧
  (∀ (s : State) (pkt : Packet), s.takesNow pkt = true → s.tagCurrent pkt.tenant = true → s.unitCurrent pkt.dstUnit = false →
    exec (.msg pkt) s = .next (s.staleDelivery pkt 0) ∧ exec (.eventPacket pkt) s = .next (s.staleDelivery pkt 1)) ∧
  (∀ (s : State) (pkt : Packet), s.takesNow pkt = true →
    (s.tagCurrent pkt.tenant = true → pkt.creditPeg < 6144 → exec (.msgCredit pkt) s = .next (s.givePeg pkt.creditPeg 1 none)) ∧
    (s.tagCurrent pkt.tenant = false → exec (.msgCredit pkt) s = .next s ∧ exec (.msg pkt) s = .next s)) ∧
  (∀ (s : State) (pkt : Packet) (o : FabricOp) (j : Job), s.takesNow pkt = true → s.fabricTag pkt.tag = true →
    s.opOf pkt = some o → s.jobOfTag o.slot pkt.tag = some j →
    let a := (s.closeOp pkt.tag).returnTag j pkt.tag
    (a.tagCurrent (a.pitch (a.slot o.slot).pitch).tenantTag = true → exec (.writeAck pkt) s = .next (a.afterReturn j).afterAnswer) ∧
    (a.tagCurrent (a.pitch (a.slot o.slot).pitch).tenantTag = false →
      exec (.writeAck pkt) s = .next (a.checkTenant o.slot j).afterAnswer) ∧
    (exec (.nack pkt) s = .next ((s.closeOp pkt.tag).faultSlot o.slot (pkt.code, nackDetail pkt.code o.send.pkt pkt) j.opcode
      j.cmdPtr).afterAnswer) ∧
    (pkt.poison = true → exec (.readData pkt) s
      = .next ((s.closeOp pkt.tag).faultSlot o.slot (pkt.code, o.send.pkt.addr) j.opcode j.cmdPtr).afterAnswer) ∧
    (∀ m j1, pkt.poison = false → s.tagCurrent (s.pitch (s.slot o.slot).pitch).tenantTag = true →
      s.placeRead o.slot o.send (pkt.payload.take o.send.pkt.len) = m → m.err = none → m.stall = none →
      (m.s.answered o.slot pkt.tag).jobOf o.slot .xfr = some j1 →
      exec (.readData pkt) s = .next ((m.s.answered o.slot pkt.tag).writeOn j1 pkt.tag m.writes))) ∧
  (∀ (s : State) (pkt : Packet), s.takesNow pkt = true → s.fabricTag pkt.tag = false → s.unitCurrent pkt.srcUnit = true →
    pkt.code = fcStaleRole → exec (.nack pkt) s = .next (s.staleNack (unitSlot pkt.srcUnit) pkt.dstUnit)) ∧
  (∀ (s : State) (n : Fin 6) (line p : Nat) (f : Forward) (t : State), (s.cluster n.val).forwards.find? (·.line == line) = some f →
    s.lineOwner n.val line = some p → f.queued ≠ 0 → s.cutStops p = false →
    ((s.unqueue n.val line).inject p (s.forwardPacket n.val p f) = .sent t →
      exec (.eventForwardSend n line) s = .next (t.bump (Key.at Key.eventsForwarded n.val))) ∧
    ((s.unqueue n.val line).inject p (s.forwardPacket n.val p f) = .waits → exec (.eventForwardSend n line) s = .next s)) ∧
  (∀ (s : State) (pitch port vc : Nat) (det : Bool) (p : Packet) (t : State), s.route p.dstModule p.ordered p.vc = some (port, vc, det) →
    allotted p.kind port vc = true → s.emit? p = some t →
    (s.allocation pitch (vc - 2) < s.flitsOut port (vc - 2) pitch + packetFlits p → s.inject pitch p = .waits) ∧
    (s.flitsOut port (vc - 2) pitch + packetFlits p ≤ s.allocation pitch (vc - 2) → s.inject pitch p = .sent { t with
      fabric := { t.fabric with inFlight := t.fabric.inFlight ++
        [{ port, cls := vc - 2, pitch, flits := packetFlits p, tag := p.tag }] } }) ∧
    (∀ c, s.allocation pitch c = max 17 (256 * (s.pitch pitch).credit c / 100))) ∧
  (∀ n : Fin 6, CmdCompletes (fun r v => .eventForwardDefine r n v) (Key.at Key.eventForwardDefine n.val) rkOperator
    (okEventForward n.val) (fun s _ v => s.modCluster n.val (fun c =>
      { c with forwards := c.forwards.filter (fun f => f.line != (forwardIn v).line) ++ [forwardIn v] }))) ∧
  (∀ n : Fin 6, CmdCompletes (fun r v => .eventForwardRemove r n v) (Key.at Key.eventForwardRemove n.val) rkOperator
    (fun s _ v => (s.cluster n.val).forwards.any (fun f => f.line == leNat v))
    (fun s _ v => s.modCluster n.val (fun c => { c with forwards := c.forwards.filter (fun f => f.line != leNat v) }))) ∧
  CmdCompletes .encStreamAssign Key.encStreamAssign rkOperator (fun s _ v => onlyBits (leNat v) [(5, 0), (12, 8), (15, 15)]
      && !bit (leNat v) 15 && (s.pitch (field (leNat v) 12 8)).st != .free)
    (fun s _ v => s.setStream (field (leNat v) 5 0) { owner := field (leNat v) 12 8 }) ∧
  CmdCompletes .encStreamRelease Key.encStreamAssign rkOperator (fun _ _ v => onlyBits (leNat v) [(5, 0), (12, 8), (15, 15)]
      && bit (leNat v) 15)
    (fun s _ v => s.setStream (field (leNat v) 5 0) (s.stream (field (leNat v) 5 0)).release) ∧
  CmdCompletes .encCountersClear Key.encCountersClear rkOperator (fun _ _ v => decide (leNat v < 64))
    (fun s _ v => s.setStream (leNat v) { s.stream (leNat v) with clipped := 0, underflowed := 0, reencoded := 0 })

/-! ### Collectives, snapshots, resets and fences (chapters 10 and 14) -/

/-- R36, R536 to R549, R563, R721, R722: packets of a group's tree and of a cut, and the commands of groups and of cuts. What comes before
its member has issued its command waits; what comes of a stale tenant tag is dropped. A cut that comes during another waits in line. A
snapshot and a fence run on after their answer, IN_PROGRESS. -/
def Obligations.CollectivesAndCutsComplete : Prop :=
  (∀ (s t : State) (pkt : Packet), s.takesNow pkt = true → s.treePacket pkt = true →
    (s.treeChildren (s.group pkt.group)).contains pkt.srcUnit.module = true →
    (s.contribute pkt.srcUnit.module (contributionOf pkt) = some t →
      (∀ o, s.collAt pkt.group pkt.seq = some o → ((s.group pkt.group).root ≠ s.moduleId ∨ o.differs (contributionOf pkt) = false) →
        exec (.collUp pkt) s = .next (t.serveGroup pkt.group)) ∧
      (s.collAt pkt.group pkt.seq = none → s.collPast pkt.group pkt.seq = false → exec (.collUp pkt) s = .next t)) ∧
    (∀ o, s.collAt pkt.group pkt.seq = some o → (s.group pkt.group).root = s.moduleId → o.differs (contributionOf pkt) = true →
      exec (.collUp pkt) s = .next ((s.abortColl o).bump (Key.at Key.collMismatches pkt.group))) ∧
    (s.contribute pkt.srcUnit.module (contributionOf pkt) = none → s.collAt pkt.group pkt.seq = none →
      s.collPast pkt.group pkt.seq = false → exec (.collUp pkt) s = .next (s.keep pkt))) ∧
  (∀ (s : State) (pkt : Packet), s.takesNow pkt = true → s.treePacket pkt = false →
    exec (.collUp pkt) s = .next s ∧ exec (.collDown pkt) s = .next s) ∧
  (∀ (s : State) (pkt : Packet) (o : CollOp), s.takesNow pkt = true → s.treePacket pkt = true →
    s.treeParent (s.group pkt.group) s.moduleId = some pkt.srcUnit.module →
    (s.collAt pkt.group pkt.seq = some o →
      (pkt.poison = true → exec (.collDown pkt) s = .next (s.abortColl o)) ∧
      (∀ t, pkt.poison = false → (s.collSend o (s.resultDown o pkt)).collResult o pkt.pktIndex
          (some (pkt.payload.take (o.bytesAt pkt.pktIndex))) = some t → exec (.collDown pkt) s = .next (t.serveGroup pkt.group))) ∧
    (s.collAt pkt.group pkt.seq = none → s.collPast pkt.group pkt.seq = false → exec (.collDown pkt) s = .next (s.keep pkt))) ∧
  (∀ (s : State) (g m tag : Nat), (s.group g).st = 1 → s.groupTagOk g tag = true → (s.treeChildren (s.group g)).contains m = true →
    exec (.globalBarrierArrival g m tag) s = .next ((s.noteArrival g m).settleBarrier g)) ∧
  (∀ (s : State) (g tag : Nat), s.groupTagOk g tag = true → exec (.globalBarrierRelease g tag) s = .next (s.releaseBarrier g)) ∧
  (∀ (s : State) (g m tag : Nat), s.tagCurrent tag = false →
    exec (.globalBarrierArrival g m tag) s = .next s ∧ exec (.globalBarrierRelease g tag) s = .next s) ∧
  (∀ (s t : State) (g tag : Nat) (bs : List Byte) (o : CollOp),
    let pkt : Packet := { kind := .global, gop := 1, group := g, tenant := tag, dstModule := s.moduleId, vc := 1, len := bs.length, payload := bs }
    s.takesNow pkt = true → s.groupTagOk g tag = true → (s.group g).st = 1 → (s.group g).root ≠ s.moduleId →
    (s.collOf g = some o → o.cop = 9 →
      (s.collSend o (s.broadcastDown o bs)).collResult { o with len := 1 } 0 (some (swapBytes o.rop (bs.take o.len))) = some t →
      exec (.globalBroadcastPacket g tag bs) s = .next ((t.dropColl g o.seq).bump Key.globalBroadcasts)) ∧
    (s.collOf g = none → exec (.globalBroadcastPacket g tag bs) s = .next (s.keep pkt))) ∧
  (∀ (s : State) (c : Cut), s.fabric.cut = some c →
    (∀ p : Fin 6, ∀ vc, exec (.marker p vc) s = .next (s.setCut (some { c with
      markersIn := c.markersIn.filter (· != (p.val, vc % 8)) ++ [(p.val, vc % 8)] })).afterRequests) ∧
    (∀ m, exec (.globalReport m) s
      = .next ((s.setCut (some { c with reports := distinct (m :: c.reports) })).finishCut
        { c with reports := distinct (m :: c.reports) }).afterRequests) ∧
    (∀ d, s.startCut d = { s with fabric := { s.fabric with cuts := s.fabric.cuts ++ [d] } })) ∧
  (∀ s : State,
    (∀ t origin, exec (.snapshotBroadcast t origin) s = .next (s.startCut {
      tenant := t % 64, fence := false, newGen := (s.tenant (t % 64)).generation, origin, start := s.time })) ∧
    (∀ t gen origin, exec (.tenantFenceBroadcast t gen origin) s = .next ((s.fenceTenant (t % 64) (gen % 1024)).startCut {
      tenant := t % 64, fence := true, newGen := gen % 1024, origin, start := s.time }).afterRequests)) ∧
  (∀ s : State, exec .fabricResetBroadcast s = .next s.resetFabric) ∧
  CmdCompletes .fabricReset Key.fabricReset rkOperator (fun _ _ _ => true) (fun s _ _ => (s.broadcastGlobal gopReset 0).resetFabric) ∧
  CmdCompletes .snapshotStart Key.snapshotStart rkOperator
    (fun s _ v => decide (leNat v < 64) && (s.tenant (leNat v)).st == .active && s.fabric.cut.isNone)
    (fun s _ v => (s.broadcastGlobal gopSnapshot (leNat v * 1024 + (s.tenant (leNat v)).generation)).startCut {
      tenant := leNat v, fence := false, newGen := (s.tenant (leNat v)).generation, origin := s.moduleId, start := s.time })
    stInProgress ∧
  CmdCompletes .tenantFence Key.tenantFence rkOperator
    (fun s _ v => onlyBits (leNat v) [(5, 0), (25, 16)] && s.fabric.cut.isNone)
    (fun s _ v => ((s.fenceTenant (field (leNat v) 5 0) (field (leNat v) 25 16)).startTenantFence (field (leNat v) 5 0)
      (field (leNat v) 25 16)).afterRequests) stInProgress ∧
  (∀ g : Fin 64, CmdCompletes (fun r v => .collGroupDefine r g v) (Key.at Key.collGroupDefine g.val) rkOperator (okCollGroup g.val)
    (fun s _ v => s.setGroup g.val { st := 1, record := v })) ∧
  (∀ g : Fin 64, CmdCompletes (fun r v => .collGroupRemove r g v) (Key.at Key.collGroupRemove g.val) rkOperator
    (fun s _ _ => (s.group g.val).st != 0) (fun s _ _ => s.removeGroup g.val))

/-! ### Error protection and retirement (chapter 13) -/

/-- R646, R647, R656: a line of 64 B under each class's code reads back as good, and with the marker as poisoned. R51, R660 to R682: what
the scrubber, the sweeps, the fault log, the islands and the flash dies do on their own, each when it is due, and the commands of
retirement and of the fault log. -/
def Obligations.ErrorsComplete : Prop :=
  (∀ (cls : Nat) (data : List Nat), cls ≤ 2 → data.length = 64 →
    readLine cls (codeLine cls data false) = .good ∧ readLine cls (codeLine cls data true) = .marked ∧
    (codeLine cls data false).length = nth [72, 68, 65] cls 0 ∧ (codeLine cls data true).take 64 = data) ∧
  (∀ (s : State) (cls : Nat) (found : List (Nat × Finding)), cls ≤ 3 →
    let p := s.scrubPeriod cls
    let n := s.scrubFrames cls
    let start := (s.scrubPlace cls).1
    let i := (s.scrubPlace cls).2
    let frame := s.scrubFrame cls i
    let read := if s.frameRetired frame then s else found.foldl (fun t f => t.scrubLine cls frame f) (s.passTag .tierUnit)
    let t := read.modErrors (fun e => { e with scrub := tabSet e.scrub cls (start, i + 1) })
    let t := if start + (i + 1) * p / n ≤ s.time then t.bump Key.scrubLateSlices else t
    (s.tierOn = true → p ≠ 0 → n ≠ 0 → start + i * p / n ≤ s.time →
      exec (.scrubSlice cls found) s = .next (if i + 1 = n then t.bump Key.scrubPasses else t)) ∧
    (p = 0 ∨ s.time < start + i * p / n → exec (.scrubSlice cls found) s = .next s)) ∧
  (∀ (s : State) (n : Fin 6) (found : List SweptLine), s.power.st = .active → (s.cluster n.val).gated = false →
    s.errors.islandsDown.contains (48 + n.val) = false → s.passed (tmSweep n.val) (1000000 * s.obj Key.sramSweepMs) = true →
    exec (.sramSweep n found) s = .next (found.foldl (fun t l => t.sweptLine n.val l) (s.mark (tmSweep n.val)))) ∧
  (∀ (s : State) (found : List SweptLine), s.lanternOn = true → s.passed (tmSweep 6) 10000000000 = true →
    exec (.groundsheetSweep found) s = .next (found.foldl State.sweptGround (s.mark (tmSweep 6)))) ∧
  (∀ s : State,
    let w := s.ceWindowOf s.time
    (s.errors.ceWindow < w → exec .ceWindow s = .next ((s.modErrors (fun e => { e with
      ceWindow := w
      bankCounts := e.bankCounts.filter (fun b => decide (512 * (w - 1) ≤ b.1)) })).setObj Key.ceBanksOverThreshold 0)) ∧
    (w ≤ s.errors.ceWindow → exec .ceWindow s = .next s)) ∧
  (∀ s : State, s.errors.logDirty = true → exec .faultLogCommit s = .next (s.modErrors Errors.commitLog).chargeRecord) ∧
  (∀ (s : State) (k : Nat), k < 62 → s.errors.islandsDown.contains k = false →
    exec (.islandBrownout k) s = .next (s.islandDown k ocBrownout)) ∧
  (∀ (s : State) (k : Nat), s.errors.islandsDown.contains k = true →
    let t := (s.modErrors (fun e => { e with islandsDown := e.islandsDown.filter (· != k) })).resume
    (s.passed (tmIsland k) (awayNs k) = false → exec (.islandReturn k) s = .next s) ∧
    (s.passed (tmIsland k) (awayNs k) = true →
      (k < 48 ∨ k = 54 ∨ (56 ≤ k ∧ k ≠ 59) → exec (.islandReturn k) s = .next t) ∧
      (48 ≤ k → k < 54 → exec (.islandReturn k) s = .next (t.poisonCluster (k - 48))) ∧
      (k = 55 → exec (.islandReturn k) s = .next ((List.range 6).foldl (fun (t : State) n =>
        if (t.port n).st = .down then t.portTo n .training else t) t)) ∧
      (k = 59 → exec (.islandReturn k) s = .next t.postLate))) ∧
  (∀ (s : State) (c : CoreRef), s.errors.islandsDown.contains (coreIndex c) = false →
    exec (.coreHeartbeatMiss c) s = .next (s.islandDown (coreIndex c) ocUnitFault)) ∧
  (∀ (s : State) (ch die : Nat), s.tier.retiredDies.contains (2 * (ch % 8) + die % 2) = false →
    exec (.flashDieFault ch die) s = .next (s.failDie (2 * (ch % 8) + die % 2))) ∧
  CmdCompletes .faultLogClear Key.faultLogClear rkOperator (fun _ _ _ => true)
    (fun s _ _ => s.modErrors (fun e => { e with log := e.log.filter (fun x => !benign x.outcome) })) ∧
  CmdCompletes .frameRetire Key.frameRetire rkOperator
    (fun s _ v => decide (s.firstFrame ≤ leNat v) && decide (leNat v < s.firstFrame + 262144 * s.granuleCount)
      && !s.isRetired Key.frameRetire (leNat v)) (fun s _ v => s.retireFrame (leNat v)) ∧
  CmdCompletes .lpddrBankRetire Key.lpddrBankRetire rkOperator okBankRetire (fun s _ v => s.retireBank (leNat v)) ∧
  CmdCompletes .sramBankRetire Key.sramBankRetire rkOperator
    (fun s _ v => onlyBits (leNat v) [(5, 0), (10, 8)] && decide (leNat v / 256 < 6) && !s.isRetired Key.sramBankRetire (leNat v))
    (fun s _ v => s.retireSram (leNat v)) ∧
  CmdCompletes .coreRetire Key.coreRetire rkOperator (fun s _ v => decide (leNat v < 48) && !s.isRetired Key.coreRetire (leNat v))
    (fun s _ v => s.retireCore (leNat v)) ∧
  CmdCompletes .flashDieRetire Key.flashDieRetire rkOperator
    (fun s _ v => decide (leNat v < 16) && !s.isRetired Key.flashDieRetire (leNat v))
    (fun s _ v => (s.recordRetire Key.flashDieRetire (leNat v) { kind := 5, outcome := 0, location := leNat v * 2 ^ 29 }).loseDie
      (leNat v)) ∧
  SignedCompletes .retireClear Key.retireClear (fun _ _ _ => true)
    (fun s _ _ => { s with tier := { s.tier with retireClearPending := true } })

/-! ### The security island (chapter 14) -/

/-- R686 to R693, R696, R701, R703, R708 to R719, R728: the tweak of a line, attestation, sessions, debug, rollback, tenants, keys,
expiry and re-keys, what is timed once it is due. What a signature's verification gives is open (log entry 5): the statements say what
follows either way. -/
def Obligations.SecurityComplete : Prop :=
  (∀ nonce tag addr : Nat, nonce < 2 ^ 32 → tag < 2 ^ 16 → addr < 2 ^ 48 →
    field (lineTweak nonce tag addr) 41 0 = addr / 64 ∧ field (lineTweak nonce tag addr) 57 42 = tag ∧
    field (lineTweak nonce tag addr) 95 58 = 0 ∧ field (lineTweak nonce tag addr) 127 96 = nonce) ∧
  CmdCompletes .attestRequest Key.attestRequest rkAny (fun s _ v => v.length == 32 && !s.sec.attestBusy) (fun s c v =>
    s.modSec (fun k => { k with
      attestNonce := v
      attestTag := match c.role with
        | .tenant t => s.tenantTag t
        | _ => 0xFFFF
      attestBusy := true
      ephemeral := none })) ∧
  (∀ s : State, s.sec.attestBusy = true → s.islandOn = true → exec .attestReportReady s = .next s.signReport) ∧
  (∀ s : State,
    (s.sec.ephemeralStamp + 60000000000 ≤ s.time →
      exec .ephemeralKeyExpiry s = .next (s.modSec (fun k => { k with ephemeral := none }))) ∧
    (s.time < s.sec.ephemeralStamp + 60000000000 → exec .ephemeralKeyExpiry s = .next s)) ∧
  (∀ key e, CmdAnswers .sessionOpen Key.sessionOpen rkAny (fun s _ v => sessionOffered s v key e) (fun s c v =>
    let peer := (v.drop 4).take 97
    if Config.pssVerify key (sha256 (s.sec.report ++ peer)) ((v.drop 104).take 384) then
      (s.openSession (leNat (v.take 1)) e peer c.path, stOk)
    else (s, stRefused))) ∧
  CmdCompletes .sessionClose Key.sessionClose rkTenant
    (fun s c v => (decide (rkOperator ≤ c.role.rank) || c.session == leNat v) && leNat v != 0 && s.sec.sessions.any (·.id == leNat v))
    (fun s _ v => s.closeSessions (·.id == leNat v)) ∧
  (∀ (s : State) (k : Nat), exec (.sessionIdleTimeout k) s = .next (s.closeSessions (fun x => x.id == k
    && decide (x.stamp + 1000000000 * s.obj Key.sessionIdleS ≤ s.time)))) ∧
  (∀ (s : State) (r : Req) (value env : List Byte) (c : Caller),
    let t := (s.asked r).redrawNonce
    s.hears r (signedHead Key.debugUnlock) c = true → env.length = 448 →
    t.cmdOpen { c with role := .vendor } Key.debugUnlock rkVendor value = true → t.sec.confidential = false →
    t.sec.tenants.any (fun e => e.2.st == .active) = false →
    exec (.debugUnlock r (value ++ env)) s = .next (
      if envelopeOk Config.dieSerial (s.asked r).sec.vendorNonce (Key.debugUnlock / 256) (Key.debugUnlock % 256) value env then
        (if Config.debugFused then t.answer r (signedHead Key.debugUnlock) stRefused [] false
         else (t.modSec (fun k => { k with debugUnlocked := true })).answer r (signedHead Key.debugUnlock) stOk [] false)
      else (s.asked r).answer r (signedHead Key.debugUnlock) stSignature [] false)) ∧
  SignedCompletes .rollbackAdvanceNow Key.rollbackAdvanceNow (fun _ _ _ => true) (fun s _ _ => s.advanceRollback) ∧
  (∀ s : State, s.power.st ≠ .stowed → s.power.st ≠ .off →
    (600000000000 ≤ tabGet s.timers tmRun 0 → exec .rollbackAdvance s = .next s.advanceRollback) ∧
    (tabGet s.timers tmRun 0 < 600000000000 → exec .rollbackAdvance s = .next s)) ∧
  CmdCompletes .tenantCreate Key.tenantCreate rkOperator okTenantCreate (fun s _ v => s.makeTenant v) ∧
  (∀ fabric : Bool, CmdCompletes (if fabric then .tenantRemoveFabric else .tenantRemove) Key.tenantRemove rkOperator
    (fun s _ v => onlyBits (leNat v) [(5, 0), (8, 8)] && bit (leNat v) 8 == fabric && (s.tenant (field (leNat v) 5 0)).st == .active)
    (fun s _ v => s.acceptRemoval (field (leNat v) 5 0) fabric) stInProgress) ∧
  (∀ t : Fin 64, ScalarCompletes (fun r v => .retentionDaysWrite r t v) (Key.at Key.retentionDays t.val) rkTenant
    (fun s c n => c.reaches t.val && (s.tenant t.val).st == .active && decide ((s.tenant t.val).retentionDays ≤ n)
      && decide (s.keyReserve (· != t.val) + n + 3 ≤ 4032))
    (fun s _ n => (s.setTenant t.val { s.tenant t.val with retentionDays := n, retentionNext := none }).modSec (fun k =>
      { k with storeDirty := true }))) ∧
  (∀ t e i k, CmdCompletes .epochExpire Key.epochExpire rkTenant (fun s c v => epochNames v == some (t, e) && c.reaches t
      && ((s.ownRoll t).keysOf t).find? (fun x => x.2.epoch == e && (if e = standingEpoch then x.2.st == .write else x.2.st == .read)) == some (i, k))
    (fun s _ _ => (s.ownRoll t).expireEntry i)) ∧
  (∀ t e i k, CmdCompletes .rekeyStart Key.rekeyStart rkTenant (fun s c v => epochNames v == some (t, e) && c.reaches t
      && ((s.ownRoll t).keysOf t).find? (fun x => x.2.epoch == e && (x.2.st == .write || x.2.st == .read)) == some (i, k)
      && (s.ownRoll t).rekeyAllowed t e k && ((s.ownRoll t).startRekey t e i k).isSome) (fun s _ _ => ((s.ownRoll t).startRekey t e i k).getD s)) ∧
  (∀ (s : State) (t : Fin 64) (i : Nat) (k : KeyEntry),
    (s.keysOf t.val).find? (fun x => x.2.st == .rekeyOld && !x.2.due && !s.sweepLeft x.1) = some (i, k) → s.tierOn = true → (s.tenant t.val).st = .active → exec (.rekeySweepDone t) s = .next (s.endRekey i k)) ∧
  (∀ (s : State) (t : Fin 64) (i : Nat) (k : KeyEntry), (s.tenant t.val).st = .active → s.islandOn = true →
    ((s.tenant t.val).rollDelayed = true → exec (.pendingKeyCreate t) s = .next (s.lateRoll t.val)) ∧
    ((s.tenant t.val).rollDelayed = false → (s.keysOf t.val).any (fun x => x.2.st == .pending) = false →
      s.writeKey t.val false = some (i, k) → exec (.pendingKeyCreate t) s = .next (s.withKey t.val (k.epoch + 1) false .pending))) ∧
  (∀ (s : State) (t : Fin 64), s.power.st = .active ∨ s.power.st = .doze → exec (.dayKeyRoll t) s = .next (s.rollKey t.val)) ∧
  (∀ (s : State) (e : Nat), s.sec.fence = none → s.dueFences.head? = some e → s.power.st = .active → s.islandOn = true →
    exec (.expiryFence e) s = .next (s.startFence e)) ∧
  (∀ (s : State) (e : Nat), s.sec.fence = some e → s.fencedEntries e ≠ [] → s.islandOn = true →
    let cut := s.sec.fenceStart + 1000 * s.obj Key.expiryDrainUs
    (s.openReferences (s.fencedEntries e) = [] → exec (.expiryDrainDone e) s = .next (s.zeroise (s.fencedEntries e))) ∧
    (s.openReferences (s.fencedEntries e) ≠ [] → exec (.expiryDrainDone e) s = .next s) ∧
    (cut ≤ s.time → exec (.expiryDrainCut e) s
      = .next ((s.cutReferences e (s.openReferences (s.fencedEntries e))).zeroise (s.fencedEntries e))) ∧
    (s.time < cut → exec (.expiryDrainCut e) s = .next s)) ∧
  (∀ s : State, s.sec.storeDirty = true → s.islandOn = true →
    let t := s.freeFenced.freeTenants.latchStore
    let due := (t.sec.tenants.filter (fun e => e.2.st == .removing && e.2.removal == 1)).map (·.1)
    exec .keyStoreCommit s
      = .next ((due.foldl (fun (t : State) k => t.revokeTenant k (((t.tenant k).generation + 1) % 1024)) t).afterRequests))

/-! ### Power, temperature, resets and supplies (chapters 15 and 18) -/

/-- R732 to R738, R741 to R762, R798, R801, R857 to R860: requests for a state of power, entries and returns step by step, wakes, the
core rail, the cap, temperature, the supplies and resets; what is timed, once it is due. -/
def Obligations.PowerComplete : Prop :=
  CmdCompletes .powerFloorSet Key.powerStateRequest rkOperator
    (fun s _ v => decide (1 ≤ leNat v) && decide (leNat v ≤ 3) && !(leNat v == 3 && s.obj Key.powerEntryMethod == 1))
    (fun s _ v => if leNat v = 1 ∧ s.power.st = .doze then (s.setObj Key.powerFloor 1).beginReturn
      else s.setObj Key.powerFloor (leNat v)) ∧
  CmdCompletes (fun r _ => .powerRequestStowed r) Key.powerStateRequest rkOperator (okEntryRequest 4) (fun s _ _ => s.startEntry .stowed) ∧
  CmdCompletes (fun r _ => .powerRequestOff r) Key.powerStateRequest rkOperator (okEntryRequest 5) (fun s _ _ => s.startEntry .off) ∧
  (∀ s : State, s.dozeReady = true → exec .dozeEntry s
    = .next ((s.saveRegisters.closeCameras.bump Key.selfRefreshEntries).modPower (fun p => { p with st := .doze }))) ∧
  (∀ s : State, s.lanternReady = true → exec .lanternEntry s = .next (s.startEntry .lantern)) ∧
  (∀ (s : State) (dest : PowerState), s.power.entry = some dest →
    let past := fun (n : Nat) (t : State) => t.modPower (fun p => { p with entryStep := n })
    (s.power.entryStep = 1 → exec .powerEntryStep s = .next s.entryCheckpoints) ∧
    (s.power.entryStep = 2 → exec .powerEntryStep s = .next (past 3 s.entryTeardowns)) ∧
    (s.power.entryStep = 3 → s.pitches.any (fun e => e.2.st == .teardown) = false →
      exec .powerEntryStep s = .next (past 4 s.entryDemote)) ∧
    (s.power.entryStep = 4 → exec .powerEntryStep s = .next (past 5 ((List.range 6).foldl State.parkPort s))) ∧
    (s.power.entryStep = 5 → dest = .lantern → exec .powerEntryStep s = .next s.entryLantern.endEntry.releaseHeld) ∧
    (s.power.entryStep = 5 → dest ≠ .lantern → exec .powerEntryStep s = .next (past 6 s.entryLantern)) ∧
    (s.power.entryStep = 6 → dest = .stowed → s.power.heldWake = false → exec .powerEntryStep s = .next s.enterStowed.endEntry) ∧
    (s.power.entryStep = 7 → exec .powerEntryStep s
      = .next (s.endEntry.modPower (fun p => { p with st := .off, heldWake := false })))) ∧
  (∀ (s : State) (n : Fin 6), s.power.st = .active → s.clusterParked n.val = true →
    exec (.clusterGate n) s = .next (s.modCluster n.val (fun c => { c with gated := true }))) ∧
  (∀ s : State,
    (s.power.st = .active → ∀ n : Fin 6, exec (.wakeSource (.sramRequest n)) s = .next (s.callCluster n.val)) ∧
    (s.power.st = .doze → ∀ n : Fin 6, exec (.wakeSource (.sramRequest n)) s = .next (s.callCluster n.val).beginReturn) ∧
    (s.power.st = .lantern → s.power.warm = false → exec (.wakeSource .supply) s = .next s.beginReturn) ∧
    (s.power.st ≠ .lantern → s.dueFences ≠ [] → exec (.wakeSource .expiryFenceDue) s = .next s.beginReturn) ∧
    (s.power.st ≠ .lantern → ∀ c, c = .parkedSlotPulse ∨ c = .fabricPacket ∨ c = .hostDoorbell →
      exec (.wakeSource c) s = .next s.beginReturn) ∧
    ((s.listen.stageWaking.isSome || s.listen.heldTrigger.isSome) = true → exec (.wakeSource .trigger) s = .next s.beginReturn)) ∧
  (∀ (s : State) (k : PowerState), s.power.returning = some k → s.passed tmReturn (returnDelay s.power.returnStep) = true →
    let t := s.mark tmReturn
    (s.power.returnStep = 1 → s.power.vin = true →
      exec .powerReturnStep s = .next (t.modPower (fun p => { p with returnStep := 2 }))) ∧
    (s.power.returnStep = 2 → exec .powerReturnStep s = .next (t.modPower (fun p => { p with returnStep := 3 }))) ∧
    (s.power.returnStep = 3 → exec .powerReturnStep s = .next t.returnChecked) ∧
    (s.power.returnStep = 4 → exec .powerReturnStep s = .next t.returnDoze) ∧
    (s.power.returnStep = 5 → exec .powerReturnStep s = .next t.returnActive) ∧
    (∀ n, 6 ≤ s.power.returnStep → s.nextReturning = some n → exec .powerReturnStep s = .next (t.returnCluster n)) ∧
    (6 ≤ s.power.returnStep → s.nextReturning = none →
      exec .powerReturnStep s = .next (t.modPower (fun p => { p with returning := none, returnStep := 0 })))) ∧
  (∀ s : State, s.passed tmReturn (returnDelay s.power.returnStep) = false → exec .powerReturnStep s = .next s) ∧
  [3, 4, 5, 6, 7].map railMv = [850, 750, 700, 650, 620] ∧
  (∀ (s : State) (n c : Nat), c / 8 = n → s.coreRuns c = true →
    (∀ k, k / 8 = n → s.coreRuns k = true → field (s.core c).mode.toNat 10 8 ≤ field (s.core k).mode.toNat 10 8) →
    s.coreRail n = some (railMv (field (s.core c).mode.toNat 10 8))) ∧
  (∀ s : State, s.obj Key.wakeAt ≠ 0 →
    (s.power.st = .lantern → s.calendarNow = s.obj Key.wakeAt → exec .wakeAtAlarm s = .next s.beginReturn) ∧
    (s.power.st = .stowed → s.calendar < s.obj Key.wakeAt → (s.power.vin || s.power.vlnt) = true → s.power.entry = none →
      exec .wakeAtAlarm s = .next ({ s with calendar := s.obj Key.wakeAt } : State).leaveStowed)) ∧
  (∀ (s : State) (mw : Nat),
    let t := (s.setObj Key.inputPowerMw mw).mark tmCap
    (s.windowBegun tmCap 1000000 = false → exec (.powerCapWindow mw) s = .next s) ∧
    (s.windowBegun tmCap 1000000 = true →
      (s.obj Key.powerCapMw < mw → exec (.powerCapWindow mw) s = .next (t.windowAbove mw)) ∧
      (10 * mw < 9 * s.obj Key.powerCapMw → exec (.powerCapWindow mw) s = .next t.windowBelow) ∧
      (mw ≤ s.obj Key.powerCapMw → 9 * s.obj Key.powerCapMw ≤ 10 * mw →
        exec (.powerCapWindow mw) s = .next (t.modPower (fun p => { p with capAbove := 0, capBelow := 0 }))))) ∧
  (∀ (s : State) (temps : List Int), s.power.st ≠ .stowed → s.power.st ≠ .off →
    (s.windowBegun tmThermal 1000000 = false → exec (.thermalInterval temps) s = .next s) ∧
    (s.windowBegun tmThermal 1000000 = true → s.windowBegun tmThermalTen 10000000 = false →
      exec (.thermalInterval temps) s = .next ((s.mark tmThermal).takeReadings temps false)) ∧
    (s.windowBegun tmThermal 1000000 = true → s.windowBegun tmThermalTen 10000000 = true →
      exec (.thermalInterval temps) s = .next (((s.mark tmThermal).takeReadings temps true).mark tmThermalTen))) ∧
  (∀ (s : State) (k : Fin 10), s.power.st = .active ∨ s.power.st = .doze → exec (.thermalTrip k) s = .next (s.trip k.val)) ∧
  (∀ s : State, (s.power.st = .active ∨ s.power.st = .doze) → s.errors.islandsDown.contains 59 = false →
    (s.windowBegun tmLifetime 600000000000 = true → exec .lifetimeCommit s = .next (s.mark tmLifetime).commitLife) ∧
    (s.windowBegun tmLifetime 600000000000 = false → exec .lifetimeCommit s = .next s)) ∧
  (∀ s : State, s.power.vin = false →
    (s.power.st = .lantern → exec .vinApply s = .next (s.modPower (fun p => { p with vin := true })).beginReturn) ∧
    (s.power.st ≠ .lantern → exec .vinApply s = .next (((s.modPower (fun p => { p with vin := true })).bump Key.starts).modPower
      (fun p => { p with st := .off, booted := false })))) ∧
  (∀ s : State, s.power.vin = true →
    let t := s.modPower (fun p => { p with vin := false })
    (s.power.st = .off ∨ s.power.st = .stowed → exec .vinRemove s = .next t.losePower.onCalendar) ∧
    (s.power.st ≠ .off → s.power.st ≠ .stowed → exec .vinRemove s = .next (
      if s.power.vlnt then (t.losePower.loseMain.modPower (fun p => { p with st := .lantern })).onCalendar
      else t.losePower.enterStowed.onCalendar))) ∧
  (∀ (s : State) (straps : Fin 4), s.power.vlnt = false → s.power.resetN = true → s.power.refclk = true →
    let t := s.modPower (fun p => { p with vlnt := true })
    (s.power.st = .stowed → exec (.vlntApply straps) s = .next t.leaveStowed) ∧
    (s.power.st = .off → s.power.vin = false → exec (.vlntApply straps) s = .next (t.releaseReset straps.val)) ∧
    (s.power.st ≠ .stowed → s.power.st ≠ .off → exec (.vlntApply straps) s = .next t)) ∧
  (∀ s : State, s.power.vlnt = true →
    let t := s.modPower (fun p => { p with vlnt := false })
    (s.power.vin = true → exec .vlntRemove s = .next t) ∧
    (s.power.vin = false → s.power.st = .lantern → exec .vlntRemove s = .next t.enterStowed.onCalendar)) ∧
  (∀ s : State, s.power.vcal = true → exec .vcalLoss s = .next (s.modPower (fun p => { p with vcal := false })).onCalendar) ∧
  (∀ s : State, s.power.refclk = true → exec .refclkLoss s = .next (
    (if s.power.vin || s.power.vlnt then s.holdReset else s.stopClock).modPower (fun p => { p with refclk := false }))) ∧
  (∀ (s : State) (straps : Fin 4), s.power.refclk = false →
    let t := s.modPower (fun p => { p with refclk := true })
    exec (.refclkReturn straps) s = .next (if s.power.booted || !s.power.resetN then t else t.releaseReset straps.val)) ∧
  (∀ s : State, exec .resetNAssert s = .next (s.holdReset.modPower (fun p => { p with resetN := false }))) ∧
  (∀ (s : State) (straps : Fin 4), s.power.booted = false → s.power.refclk = true → exec (.resetRelease straps) s
    = .next ((s.modPower (fun p => { p with resetN := true })).releaseReset straps.val))

/-! ### The object dictionary, telemetry and segments (chapter 16) -/

/-- R227, R767, R770 to R774, R778, R779, R783 to R788, R796: the operations of the dictionary, where they are accepted, the write that
clears TagsHighWater, repeats, and requests of a session that is not open. -/
def Obligations.DictionaryComplete : Prop :=
  (∀ (r : Req) (index sub param offset : Nat) (v : List Byte),
    Serves (.uoaRead r index sub param offset) r { op := 1, index, sub, param, offset }
      (fun s c => (match s.readValue c index sub param with
        | .ok w => w == v
        | .error _ => false) && decide (offset ≤ v.length))
      (fun s _ => (s.fresh.2, stOk, (v.drop offset).take 1024, decide (offset + 1024 < v.length)))) ∧
  (∀ (r : Req) (index sub offset : Nat) (more : Bool) (data : List Byte) (row : ObjRow),
    Serves (.uoaWrite r index sub offset more data) r { op := 2, index, sub, offset } (okPlainWrite r index sub offset more data row)
      (fun s _ => served ((s.unstage r (256 * index + sub)).setObj (256 * index + sub) (leNat data)) stOk)) ∧
  (∀ r : Req, Serves (.uoaWrite r 0x3A00 2 0 false [0, 0, 0, 0]) r { op := 2, index := 0x3A00, sub := 2 }
    (fun s c => decide (rkOperator ≤ c.role.rank) && s.onePiece r Key.tagsHighWater 0 false [0, 0, 0, 0])
    (fun s _ => served ((s.unstage r Key.tagsHighWater).setObj Key.tagsHighWater 0) stOk)) ∧
  (∀ (r : Req) (index sub param offset : Nat) (more : Bool) (data : List Byte) (row : ObjRow) (sec : Nat),
    Serves (.uoaWriteNv r index sub param offset more data) r { op := 3, index, sub, param, offset }
      (okNvWrite r index sub param offset more data row sec)
      (fun s _ =>
        let key := 256 * index + sub
        let t := s.unstage r key
        served ((t.nvWaitToo sec key data).nvCommit (nvSet t.nvRecs sec key data)) stOk)) ∧
  (∀ (r : Req) (index sub : Nat) (value env : List Byte), env.length = 448 →
    Serves (.uoaWriteSigned r index sub (value ++ env)) r { op := 4, index, sub }
      (fun s c => s.redrawNonce.writeGate { c with role := .vendor } index sub == stOk)
      (fun s c =>
        let key := 256 * index + sub
        let x := s.redrawNonce.serveWrite { c with role := .vendor } key 0 value
        if envelopeOk Config.dieSerial s.sec.vendorNonce (key / 256) (key % 256) value env then served (x.1.noteProgress r key x.2) x.2
        else served s stSignature)) ∧
  (∀ (r : Req) (index first : Nat), Serves (.uoaEnumerate r index first) r { op := 5, index, param := first }
    (fun _ c => decide (rkOperator ≤ c.role.rank) && !(rowsOf index).isEmpty)
    (fun s _ => (s, stOk, ((List.range 256).filterMap (fun k => if k < first then none else (rowAt index k).map (fun w => (k, w)))).flatMap
      (fun e => [BitVec.ofNat 8 e.1, BitVec.ofNat 8 e.2.ty.code, BitVec.ofNat 8 e.2.acc.code, 0]), false))) ∧
  (∀ (r : Req) (data : List Byte) (keys : List Nat) (vs : List (List Byte)), Serves (.uoaSubscribe r data) r { op := 6 }
    (okSubscribe data keys vs)
    (fun s c => (s.addSubscription c (leNat (data.take 4)) keys, stOk, [BitVec.ofNat 8 (freeNumber s.mgmt.subs)], false))) ∧
  (∀ (r : Req) (n : Nat), Serves (.uoaUnsubscribe r n) r { op := 7, param := n }
    (fun s c => c.role != .none && s.mgmt.subs.any (fun x => x.number == n && x.isOf c))
    (fun s _ => served (s.modMgmt (fun m => { m with subs := m.subs.filter (·.number != n) })) stOk)) ∧
  (∀ r : Req, Serves (.uoaAbort r) r { op := 8 } (fun _ c => c.role != .none) (fun s _ => served (s.unstageAll r) stOk)) ∧
  (∀ r : Req, Serves (.uoaDiscover r) r { op := 9 } (fun _ _ => true) (fun s _ => (s, stOk, fitBytes 16
    (Config.discoverBytes s.moduleId (s.obj Key.plcaNodeId) (s.obj Key.segmentRole) s.profile Config.dieSerial), false))) ∧
  (∀ (s : State) (r : Req) (index sub param offset : Nat) (k : Kept),
    let h : Head := { op := 1, index, sub, param, offset }
    let t := s.countSegment r.path
    s.mcOn = true → t.isProxied r = false →
    (t.keptFor r h = some k →
      exec (.uoaRead r index sub param offset) s = .next ((t.bump Key.uoaRepeatsAnswered).sendOn r.path k.response)) ∧
    (t.keptFor r h = none → t.callerOf r = none →
      exec (.uoaRead r index sub param offset) s = .next (t.answer r h stSession [] false)))

/-- R19, R786, R787, R790 to R796: frames that another module carries, heartbeats, proxied requests, telemetry and the ends of commands
that run on; what is timed, once it is due. A frame that answers a request takes the request's path. -/
def Obligations.SegmentsComplete : Prop :=
  (∀ (s : State) (r : Req) (index sub : Nat),
    let due := s.mgmt.staged.any (fun x => x.isAt r (256 * index + sub) && decide (x.stamp + 10000000000 ≤ s.time))
    (due = true → exec (.stagedSegmentTimeout r index sub) s = .next (s.unstage r (256 * index + sub))) ∧
    (due = false → exec (.stagedSegmentTimeout r index sub) s = .next s)) ∧
  (∀ (s : State) (index sub st : Nat) (e : Req × Nat), s.mgmt.inProgress.find? (·.2 == 256 * index + sub) = some e → st ≠ stInProgress →
    (e.1.session = 0 → exec (.cmdInProgressDone index sub st) s
      = .next ((s.endProgress (256 * index + sub)).notify e.1.path 0 e.1.requestId 0xFF st index sub [])) ∧
    (e.1.session ≠ 0 → s.sec.sessions.any (·.id == e.1.session) = false →
      exec (.cmdInProgressDone index sub st) s = .next (s.endProgress (256 * index + sub)))) ∧
  (∀ (s : State) (n : Nat) (x : Subscription), s.mcOn = true → s.mgmt.subs.find? (·.number == n) = some x →
    x.next ≤ windowOf x.interval s.time →
    let t := s.passWindow n (windowOf x.interval s.time)
    (exec (.telemetrySnapshot n false) s = .next (t.fresh.2.notify x.path x.session 0 n 0 0 0 (natLe 8 s.time ++ s.snapshotValues x))) ∧
    (exec (.telemetrySnapshot n true) s = .next (t.bump Key.telemetryDrops))) ∧
  (∀ s : State, s.mcOn = true →
    let due := s.passed tmBeat (1000000 * s.obj Key.segmentHeartbeatMs)
    let t := s.mark tmBeat
    (due = false → exec .heartbeatSend s = .next s) ∧
    (due = true → s.isManager = true → exec .heartbeatSend s = .next (t.heartbeatOn (.segment 0xFFFF))) ∧
    (due = true → s.isManager = false → s.isWorker = true → s.mgmt.segmentUp = true →
      exec .heartbeatSend s = .next (t.heartbeatOn (.segment s.mgmt.segmentManager))) ∧
    (due = true → s.isManager = false → s.isWorker = true → s.mgmt.segmentUp = false →
      exec .heartbeatSend s = .next (t.heartbeatOn (.segment s.mgmt.segmentManager)).heartbeatGuyline) ∧
    (∀ segment fromManager module node up, exec (.uoaHeartbeat segment fromManager module node up) s
      = .next ((if segment then s.bump Key.t1sFramesRx else s).hear segment fromManager module node up)) ∧
    (∀ peer, s.isManager = true → exec (.segmentDown peer) s = .next (s.modMgmt (fun m => { m with
      members := m.members.map (fun x => if x.module = peer ∧ x.stamp + s.beatLimit ≤ s.time then
        { x with up := false, heard := 0 }
      else x) }))) ∧
    (∀ peer, s.isManager = false → s.isWorker = true → s.mgmt.segmentUp = true → exec (.segmentDown peer) s
      = .next ((if Config.freeBool s.freeCtr || !s.passed tmManager s.beatLimit then s.fresh.2.bump Key.plcaBeaconLosses
          else s.fresh.2).modMgmt (fun m => { m with segmentUp := false, managerHeard := 0 })).heartbeatGuyline)) ∧
  (∀ (s : State) (worker id : Nat) (frame : List Byte) (x : Proxied), s.mgmt.proxied.find? (·.is worker id) = some x →
    (s.mcOn = true → x.onSegment = false → exec (.proxyResponse worker id frame) s
      = .next ((s.forgetProxied worker id).sendOn x.path frame)) ∧
    (x.since + 1000000 * s.obj Key.proxyTimeoutMs ≤ s.time → exec (.proxyTimeout worker id) s
      = .next (((s.forgetProxied worker id).bump Key.proxyTimeouts).answerPlain ((frameHead x.header).req x.path)
        (frameHead x.header).head stTimeout)) ∧
    (s.time < x.since + 1000000 * s.obj Key.proxyTimeoutMs → exec (.proxyTimeout worker id) s = .next s)) ∧
  (∀ (s : State) (module : Nat) (frame : List Byte), s.mcOn = true → 24 ≤ frame.length →
    let h := frameHead frame
    let r := h.req (.guyline module)
    (bit h.flags 0 = true → exec (.guyline module frame) s = .next (s.proxyBack module h.requestId frame)) ∧
    (bit h.flags 0 = false → h.op ≠ 0x10 → h.op ≠ 0x11 → h.length = frame.length → frame.length ≤ 1452 →
      (s.isProxied r = true → exec (.guyline module frame) s = .next (s.proxy r h.head frame)) ∧
      (s.isProxied r = false → exec (.guyline module frame) s = .next (s.openRequest (.guyline module) h frame))))

/-! ### Management and field update (chapters 16 and 17) -/

/-- R769, R780, R800, R801, R808 to R812, R818: role keys, the NV image, the calendar, and the commands of an update. -/
def Obligations.UpdateAndManagementComplete : Prop :=
  CmdCompletes .updateBegin Key.updateBegin rkOperator okUpdateBegin (fun s _ v =>
    if s.update.packageLen = leNat (v.take 4) ∧ s.update.target = v.drop 8 then
      s.modUpdate (fun u => { u with st := if u.complete then 2 else 1 })
    else s.modUpdate (fun u => { u with st := 1, packageLen := leNat (v.take 4), target := v.drop 8, pieces := [] })) ∧
  (∀ (r : Req) (offset : Nat) (data : List Byte),
    let ok := fun (s : State) (c : Caller) => decide (rkOperator ≤ c.role.rank) && (s.update.st == 1 || s.update.st == 2)
      && offset % 1024 == 0 && decide (offset < s.update.packageLen) && data.length == s.update.pieceLen (offset / 1024)
    let h : Head := { op := 2, index := Key.updatePiece / 256, sub := Key.updatePiece % 256, offset }
    Serves (.updatePiece r offset data) r h (fun s c => ok s c && (tabFind s.update.pieces (offset / 1024)).isNone)
      (fun s _ => served (((s.modUpdate (fun u =>
        let u1 : Update := { u with pieces := tabSet u.pieces (offset / 1024) data }
        { u1 with st := if u1.complete then 2 else u1.st })).chargeFlash data.length).chargeFlash 2048) stOk) ∧
    Serves (.updatePiece r offset data) r h (fun s c => ok s c && (tabFind s.update.pieces (offset / 1024)).isSome)
      (fun s _ => served (s.bump Key.updateDuplicatePieces) stOk)) ∧
  CmdCompletes (fun r _ => .updateActivate r) Key.updateActivate rkOperator (fun s _ v => v == [1] && s.update.st == 2)
    (fun s _ _ => s.modUpdate (fun u => { u with st := 3 })) ∧
  CmdCompletes (fun r _ => .updateActivateReset r) Key.updateActivate rkOperator (fun s _ v => v == [2] && s.update.st == 2)
    (fun s _ _ => ((s.modUpdate (fun u => { u with st := 3 })).modMgmt (fun m => { m with resetScheduled := true })).mark tmActivate) ∧
  (∀ (s : State) (straps : Fin 4), s.mgmt.resetScheduled = true →
    (s.passed tmActivate 100000000 = true → exec (.activateReset straps) s = .next (s.holdReset.releaseReset straps.val)) ∧
    (s.passed tmActivate 100000000 = false → exec (.activateReset straps) s = .next s)) ∧
  CmdCompletes .updateCancel Key.updateCancel rkOperator (fun s _ _ => ([1, 2, 3] : List Nat).contains s.update.st)
    (fun s _ _ => s.modUpdate Update.cleared) ∧
  (∀ s : State, s.update.st = 4 → s.mcOn = true →
    (60000000000 ≤ tabGet s.timers tmRun 0 → exec .trialConfirm s
      = .next ((((s.modUpdate (fun u => { u with st := 0 })).chargeFlash 64).updateResult 0x01).bump Key.updatesApplied)) ∧
    (tabGet s.timers tmRun 0 < 60000000000 → exec .trialConfirm s = .next s)) ∧
  CmdCompletes .roleKeyInstall Key.roleKeyInstall rkIntegrator
    (fun _ _ v => (leNat (v.take 1) == 0x80 || leNat (v.take 1) == 0x81) && leNat ((v.drop 1).take 3) == 0)
    (fun s _ v => s.modSec (fun k => { k with roleKeys := tabSet k.roleKeys (leNat (v.take 1)) (v.drop 4) })) ∧
  SignedCompletes .roleKeyReset Key.roleKeyReset (fun _ _ _ => true) (fun s _ _ => s.modSec (fun k => { k with roleKeys := [] })) ∧
  (∀ (r : Req) (v : List Byte) (rs : List NvRecord), Serves (.nvImageWrite r v) r (writeHead Key.nvImage)
    (fun _ c => decide (rkIntegrator ≤ c.role.rank) && nvParse v == some rs && rs.all (fun x => storable x.key x.section_)
      && decide (v.length ≤ 262144))
    (fun s _ => served (s.nvWait v) stOk)) ∧
  CmdCompletes .nvClearSection Key.nvClearSection rkIntegrator (fun _ _ v => decide (leNat v ≤ 4))
    (fun s _ v => s.nvWait (nvBuild 0 (s.nvNextRecs.filter (·.section_ != leNat v)))) ∧
  CmdCompletes .calendarSet Key.calendarSet rkOperator okCalendarSet (fun s _ v => s.takeCalendar (leNat v))

/-! ### The host link (chapter 18) and registers (chapters 03, 18) -/

/-- R8, R9, R180 to R182, R188, R824 to R841, R847: the link, doorbells, mailboxes, the BAR2 window, where requests are served or
wait in order at the crossing, transfers, and reads and writes of registers that have no command of their own. -/
def Obligations.HostLinkComplete : Prop :=
  (∀ (s : State) (level : Bool), exec (.usb4EnChange level) s = .next (if level then s.modHost (fun h => { h with usb4En := true })
    else s.modHost (fun h => { h with usb4En := false, connected := false, cl2 := false, rates := 0 }))) ∧
  (∀ (s : State) (a b : Nat), s.host.usb4En = true → s.linkIslandOn = true → s.host.connected = false →
    exec (.usb4LinkConnect a b) s = .next ((s.modHost (fun h => { h with
      connected := true
      cl2 := false
      rates := a % 256 * 256 + b % 256 })).bump Key.usb4Connects)) ∧
  (∀ s : State, s.power.st = .doze → s.host.connected = true →
    exec .linkCl2Request s = .next (s.modHost (fun h => { h with cl2 := true }))) ∧
  (∀ (s : State) (frame : List Byte), s.linkIslandOn = true → exec (.usb2BulkTransfer frame) s = .next (s.frameIn .usb2 frame)) ∧
  (∀ s : State, s.host.connected = true →
    (∀ (m : Fin 8) (len : Nat),
      let rest := s.host.mbLenErr.filter (· != m.val)
      (24 ≤ len → len ≤ 1452 → exec (.mbReqLen m len) s = .next ((s.modHost (fun h => { h with
        mbLenErr := rest
        mbReqLen := tabSet h.mbReqLen m.val (BitVec.ofNat 32 len) })).frameIn (.mailbox m) (fitBytes len (tabGet s.host.mbReq m.val [])))) ∧
      (len < 24 ∨ 1452 < len → exec (.mbReqLen m len) s = .next (s.modHost (fun h => { h with mbLenErr := rest ++ [m.val] })))) ∧
    (∀ m : Fin 8, tabGet s.host.mbQueue m.val [] = [] → exec (.mbRespAck m) s = .next (s.modHost (fun h => { h with
      mbRespLen := tabSet h.mbRespLen m.val 0
      mbResp := tabSet h.mbResp m.val [] }))) ∧
    (∀ (m : Fin 8) (f : List Byte) (rest : List (List Byte)), tabGet s.host.mbQueue m.val [] = f :: rest →
      exec (.mbRespAck m) s = .next (s.modHost (fun h => { h with
        mbQueue := tabSet h.mbQueue m.val rest
        mbResp := tabSet h.mbResp m.val f
        mbRespLen := tabSet h.mbRespLen m.val (BitVec.ofNat 32 f.length)
        vectors := h.vectors ++ [m.val] }))) ∧
    (∀ v : Word, (v.toNat = 4 ∨ v.toNat = 5) → s.power.entry = none →
      exec (.pwrDoorbell v) s = .next (s.startEntry (if v.toNat = 4 then .stowed else .off))) ∧
    (∀ d : Fin 16,
      let w := s.obj (Key.hostDoorbellLine + d.val)
      let t := s.raiseLine (w / 256) (w % 256) 61
      (s.host.asks = [] → exec (.doorbell d) s = .next (if t.power.st = .doze then t.beginReturn else t)) ∧
      (s.host.asks ≠ [] → exec (.doorbell d) s = .next (s.holdAsk (.bell d.val)))) ∧
    (∀ v : Word,
      (({ s.host with winBaseLo := v &&& 0xFFE00000 } : HostLink).winBase + 2 ^ 34 ≤ 2 ^ 48 →
        exec (.winBase false v) s = .next (s.modHost (fun h => { h with winBaseLo := v &&& 0xFFE00000 }))) ∧
      (({ s.host with winBaseHi := v &&& 0xFFFF } : HostLink).winBase + 2 ^ 34 ≤ 2 ^ 48 →
        exec (.winBase true v) s = .next (s.modHost (fun h => { h with winBaseHi := v &&& 0xFFFF })))) ∧
    (∀ (offset p : Nat) (data : List Byte) (t : State), s.hostGate = .serve → s.host.asks = [] → s.host.winPitch = some p →
      windowRange offset data.length = true → s.hostCheck p s.host.winTenant (s.host.winBase + offset) data.length = none →
      ((s.passTag .hostLink).readState p (s.host.winBase + offset) data.length .host = (t, data, none) →
        exec (.bar2Read offset data.length) s = .next (t.completeRead (.data data))) ∧
      ((s.passTag .hostLink).writeState p (s.host.winBase + offset) data .host = (t, none) →
        exec (.bar2Write offset data) s = .next t)) ∧
    (∀ (offset : Nat) (data : List Byte), s.host.asks = [] → windowRange offset data.length = true →
      (s.hostGate = .refuse ∨ (s.hostGate = .serve ∧ s.host.winPitch = none) →
        exec (.bar2Read offset data.length) s = .next s.refuseRead ∧ exec (.bar2Write offset data) s = .next s.windowError)) ∧
    (∀ (offset : Nat) (data : List Byte), s.hostGate = .hold ∨ s.host.asks ≠ [] → windowRange offset data.length = true →
      exec (.bar2Read offset data.length) s = .next (s.holdAsk (.read s.host.winBase offset data.length)) ∧
      exec (.bar2Write offset data) s = .next (s.holdAsk (.write s.host.winBase offset data))) ∧
    (∀ (c : Fin 4) (v : Word),
      let t := s.setDmaReg c.val 3 v
      exec (.dmaProd c v) s = .next (if t.power.st = .doze ∧ t.dmaWaits c.val = true then t.beginReturn else t)) ∧
    (∀ (c : Fin 4) (bs hostData : List Byte) (t : State),
      let d := dmaDesc bs
      let p := s.obj (Key.hostDmaPitch + c.val)
      s.dmaWaits c.val = true → s.hostGate = .serve → d.ok = true →
      s.hostCheck p (tabGet s.host.dmaTenant c.val 0) d.addr d.len = none →
      (∀ out, d.toHost = true → (s.passTag .hostLink).readState p d.addr d.len .host = (t, out, none) → exec (.dmaDescriptorDone c bs hostData) s
        = .next ((t.modHost (fun h => { h with hostWrites := h.hostWrites ++ [(d.host, out)] })).endDma c.val d 0)) ∧
      (d.toHost = false → hostData.length = d.len → (s.passTag .hostLink).writeState p d.addr hostData .host = (t, none) →
        exec (.dmaDescriptorDone c bs hostData) s = .next (t.endDma c.val d 0))) ∧
    (∀ (off : Nat) (v : Word), 0x10000 ≤ off → off < 0x20000 → off % 4 = 0 →
      exec (.registerWrite true off v) s = .next (s.writeMailbox (off - 0x10000) v)) ∧
    (∀ v : Word, exec (.registerWrite true 0x84 v) s = .next (s.modHost (fun h => { h with evtCons := v })))) ∧
  ScalarCompletes .windowPitch Key.windowPitch rkTenant
    (fun s c n => decide (n < 32) && (if s.sec.confidential then
        c.role == .tenant (tenantOfTag (s.pitch n).tenantTag) && (s.pitch n).st != .free
      else decide (rkOperator ≤ c.role.rank)))
    (fun s _ n => (s.setObj Key.windowPitch n).modHost (fun h => { h with
      winStatus := BitVec.ofNat 32 (2 ^ 31 + n)
      winTenant := (s.pitch n).tenantTag })) ∧
  (∀ (s : State) (c : CoreRef) (v : Word), exec (.registerWrite false (0x2000000 + 0x10000 * c.cluster.val + 0x1000 * c.core.val + 0x10) v) s
    = .next (s.modCore (coreIndex c) (fun k => { k with busyM0 := 0 }))) ∧
  (∀ (s : State) (v : Word),
    let w := (s.modHost (fun h => { h with evtCons := v })).readBar0 0x84
    w = v ∧ s.readBar0 0x00 = 0x00481F48 ∧ s.readBar0 0x10 = 0 ∧ s.readBar0 0x400 = 0 ∧
    (∀ off, 0x480 ≤ off → off < 0x10000 → s.readBar0 off = 0)) ∧
  (∀ (s : State) (c : CoreRef) (n : Nat),
    let at_ := fun (off : Nat) => s.readDie (0x2000000 + 0x10000 * c.cluster.val + 0x1000 * c.core.val + off)
    at_ 0x000 = BitVec.ofNat 32 (8 * c.cluster.val + c.core.val) ∧ at_ 0x004 = (s.core (coreIndex c)).mode ∧
    at_ 0x008 = BitVec.ofNat 32 (s.coreSlots (coreIndex c)) ∧
    at_ 0x010 = (if s.sec.confidential then 0 else (s.core (coreIndex c)).busyM0) ∧ at_ 0x00C = 0 ∧
    (n < 4 → (s.coreSlots (coreIndex c)).testBit n = (s.slot (4 * coreIndex c + n)).assigned) ∧
    State.reset.coreSlots (coreIndex c) = 0xF0) ∧
  (∀ (s : State) (off : Nat) (v : Word), 0x4000000 ≤ off →
    exec (.registerWrite true off v) s = .fault (.noSuchRegister off))
end

