-- ==== Sys2Proof/Laws/Issue.lean ====
section
/-! SUPPORT. What a control command and an engine command do where they are ready: a statement about a command of a slot follows from its
action or its work. -/

namespace Sys2Proof.Machine

/-- What it takes for a command to be fetched and its slot's turn. -/
theorem mayIssue_parts {s : State} {u : SlotRef} {w : CmdWord} {op : Nat} (h : s.mayIssue u w op = true) :
    s.canIssue (slotIndex u) = true ∧ (s.slot (slotIndex u)).fits op w.toNat = true ∧ (∃ t, s.fetchPoison (slotIndex u) = (t, none))
      ∧ (s.fetch (slotIndex u) op w.toNat).turn (slotIndex u) = true := by
  simp only [State.mayIssue, State.fetches, State.fetched, Bool.and_eq_true, Option.isNone_iff_eq_none] at h
  obtain ⟨⟨⟨a, b⟩, c⟩, d⟩ := h
  exact ⟨a, b, ⟨_, Prod.ext rfl c⟩, d⟩

/-- What readiness says of a control command. -/
theorem controlReady_parts {s : State} {u : SlotRef} {w : CmdWord} {op : Nat} {ks : List Nat} {fs : List (Nat × Nat)}
    (h : s.controlReady u w op ks fs = true) :
    s.mayIssue u w op = true ∧ (s.slot (slotIndex u)).predicate w.toNat = true ∧ cwDesc w.toNat = false
      ∧ cwDesc128 w.toNat = false ∧ cwDone w.toNat = false ∧ cwPre w.toNat = false ∧ ks.contains (cwKind w.toNat) = true
      ∧ opndFormed w.toNat = true ∧ onlyBits (cwArgs w.toNat) fs = true := by
  simp only [State.controlReady, Bool.and_eq_true, Bool.not_eq_true'] at h
  obtain ⟨⟨⟨⟨⟨⟨⟨⟨a, b⟩, c⟩, d⟩, e⟩, f⟩, g⟩, h⟩, i⟩ := h
  exact ⟨a, b, c, d, e, f, g, h, i⟩

/-- A ready control command does what its action does. -/
theorem control_of_ready {s : State} {u : SlotRef} {w : CmdWord} {op : Nat} {ks : List Nat} {fs : List (Nat × Nat)} {kind : Nat → Bool}
    {act : State → Nat → Nat → State} (h : s.controlReady u w op ks fs = true) (hk : ∀ k, ks.contains k = true → kind k = true) :
    s.control u w op kind fs act = act (s.fetched u w op) (slotIndex u) w.toNat := by
  obtain ⟨m, b, c, d, e, f, g, h, i⟩ := controlReady_parts h
  obtain ⟨m1, m2, ⟨t, m3⟩, m4⟩ := mayIssue_parts m
  simp [State.control, State.fetched, m1, m2, m3, m4, b, c, d, e, f, hk _ g, h, i]

/-- All that a control command can do: wait unfetched, fault as it is fetched, wait its turn, be skipped, fault, or act. -/
theorem control_cases (s : State) (u : SlotRef) (w : CmdWord) (op : Nat) (kind : Nat → Bool) (fs : List (Nat × Nat))
    (act : State → Nat → Nat → State) :
    s.control u w op kind fs act = s ∨
    (∃ f, (s.fetchPoison (slotIndex u)).2 = some f ∧ s.control u w op kind fs act =
      (s.fetchPoison (slotIndex u)).1.faultSlot (slotIndex u) f op (s.slot (slotIndex u)).streamPtr) ∨
    s.control u w op kind fs act = (s.fetched u w op).holdCommand (slotIndex u) op w.toNat (some []) ∨
    (s.skips u w op = true ∧ s.control u w op kind fs act = (s.fetched u w op).advance (slotIndex u)) ∨
    s.control u w op kind fs act = (s.fetched u w op).faultSlot (slotIndex u) (fcDescriptor, 0) op (s.slot (slotIndex u)).streamPtr ∨
    (s.mayIssue u w op = true ∧ s.control u w op kind fs act = act (s.fetched u w op) (slotIndex u) w.toNat) := by
  by_cases hi : s.canIssue (slotIndex u) = true
  · by_cases hf : (s.slot (slotIndex u)).fits op w.toNat = true
    · rcases hp : s.fetchPoison (slotIndex u) with ⟨t, f⟩
      cases f with
      | some f => right; left; exact ⟨f, rfl, by simp [State.control, hi, hf, hp]⟩
      | none =>
        by_cases ht : (s.fetch (slotIndex u) op w.toNat).turn (slotIndex u) = true
        · have hm : s.mayIssue u w op = true := by simp [State.mayIssue, State.fetches, State.fetched, hi, hf, hp, ht]
          right; right; right
          by_cases hq : (s.slot (slotIndex u)).predicate w.toNat = true
          · right
            simp only [State.control, hi, hf, hp, ht, hq, State.fetched, Bool.not_true, Bool.false_or, Bool.false_eq_true, if_false]
            split
            · left; rfl
            · right; exact ⟨hm, rfl⟩
          · left; exact ⟨by simp [State.skips, hm, hq], by simp [State.control, State.fetched, hi, hf, hp, ht, hq]⟩
        · right; right; left; simp [State.control, State.fetched, hi, hf, hp, ht]
    · left; simp [State.control, hf]
  · left; simp [State.control, hi]

/-- A ready engine command whose work meets no fault and no stall enters its engines. -/
theorem issue_of_ready {s : State} {u w op form engines d es either s1} {work : State → Nat → Nat → Work}
  (h : s.engineReady u w op form engines = some (d, es, either, s1))
  (he : (work s1 (slotIndex u) d).err = none) (hs : (work s1 (slotIndex u) d).stall = none) :
  s.issueEngine u w op form engines work =
    State.enter (slotIndex u) w.toNat op es either (entering s u d (work s1 (slotIndex u) d)) := by
  unfold State.engineReady State.fetched State.stateServed at h
  dsimp only at h
  split at h
  · rename_i hc
    simp only [Bool.and_eq_true] at hc
    obtain ⟨⟨⟨⟨hm, h2⟩, h3⟩, h4⟩, h5⟩ := hc
    obtain ⟨m1, m2, ⟨t, m3⟩, m4⟩ := mayIssue_parts hm
    have h3' : (decide (0x60 ≤ op) && (!(s.fetch (slotIndex u) op w.toNat).tier.journalReplayed
        || !(s.fetch (slotIndex u) op w.toNat).up 54)) = false := by
      rcases Nat.lt_or_ge op 0x60 with hl | hl
      · simp [hl]
      · simp only [Nat.not_lt.mpr hl, decide_false, Bool.false_or, Bool.and_eq_true] at h3
        simp [h3]
    simp only [State.issueEngine, m1, m2, m3, m4, h2, h3', h4, h5, Bool.not_true, Bool.or_false, Bool.false_eq_true, if_false]
    split at h
    · cases h
    · rename_i d' hd
      try simp only [hd]
      split at h
      · cases h
      · rename_i hb
        try simp only [hb, Bool.false_eq_true, if_false]
        split at h
        · cases h
        · rename_i s1' hp
          try simp only [hp]
          split at h
          · rename_i ht
            simp only [Option.some.injEq, Prod.mk.injEq] at h
            obtain ⟨rfl, rfl, rfl, rfl⟩ := h
            simp [ht, he, hs, entering]
          · cases h
  · cases h

/-- The descriptor of a ready command is the one it reads. -/
theorem readDesc_of_ready {s : State} {u w op form engines d es either s1}
  (h : s.engineReady u w op form engines = some (d, es, either, s1)) :
  (s.fetched u w op).readDesc (slotIndex u) w.toNat form = .ok d := by
  unfold State.engineReady at h
  dsimp only at h
  split at h
  · split at h
    · cases h
    · rename_i d' hd
      split at h
      · cases h
      · split at h
        · cases h
        · split at h
          · simp only [Option.some.injEq, Prod.mk.injEq] at h
            rw [hd, h.1]
          · cases h
  · cases h

/-- A statement that a row issues follows from its meaning being issueEngine. -/
theorem engineIssues_of {cmd op form engines work} {mine : Nat → Bool} {after : SlotRef → State → State}
  (h : ∀ u w s d, (s.fetched u w op).readDesc (slotIndex u) w.toNat form = .ok d → mine d = true →
    exec (cmd u w) s = .next (after u (s.issueEngine u w op form engines work))) :
  EngineIssues cmd op form engines work mine after := by
  intro u w s d es either s1 hr hm he hs
  rw [h u w s d (readDesc_of_ready hr) hm, issue_of_ready (work := work) hr he hs]

/-- And for the vector commands. -/
theorem vectorIssues_of {cmd op f fn} (ho : vecOp op = (f, fn))
  (h : ∀ u w s, exec (cmd u w) s = .next (s.issueEngine u w op .d64 vecOnly (State.vecWork op))) : VectorIssues cmd op f fn :=
  ⟨engineIssues_of fun u w s _ _ _ => h u w s, ho⟩

end Sys2Proof.Machine
end

