-- ==== Sys2Proof/Laws/Requests.lean ====
section
/-! SUPPORT. What a write of an object does where it is heard and taken up: a statement about a command follows from what its action
gives. -/

namespace Sys2Proof.Machine

/-- A request that is heard is served and answered. -/
theorem State.request_of_hears {s : State} {r : Req} {h : Head} {c : Caller} (hh : s.hears r h c = true) (data : List Byte)
    (serve : State → Caller → Served) :
    s.request r h data serve = (serve (s.asked r) c).1.answer r h (serve (s.asked r) c).2.1 (serve (s.asked r) c).2.2.1
      (serve (s.asked r) c).2.2.2 := by
  simp only [State.hears, Bool.and_eq_true, Bool.not_eq_true', Option.isNone_iff_eq_none, beq_iff_eq] at hh
  obtain ⟨⟨⟨h1, h2⟩, h3⟩, h4⟩ := hh
  simp [State.request, h1, h2, h3, h4, State.asked]

/-- A CMD write that is taken up does what its action does. -/
theorem State.serveCmd_of_open {s : State} {c : Caller} {key min : Nat} {v : List Byte} (ho : s.cmdOpen c key min v = true)
    (act : CmdAct) : s.serveCmd c key min v act = act s c v := by
  unfold State.cmdOpen at ho
  unfold State.serveCmd
  split at ho
  · cases ho
  · rename_i row hr
    simp only [Bool.and_eq_true, decide_eq_true_eq, Bool.or_eq_true, beq_iff_eq, bne_iff_ne, Bool.not_eq_true'] at ho
    obtain ⟨⟨⟨⟨h1, h2⟩, h3⟩, h4⟩, h5⟩ := ho
    try simp only [hr]
    rw [if_neg (by omega), if_neg (by simp; tauto), if_neg (by simp; tauto), if_neg, if_neg, if_neg (by simp [h5])]
    · simp; rintro hb; rcases h4 with h4 | h4 <;> simp_all
    · simp; rintro hb; rcases h4 with h4 | h4 <;> simp_all

/-- A scalar write that is taken up does what its action does. -/
theorem State.serveScalar_of_open {s : State} {c : Caller} {key min : Nat} {v : List Byte} (ho : s.scalarOpen c key min v = true)
    (act : State → Caller → Nat → State × Nat) : s.serveScalar c key min v act = act s c (leNat v) := by
  unfold State.scalarOpen at ho
  unfold State.serveScalar
  split at ho
  · cases ho
  · rename_i row hr
    simp only [Bool.and_eq_true, decide_eq_true_eq, Bool.or_eq_true, beq_iff_eq, bne_iff_ne] at ho
    obtain ⟨⟨⟨h1, h2⟩, h3⟩, h4⟩ := ho
    try simp only [hr]
    rw [if_neg (by omega), if_neg (by simp [h2]), if_neg]
    simp [h4]; intro hb; rcases h3 with h3 | h3
    · exact absurd hb h3
    · exact h3

/-- A CMD statement follows from its action. -/
theorem cmdCompletes_of {cmd : Req → List Byte → Instr} {key min : Nat} {act : CmdAct} {ok : State → Caller → List Byte → Bool}
    {effect : State → Caller → List Byte → State} {st : Nat}
    (he : ∀ (s : State) (r : Req) (v : List Byte) (c : Caller), ok s c v = true → exec (cmd r v) = fun s => .next (s.runCmd r key min v act))
    (ha : ∀ s c v, ok s c v = true → act s c v = (effect s c v, st)) : CmdCompletes cmd key min ok effect st := by
  intro s r v c hh ho hk
  rw [he _ r v c hk]
  simp only [State.runCmd]
  change Host.Outcome.next (s.request r (writeHead key) v _) = _
  rw [State.request_of_hears hh]
  simp only [State.serveCmd_of_open ho, ha _ _ _ hk, served]

/-- A request is served with a result where its serving gives that result. -/
theorem serves_of {i : Instr} {r : Req} {h : Head} {ok : State → Caller → Bool} {result serve : State → Caller → Served}
    {data : List Byte} (he : ∀ s, exec i s = .next (s.request r h data serve))
    (ha : ∀ s c, ok s c = true → serve s c = result s c) : Serves i r h ok result := by
  intro s c hh hk
  rw [he, State.request_of_hears hh, ha _ _ hk]

/-- A CMD statement over what its action answers. -/
theorem cmdAnswers_of {cmd : Req → List Byte → Instr} {key min : Nat} {act : CmdAct} {ok : State → Caller → List Byte → Bool}
    {answer : State → Caller → List Byte → State × Nat}
    (he : ∀ (r : Req) (v : List Byte), exec (cmd r v) = fun s => .next (s.runCmd r key min v act))
    (ha : ∀ s c v, ok s c v = true → act s c v = answer s c v) : CmdAnswers cmd key min ok answer := by
  intro s r v c hh ho hk
  rw [he]
  simp only [State.runCmd]
  change Host.Outcome.next (s.request r (writeHead key) v _) = _
  rw [State.request_of_hears hh]
  simp only [State.serveCmd_of_open ho, ha _ _ _ hk, served]

/-- A scalar statement follows from its action. -/
theorem scalarCompletes_of {cmd : Req → List Byte → Instr} {key min : Nat} {act : State → Caller → Nat → State × Nat}
    {ok : State → Caller → Nat → Bool} {effect : State → Caller → Nat → State}
    (he : ∀ (s : State) (r : Req) (v : List Byte) (c : Caller), ok s c (leNat v) = true →
      exec (cmd r v) = fun s => .next (s.runScalar r key min v act))
    (ha : ∀ s c v, ok s c v = true → act s c v = (effect s c v, stOk)) : ScalarCompletes cmd key min ok effect := by
  intro s r v c hh ho hk
  rw [he _ r v c hk]
  simp only [State.runScalar]
  change Host.Outcome.next (s.request r (writeHead key) v _) = _
  rw [State.request_of_hears hh]
  simp only [State.serveScalar_of_open ho, ha _ _ _ hk, served]

/-- A vendor-signed statement follows from its action. -/
theorem signedCompletes_of {cmd : Req → List Byte → Instr} {key : Nat} {act : CmdAct} {ok : State → Caller → List Byte → Bool}
    {effect : State → Caller → List Byte → State}
    (he : ∀ (r : Req) (v : List Byte), exec (cmd r v) = fun s => .next (s.runSigned r key v act))
    (ha : ∀ s c v, ok s c v = true → act s c v = (effect s c v, stOk)) : SignedCompletes cmd key ok effect := by
  intro s r value env c a c' t hh hl ho hk
  rw [he]
  simp only [State.runSigned]
  change Host.Outcome.next (s.request r (signedHead key) (value ++ env) _) = _
  rw [State.request_of_hears hh]
  simp only [State.serveSigned, State.openSigned, List.length_append, hl, Nat.add_sub_cancel, List.take_left, List.drop_left]
  rw [if_neg (by omega)]
  have e : a.redrawNonce.serveCmd c' key rkVendor value act = (effect t c' value, stOk) :=
    (State.serveCmd_of_open ho act).trans (ha _ _ _ hk)
  by_cases hv : envelopeOk Config.dieSerial (s.asked r).sec.vendorNonce (key / 256) (key % 256) value env = true
  · simp only [a, hv, Bool.not_true, Bool.false_eq_true, if_false, if_true, served]
    change Host.Outcome.next (((s.asked r).redrawNonce.serveCmd c' key rkVendor value act).1.answer r (signedHead key)
      ((s.asked r).redrawNonce.serveCmd c' key rkVendor value act).2 [] false) = _
    rw [show (s.asked r).redrawNonce.serveCmd c' key rkVendor value act = _ from e]
  · simp [a, hv, served]

end Sys2Proof.Machine
end

