-- ==== Sys2Proof/Laws/Table.lean ====
section
/-! SUPPORT. Sparse tables and memories: reading after writing, and the canonical form that every memory operation keeps. -/

namespace Sys2Proof.Machine

variable {α : Type}

/-! ### Tables -/

@[simp] theorem tabFind_tabSet_same (t : Tab α) (k : Nat) (v : α) : tabFind (tabSet t k v) k = some v := by
  induction t with
  | nil => simp [tabSet, tabFind]
  | cons e rest ih =>
    obtain ⟨k', v'⟩ := e
    simp only [tabSet]
    split
    · simp [tabFind]
    · split
      · simp [tabFind]
      · simp [tabFind, *]

@[simp] theorem tabFind_tabSet_other (t : Tab α) (k j : Nat) (v : α) (h : j ≠ k) : tabFind (tabSet t k v) j = tabFind t j := by
  have hk : k ≠ j := Ne.symm h
  induction t with
  | nil => simp [tabSet, tabFind, hk]
  | cons e rest ih =>
    obtain ⟨k', v'⟩ := e
    simp only [tabSet]
    split
    · rename_i he
      subst he
      simp [tabFind, hk]
    · split
      · simp [tabFind, hk]
      · simp [tabFind, ih]

@[simp] theorem tabGet_tabSet_same (t : Tab α) (k : Nat) (v d : α) : tabGet (tabSet t k v) k d = v := by simp [tabGet]

@[simp] theorem tabGet_tabSet_other (t : Tab α) (k j : Nat) (v d : α) (h : j ≠ k) :
    tabGet (tabSet t k v) j d = tabGet t j d := by simp [tabGet, h]

/-! ### Memories -/

/-- Every listed address is at least `lo` and the addresses rise; the form of `Mem.wf` with a lower bound. -/
def Mem.wfFrom (lo : Nat) (m : Mem) : Prop := risingFrom lo m = true ∧ ∀ c ∈ m, c.2 ≠ 0

theorem Mem.wf_iff (m : Mem) : m.wf = true ↔ m.wfFrom 0 := by
  simp [Mem.wf, Mem.wfFrom]

theorem risingFrom_le {lo : Nat} {m : Mem} (h : risingFrom lo m = true) : ∀ c ∈ m, lo ≤ c.1 := by
  induction m generalizing lo with
  | nil => intro c hc; cases hc
  | cons e rest ih =>
    obtain ⟨k, v⟩ := e
    simp only [risingFrom, Bool.and_eq_true, decide_eq_true_eq] at h
    intro c hc
    rcases List.mem_cons.1 hc with rfl | hc
    · exact h.1
    · exact Nat.le_trans h.1 (Nat.le_of_succ_le (ih h.2 c hc))

theorem risingFrom_mono {lo lo' : Nat} {m : Mem} (h : risingFrom lo m = true) (hb : ∀ c ∈ m, lo' ≤ c.1) :
    risingFrom lo' m = true := by
  cases m with
  | nil => rfl
  | cons e rest =>
    obtain ⟨k, v⟩ := e
    simp only [risingFrom, Bool.and_eq_true, decide_eq_true_eq] at h ⊢
    exact ⟨hb _ List.mem_cons_self, h.2⟩

theorem risingFrom_filter {lo : Nat} {m : Mem} (p : Host.Cell → Bool) (h : risingFrom lo m = true) :
    risingFrom lo (m.filter p) = true := by
  induction m generalizing lo with
  | nil => rfl
  | cons e rest ih =>
    obtain ⟨k, v⟩ := e
    simp only [risingFrom, Bool.and_eq_true, decide_eq_true_eq] at h
    rw [List.filter_cons]
    split
    · simp only [risingFrom, Bool.and_eq_true, decide_eq_true_eq]
      exact ⟨h.1, ih h.2⟩
    · refine risingFrom_mono (ih h.2) fun c hc => ?_
      exact Nat.le_trans h.1 (Nat.le_of_succ_le (risingFrom_le (ih h.2) c hc))

theorem risingFrom_append {lo mid : Nat} {a b : Mem} (ha : risingFrom lo a = true) (hab : ∀ c ∈ a, c.1 < mid)
    (hb : risingFrom mid b = true) (hl : lo ≤ mid) : risingFrom lo (a ++ b) = true := by
  induction a generalizing lo with
  | nil => exact risingFrom_mono hb fun c hc => Nat.le_trans hl (risingFrom_le hb c hc)
  | cons e rest ih =>
    obtain ⟨k, v⟩ := e
    simp only [risingFrom, Bool.and_eq_true, decide_eq_true_eq, List.cons_append] at ha ⊢
    exact ⟨ha.1, ih ha.2 (fun c hc => hab c (List.mem_cons_of_mem _ hc)) (hab (k, v) List.mem_cons_self)⟩

theorem cellsOf_rising (a : Nat) (bs : List Byte) : risingFrom a (cellsOf a bs) = true := by
  induction bs generalizing a with
  | nil => rfl
  | cons b rest ih =>
    simp only [cellsOf]
    split
    · exact risingFrom_mono (ih (a + 1)) fun c hc => Nat.le_of_succ_le (risingFrom_le (ih (a + 1)) c hc)
    · simp [risingFrom, ih]

theorem cellsOf_below (a : Nat) (bs : List Byte) : ∀ c ∈ cellsOf a bs, c.1 < a + bs.length ∧ c.2 ≠ 0 := by
  induction bs generalizing a with
  | nil => intro c hc; cases hc
  | cons b rest ih =>
    intro c hc
    simp only [cellsOf] at hc
    split at hc
    · have := ih (a + 1) c hc
      simp only [List.length_cons]
      exact ⟨by omega, this.2⟩
    · rcases List.mem_cons.1 hc with rfl | hc
      · exact ⟨by simp, by assumption⟩
      · have := ih (a + 1) c hc
        simp only [List.length_cons]
        exact ⟨by omega, this.2⟩

/-- A store keeps the canonical form. -/
theorem memWrite_wf (m : Mem) (a : Nat) (bs : List Byte) (h : m.wf = true) : (memWrite m a bs).wf = true := by
  rw [Mem.wf_iff] at h ⊢
  obtain ⟨hr, hz⟩ := h
  constructor
  · unfold memWrite
    rw [List.append_assoc]
    refine risingFrom_append (mid := a) (risingFrom_filter _ hr) ?_ ?_ (Nat.zero_le _)
    · intro c hc
      simpa using (List.mem_filter.1 hc).2
    · refine risingFrom_append (mid := a + bs.length) (cellsOf_rising a bs) (fun c hc => (cellsOf_below a bs c hc).1) ?_ (by omega)
      refine risingFrom_mono (risingFrom_filter _ hr) fun c hc => ?_
      simpa using (List.mem_filter.1 hc).2
  · intro c hc
    simp only [memWrite, List.mem_append] at hc
    rcases hc with (hc | hc) | hc
    · exact hz c (List.mem_filter.1 hc).1
    · exact (cellsOf_below a bs c hc).2
    · exact hz c (List.mem_filter.1 hc).1

/-- Clearing keeps the canonical form. -/
theorem memClear_wf (m : Mem) (a n : Nat) (h : m.wf = true) : (memClear m a n).wf = true := by
  rw [Mem.wf_iff] at h ⊢
  exact ⟨risingFrom_filter _ h.1, fun c hc => h.2 c (List.mem_filter.1 hc).1⟩

/-- A memory built from bytes is in canonical form. -/
theorem cellsOf_wf (bs : List Byte) : Mem.wf (cellsOf 0 bs) = true := by
  rw [Mem.wf_iff]
  exact ⟨cellsOf_rising 0 bs, fun c hc => (cellsOf_below 0 bs c hc).2⟩

theorem memByte_of_not_mem {m : Mem} {a : Nat} (h : ∀ c ∈ m, c.1 ≠ a) : memByte m a = 0 := by
  induction m with
  | nil => rfl
  | cons e rest ih =>
    obtain ⟨k, v⟩ := e
    have hk : k ≠ a := h (k, v) List.mem_cons_self
    simp only [memByte, hk, if_false]
    exact ih fun c hc => h c (List.mem_cons_of_mem _ hc)

theorem memByte_append {x y : Mem} {a : Nat} (h : ∀ c ∈ x, c.1 ≠ a) : memByte (x ++ y) a = memByte y a := by
  induction x with
  | nil => rfl
  | cons e rest ih =>
    obtain ⟨k, v⟩ := e
    have hk : k ≠ a := h (k, v) List.mem_cons_self
    simp only [List.cons_append, memByte, hk, if_false]
    exact ih fun c hc => h c (List.mem_cons_of_mem _ hc)

theorem memByte_append_left {x y : Mem} {a : Nat} (h : ∀ c ∈ y, c.1 ≠ a) : memByte (x ++ y) a = memByte x a := by
  induction x with
  | nil => exact memByte_of_not_mem h
  | cons e rest ih =>
    obtain ⟨k, v⟩ := e
    simp only [List.cons_append, memByte, ih]

theorem memByte_filter {m : Mem} {p : Host.Cell → Bool} {a : Nat} (h : ∀ v, p (a, v) = true) :
    memByte (m.filter p) a = memByte m a := by
  induction m with
  | nil => rfl
  | cons e rest ih =>
    obtain ⟨k, v⟩ := e
    rw [List.filter_cons]
    by_cases hk : k = a
    · subst hk
      simp [memByte, h]
    · split <;> simp [memByte, hk, ih]

theorem memByte_cellsOf (a : Nat) (bs : List Byte) (j : Nat) : memByte (cellsOf a bs) (a + j) = bs.getD j 0 := by
  induction bs generalizing a j with
  | nil => simp [cellsOf, memByte]
  | cons b rest ih =>
    have hl : ∀ c ∈ cellsOf (a + 1) rest, a + 1 ≤ c.1 := risingFrom_le (cellsOf_rising (a + 1) rest)
    cases j with
    | zero =>
      simp only [cellsOf]
      split
      · rename_i hb
        simp only [hb, List.getD_cons_zero]
        exact memByte_of_not_mem fun c hc => by have := hl c hc; omega
      · simp [memByte]
    | succ j =>
      have e : a + (j + 1) = a + 1 + j := by omega
      simp only [cellsOf]
      split
      · rw [e, ih]; simp
      · rw [e]
        have hk : a ≠ a + 1 + j := by omega
        simp only [memByte, hk, if_false, ih, List.getD_cons_succ]

/-- A byte that was just stored reads back. -/
theorem memByte_memWrite_same (m : Mem) (a : Nat) (bs : List Byte) (j : Nat) (h : j < bs.length) :
    memByte (memWrite m a bs) (a + j) = bs.getD j 0 := by
  unfold memWrite
  rw [List.append_assoc, memByte_append (by
    intro c hc
    have := (List.mem_filter.1 hc).2
    simp at this
    omega)]
  rw [memByte_append_left (by
    intro c hc
    have := (List.mem_filter.1 hc).2
    simp at this
    omega)]
  exact memByte_cellsOf a bs j

/-- A byte outside the stored range is unchanged. -/
theorem memByte_memWrite_other (m : Mem) (a : Nat) (bs : List Byte) (x : Nat) (h : x < a ∨ a + bs.length ≤ x) :
    memByte (memWrite m a bs) x = memByte m x := by
  have hc : ∀ c ∈ cellsOf a bs, c.1 ≠ x := by
    intro c hc
    have h1 := (cellsOf_below a bs c hc).1
    have h2 := risingFrom_le (cellsOf_rising a bs) c hc
    omega
  unfold memWrite
  rcases h with h | h
  · rw [List.append_assoc, memByte_append_left (by
      intro c hm
      rcases List.mem_append.1 hm with hm | hm
      · exact hc c hm
      · have := (List.mem_filter.1 hm).2
        simp at this
        omega)]
    exact memByte_filter fun v => by simpa using h
  · rw [List.append_assoc, memByte_append (by
      intro c hm
      have := (List.mem_filter.1 hm).2
      simp at this
      omega), memByte_append hc]
    exact memByte_filter fun v => by simpa using h

end Sys2Proof.Machine
end

