-- ==== Sys2Proof/Laws/State.lean ====
section
/-! SUPPORT. The updates of the state, field by field: what each leaves as it was, and what a read after a write gives. -/

namespace Sys2Proof.Machine

/-! ### Fields that an update leaves -/

@[simp] theorem State.setCore_pending (s : State) (c : Nat) (v : Core) : (s.setCore c v).pending = s.pending := rfl
@[simp] theorem State.setCore_freeCtr (s : State) (c : Nat) (v : Core) : (s.setCore c v).freeCtr = s.freeCtr := rfl
@[simp] theorem State.setCore_time (s : State) (c : Nat) (v : Core) : (s.setCore c v).time = s.time := rfl
@[simp] theorem State.setCore_calendar (s : State) (c : Nat) (v : Core) : (s.setCore c v).calendar = s.calendar := rfl
@[simp] theorem State.setCore_straps (s : State) (c : Nat) (v : Core) : (s.setCore c v).straps = s.straps := rfl
@[simp] theorem State.setCore_profile (s : State) (c : Nat) (v : Core) : (s.setCore c v).profile = s.profile := rfl
@[simp] theorem State.setCore_moduleId (s : State) (c : Nat) (v : Core) : (s.setCore c v).moduleId = s.moduleId := rfl
@[simp] theorem State.setCore_slots (s : State) (c : Nat) (v : Core) : (s.setCore c v).slots = s.slots := rfl
@[simp] theorem State.setCore_clusters (s : State) (c : Nat) (v : Core) : (s.setCore c v).clusters = s.clusters := rfl
@[simp] theorem State.setCore_pitches (s : State) (c : Nat) (v : Core) : (s.setCore c v).pitches = s.pitches := rfl
@[simp] theorem State.setCore_loans (s : State) (c : Nat) (v : Core) : (s.setCore c v).loans = s.loans := rfl
@[simp] theorem State.setCore_teardownLog (s : State) (c : Nat) (v : Core) : (s.setCore c v).teardownLog = s.teardownLog := rfl
@[simp] theorem State.setCore_queues (s : State) (c : Nat) (v : Core) : (s.setCore c v).queues = s.queues := rfl
@[simp] theorem State.setCore_tier (s : State) (c : Nat) (v : Core) : (s.setCore c v).tier = s.tier := rfl
@[simp] theorem State.setCore_fabric (s : State) (c : Nat) (v : Core) : (s.setCore c v).fabric = s.fabric := rfl
@[simp] theorem State.setCore_listen (s : State) (c : Nat) (v : Core) : (s.setCore c v).listen = s.listen := rfl
@[simp] theorem State.setCore_cams (s : State) (c : Nat) (v : Core) : (s.setCore c v).cams = s.cams := rfl
@[simp] theorem State.setCore_errors (s : State) (c : Nat) (v : Core) : (s.setCore c v).errors = s.errors := rfl
@[simp] theorem State.setCore_sec (s : State) (c : Nat) (v : Core) : (s.setCore c v).sec = s.sec := rfl
@[simp] theorem State.setCore_power (s : State) (c : Nat) (v : Core) : (s.setCore c v).power = s.power := rfl
@[simp] theorem State.setCore_mgmt (s : State) (c : Nat) (v : Core) : (s.setCore c v).mgmt = s.mgmt := rfl
@[simp] theorem State.setCore_update (s : State) (c : Nat) (v : Core) : (s.setCore c v).update = s.update := rfl
@[simp] theorem State.setCore_host (s : State) (c : Nat) (v : Core) : (s.setCore c v).host = s.host := rfl
@[simp] theorem State.setCore_dict (s : State) (c : Nat) (v : Core) : (s.setCore c v).dict = s.dict := rfl
@[simp] theorem State.setCore_domains (s : State) (c : Nat) (v : Core) : (s.setCore c v).domains = s.domains := rfl

@[simp] theorem State.setSlot_pending (s : State) (i : Nat) (v : Slot) : (s.setSlot i v).pending = s.pending := rfl
@[simp] theorem State.setSlot_freeCtr (s : State) (i : Nat) (v : Slot) : (s.setSlot i v).freeCtr = s.freeCtr := rfl
@[simp] theorem State.setSlot_time (s : State) (i : Nat) (v : Slot) : (s.setSlot i v).time = s.time := rfl
@[simp] theorem State.setSlot_calendar (s : State) (i : Nat) (v : Slot) : (s.setSlot i v).calendar = s.calendar := rfl
@[simp] theorem State.setSlot_straps (s : State) (i : Nat) (v : Slot) : (s.setSlot i v).straps = s.straps := rfl
@[simp] theorem State.setSlot_profile (s : State) (i : Nat) (v : Slot) : (s.setSlot i v).profile = s.profile := rfl
@[simp] theorem State.setSlot_moduleId (s : State) (i : Nat) (v : Slot) : (s.setSlot i v).moduleId = s.moduleId := rfl
@[simp] theorem State.setSlot_cores (s : State) (i : Nat) (v : Slot) : (s.setSlot i v).cores = s.cores := rfl
@[simp] theorem State.setSlot_clusters (s : State) (i : Nat) (v : Slot) : (s.setSlot i v).clusters = s.clusters := rfl
@[simp] theorem State.setSlot_pitches (s : State) (i : Nat) (v : Slot) : (s.setSlot i v).pitches = s.pitches := rfl
@[simp] theorem State.setSlot_loans (s : State) (i : Nat) (v : Slot) : (s.setSlot i v).loans = s.loans := rfl
@[simp] theorem State.setSlot_teardownLog (s : State) (i : Nat) (v : Slot) : (s.setSlot i v).teardownLog = s.teardownLog := rfl
@[simp] theorem State.setSlot_queues (s : State) (i : Nat) (v : Slot) : (s.setSlot i v).queues = s.queues := rfl
@[simp] theorem State.setSlot_tier (s : State) (i : Nat) (v : Slot) : (s.setSlot i v).tier = s.tier := rfl
@[simp] theorem State.setSlot_fabric (s : State) (i : Nat) (v : Slot) : (s.setSlot i v).fabric = s.fabric := rfl
@[simp] theorem State.setSlot_listen (s : State) (i : Nat) (v : Slot) : (s.setSlot i v).listen = s.listen := rfl
@[simp] theorem State.setSlot_cams (s : State) (i : Nat) (v : Slot) : (s.setSlot i v).cams = s.cams := rfl
@[simp] theorem State.setSlot_errors (s : State) (i : Nat) (v : Slot) : (s.setSlot i v).errors = s.errors := rfl
@[simp] theorem State.setSlot_sec (s : State) (i : Nat) (v : Slot) : (s.setSlot i v).sec = s.sec := rfl
@[simp] theorem State.setSlot_power (s : State) (i : Nat) (v : Slot) : (s.setSlot i v).power = s.power := rfl
@[simp] theorem State.setSlot_mgmt (s : State) (i : Nat) (v : Slot) : (s.setSlot i v).mgmt = s.mgmt := rfl
@[simp] theorem State.setSlot_update (s : State) (i : Nat) (v : Slot) : (s.setSlot i v).update = s.update := rfl
@[simp] theorem State.setSlot_host (s : State) (i : Nat) (v : Slot) : (s.setSlot i v).host = s.host := rfl
@[simp] theorem State.setSlot_dict (s : State) (i : Nat) (v : Slot) : (s.setSlot i v).dict = s.dict := rfl
@[simp] theorem State.setSlot_domains (s : State) (i : Nat) (v : Slot) : (s.setSlot i v).domains = s.domains := rfl

@[simp] theorem State.setCluster_pending (s : State) (n : Nat) (v : Cluster) : (s.setCluster n v).pending = s.pending := rfl
@[simp] theorem State.setCluster_freeCtr (s : State) (n : Nat) (v : Cluster) : (s.setCluster n v).freeCtr = s.freeCtr := rfl
@[simp] theorem State.setCluster_time (s : State) (n : Nat) (v : Cluster) : (s.setCluster n v).time = s.time := rfl
@[simp] theorem State.setCluster_calendar (s : State) (n : Nat) (v : Cluster) : (s.setCluster n v).calendar = s.calendar := rfl
@[simp] theorem State.setCluster_straps (s : State) (n : Nat) (v : Cluster) : (s.setCluster n v).straps = s.straps := rfl
@[simp] theorem State.setCluster_profile (s : State) (n : Nat) (v : Cluster) : (s.setCluster n v).profile = s.profile := rfl
@[simp] theorem State.setCluster_moduleId (s : State) (n : Nat) (v : Cluster) : (s.setCluster n v).moduleId = s.moduleId := rfl
@[simp] theorem State.setCluster_cores (s : State) (n : Nat) (v : Cluster) : (s.setCluster n v).cores = s.cores := rfl
@[simp] theorem State.setCluster_slots (s : State) (n : Nat) (v : Cluster) : (s.setCluster n v).slots = s.slots := rfl
@[simp] theorem State.setCluster_pitches (s : State) (n : Nat) (v : Cluster) : (s.setCluster n v).pitches = s.pitches := rfl
@[simp] theorem State.setCluster_loans (s : State) (n : Nat) (v : Cluster) : (s.setCluster n v).loans = s.loans := rfl
@[simp] theorem State.setCluster_teardownLog (s : State) (n : Nat) (v : Cluster) : (s.setCluster n v).teardownLog = s.teardownLog := rfl
@[simp] theorem State.setCluster_queues (s : State) (n : Nat) (v : Cluster) : (s.setCluster n v).queues = s.queues := rfl
@[simp] theorem State.setCluster_tier (s : State) (n : Nat) (v : Cluster) : (s.setCluster n v).tier = s.tier := rfl
@[simp] theorem State.setCluster_fabric (s : State) (n : Nat) (v : Cluster) : (s.setCluster n v).fabric = s.fabric := rfl
@[simp] theorem State.setCluster_listen (s : State) (n : Nat) (v : Cluster) : (s.setCluster n v).listen = s.listen := rfl
@[simp] theorem State.setCluster_cams (s : State) (n : Nat) (v : Cluster) : (s.setCluster n v).cams = s.cams := rfl
@[simp] theorem State.setCluster_errors (s : State) (n : Nat) (v : Cluster) : (s.setCluster n v).errors = s.errors := rfl
@[simp] theorem State.setCluster_sec (s : State) (n : Nat) (v : Cluster) : (s.setCluster n v).sec = s.sec := rfl
@[simp] theorem State.setCluster_power (s : State) (n : Nat) (v : Cluster) : (s.setCluster n v).power = s.power := rfl
@[simp] theorem State.setCluster_mgmt (s : State) (n : Nat) (v : Cluster) : (s.setCluster n v).mgmt = s.mgmt := rfl
@[simp] theorem State.setCluster_update (s : State) (n : Nat) (v : Cluster) : (s.setCluster n v).update = s.update := rfl
@[simp] theorem State.setCluster_host (s : State) (n : Nat) (v : Cluster) : (s.setCluster n v).host = s.host := rfl
@[simp] theorem State.setCluster_dict (s : State) (n : Nat) (v : Cluster) : (s.setCluster n v).dict = s.dict := rfl
@[simp] theorem State.setCluster_domains (s : State) (n : Nat) (v : Cluster) : (s.setCluster n v).domains = s.domains := rfl

@[simp] theorem State.setPitch_pending (s : State) (p : Nat) (v : Pitch) : (s.setPitch p v).pending = s.pending := rfl
@[simp] theorem State.setPitch_freeCtr (s : State) (p : Nat) (v : Pitch) : (s.setPitch p v).freeCtr = s.freeCtr := rfl
@[simp] theorem State.setPitch_time (s : State) (p : Nat) (v : Pitch) : (s.setPitch p v).time = s.time := rfl
@[simp] theorem State.setPitch_calendar (s : State) (p : Nat) (v : Pitch) : (s.setPitch p v).calendar = s.calendar := rfl
@[simp] theorem State.setPitch_straps (s : State) (p : Nat) (v : Pitch) : (s.setPitch p v).straps = s.straps := rfl
@[simp] theorem State.setPitch_profile (s : State) (p : Nat) (v : Pitch) : (s.setPitch p v).profile = s.profile := rfl
@[simp] theorem State.setPitch_moduleId (s : State) (p : Nat) (v : Pitch) : (s.setPitch p v).moduleId = s.moduleId := rfl
@[simp] theorem State.setPitch_cores (s : State) (p : Nat) (v : Pitch) : (s.setPitch p v).cores = s.cores := rfl
@[simp] theorem State.setPitch_slots (s : State) (p : Nat) (v : Pitch) : (s.setPitch p v).slots = s.slots := rfl
@[simp] theorem State.setPitch_clusters (s : State) (p : Nat) (v : Pitch) : (s.setPitch p v).clusters = s.clusters := rfl
@[simp] theorem State.setPitch_loans (s : State) (p : Nat) (v : Pitch) : (s.setPitch p v).loans = s.loans := rfl
@[simp] theorem State.setPitch_teardownLog (s : State) (p : Nat) (v : Pitch) : (s.setPitch p v).teardownLog = s.teardownLog := rfl
@[simp] theorem State.setPitch_queues (s : State) (p : Nat) (v : Pitch) : (s.setPitch p v).queues = s.queues := rfl
@[simp] theorem State.setPitch_tier (s : State) (p : Nat) (v : Pitch) : (s.setPitch p v).tier = s.tier := rfl
@[simp] theorem State.setPitch_fabric (s : State) (p : Nat) (v : Pitch) : (s.setPitch p v).fabric = s.fabric := rfl
@[simp] theorem State.setPitch_listen (s : State) (p : Nat) (v : Pitch) : (s.setPitch p v).listen = s.listen := rfl
@[simp] theorem State.setPitch_cams (s : State) (p : Nat) (v : Pitch) : (s.setPitch p v).cams = s.cams := rfl
@[simp] theorem State.setPitch_errors (s : State) (p : Nat) (v : Pitch) : (s.setPitch p v).errors = s.errors := rfl
@[simp] theorem State.setPitch_sec (s : State) (p : Nat) (v : Pitch) : (s.setPitch p v).sec = s.sec := rfl
@[simp] theorem State.setPitch_power (s : State) (p : Nat) (v : Pitch) : (s.setPitch p v).power = s.power := rfl
@[simp] theorem State.setPitch_mgmt (s : State) (p : Nat) (v : Pitch) : (s.setPitch p v).mgmt = s.mgmt := rfl
@[simp] theorem State.setPitch_update (s : State) (p : Nat) (v : Pitch) : (s.setPitch p v).update = s.update := rfl
@[simp] theorem State.setPitch_host (s : State) (p : Nat) (v : Pitch) : (s.setPitch p v).host = s.host := rfl
@[simp] theorem State.setPitch_dict (s : State) (p : Nat) (v : Pitch) : (s.setPitch p v).dict = s.dict := rfl
@[simp] theorem State.setPitch_domains (s : State) (p : Nat) (v : Pitch) : (s.setPitch p v).domains = s.domains := rfl

@[simp] theorem State.setQueue_pending (s : State) (q : Nat) (v : Queue) : (s.setQueue q v).pending = s.pending := rfl
@[simp] theorem State.setQueue_freeCtr (s : State) (q : Nat) (v : Queue) : (s.setQueue q v).freeCtr = s.freeCtr := rfl
@[simp] theorem State.setQueue_time (s : State) (q : Nat) (v : Queue) : (s.setQueue q v).time = s.time := rfl
@[simp] theorem State.setQueue_calendar (s : State) (q : Nat) (v : Queue) : (s.setQueue q v).calendar = s.calendar := rfl
@[simp] theorem State.setQueue_straps (s : State) (q : Nat) (v : Queue) : (s.setQueue q v).straps = s.straps := rfl
@[simp] theorem State.setQueue_profile (s : State) (q : Nat) (v : Queue) : (s.setQueue q v).profile = s.profile := rfl
@[simp] theorem State.setQueue_moduleId (s : State) (q : Nat) (v : Queue) : (s.setQueue q v).moduleId = s.moduleId := rfl
@[simp] theorem State.setQueue_cores (s : State) (q : Nat) (v : Queue) : (s.setQueue q v).cores = s.cores := rfl
@[simp] theorem State.setQueue_slots (s : State) (q : Nat) (v : Queue) : (s.setQueue q v).slots = s.slots := rfl
@[simp] theorem State.setQueue_clusters (s : State) (q : Nat) (v : Queue) : (s.setQueue q v).clusters = s.clusters := rfl
@[simp] theorem State.setQueue_pitches (s : State) (q : Nat) (v : Queue) : (s.setQueue q v).pitches = s.pitches := rfl
@[simp] theorem State.setQueue_loans (s : State) (q : Nat) (v : Queue) : (s.setQueue q v).loans = s.loans := rfl
@[simp] theorem State.setQueue_teardownLog (s : State) (q : Nat) (v : Queue) : (s.setQueue q v).teardownLog = s.teardownLog := rfl
@[simp] theorem State.setQueue_tier (s : State) (q : Nat) (v : Queue) : (s.setQueue q v).tier = s.tier := rfl
@[simp] theorem State.setQueue_fabric (s : State) (q : Nat) (v : Queue) : (s.setQueue q v).fabric = s.fabric := rfl
@[simp] theorem State.setQueue_listen (s : State) (q : Nat) (v : Queue) : (s.setQueue q v).listen = s.listen := rfl
@[simp] theorem State.setQueue_cams (s : State) (q : Nat) (v : Queue) : (s.setQueue q v).cams = s.cams := rfl
@[simp] theorem State.setQueue_errors (s : State) (q : Nat) (v : Queue) : (s.setQueue q v).errors = s.errors := rfl
@[simp] theorem State.setQueue_sec (s : State) (q : Nat) (v : Queue) : (s.setQueue q v).sec = s.sec := rfl
@[simp] theorem State.setQueue_power (s : State) (q : Nat) (v : Queue) : (s.setQueue q v).power = s.power := rfl
@[simp] theorem State.setQueue_mgmt (s : State) (q : Nat) (v : Queue) : (s.setQueue q v).mgmt = s.mgmt := rfl
@[simp] theorem State.setQueue_update (s : State) (q : Nat) (v : Queue) : (s.setQueue q v).update = s.update := rfl
@[simp] theorem State.setQueue_host (s : State) (q : Nat) (v : Queue) : (s.setQueue q v).host = s.host := rfl
@[simp] theorem State.setQueue_dict (s : State) (q : Nat) (v : Queue) : (s.setQueue q v).dict = s.dict := rfl
@[simp] theorem State.setQueue_domains (s : State) (q : Nat) (v : Queue) : (s.setQueue q v).domains = s.domains := rfl

@[simp] theorem State.setObj_pending (s : State) (k v : Nat) : (s.setObj k v).pending = s.pending := rfl
@[simp] theorem State.setObj_freeCtr (s : State) (k v : Nat) : (s.setObj k v).freeCtr = s.freeCtr := rfl
@[simp] theorem State.setObj_time (s : State) (k v : Nat) : (s.setObj k v).time = s.time := rfl
@[simp] theorem State.setObj_calendar (s : State) (k v : Nat) : (s.setObj k v).calendar = s.calendar := rfl
@[simp] theorem State.setObj_straps (s : State) (k v : Nat) : (s.setObj k v).straps = s.straps := rfl
@[simp] theorem State.setObj_profile (s : State) (k v : Nat) : (s.setObj k v).profile = s.profile := rfl
@[simp] theorem State.setObj_moduleId (s : State) (k v : Nat) : (s.setObj k v).moduleId = s.moduleId := rfl
@[simp] theorem State.setObj_cores (s : State) (k v : Nat) : (s.setObj k v).cores = s.cores := rfl
@[simp] theorem State.setObj_slots (s : State) (k v : Nat) : (s.setObj k v).slots = s.slots := rfl
@[simp] theorem State.setObj_clusters (s : State) (k v : Nat) : (s.setObj k v).clusters = s.clusters := rfl
@[simp] theorem State.setObj_pitches (s : State) (k v : Nat) : (s.setObj k v).pitches = s.pitches := rfl
@[simp] theorem State.setObj_loans (s : State) (k v : Nat) : (s.setObj k v).loans = s.loans := rfl
@[simp] theorem State.setObj_teardownLog (s : State) (k v : Nat) : (s.setObj k v).teardownLog = s.teardownLog := rfl
@[simp] theorem State.setObj_queues (s : State) (k v : Nat) : (s.setObj k v).queues = s.queues := rfl
@[simp] theorem State.setObj_tier (s : State) (k v : Nat) : (s.setObj k v).tier = s.tier := rfl
@[simp] theorem State.setObj_fabric (s : State) (k v : Nat) : (s.setObj k v).fabric = s.fabric := rfl
@[simp] theorem State.setObj_listen (s : State) (k v : Nat) : (s.setObj k v).listen = s.listen := rfl
@[simp] theorem State.setObj_cams (s : State) (k v : Nat) : (s.setObj k v).cams = s.cams := rfl
@[simp] theorem State.setObj_errors (s : State) (k v : Nat) : (s.setObj k v).errors = s.errors := rfl
@[simp] theorem State.setObj_sec (s : State) (k v : Nat) : (s.setObj k v).sec = s.sec := rfl
@[simp] theorem State.setObj_power (s : State) (k v : Nat) : (s.setObj k v).power = s.power := rfl
@[simp] theorem State.setObj_mgmt (s : State) (k v : Nat) : (s.setObj k v).mgmt = s.mgmt := rfl
@[simp] theorem State.setObj_update (s : State) (k v : Nat) : (s.setObj k v).update = s.update := rfl
@[simp] theorem State.setObj_host (s : State) (k v : Nat) : (s.setObj k v).host = s.host := rfl
@[simp] theorem State.setObj_domains (s : State) (k v : Nat) : (s.setObj k v).domains = s.domains := rfl

@[simp] theorem State.setDomain_pending (s : State) (k : Nat) (v : List Byte) : (s.setDomain k v).pending = s.pending := rfl
@[simp] theorem State.setDomain_freeCtr (s : State) (k : Nat) (v : List Byte) : (s.setDomain k v).freeCtr = s.freeCtr := rfl
@[simp] theorem State.setDomain_time (s : State) (k : Nat) (v : List Byte) : (s.setDomain k v).time = s.time := rfl
@[simp] theorem State.setDomain_calendar (s : State) (k : Nat) (v : List Byte) : (s.setDomain k v).calendar = s.calendar := rfl
@[simp] theorem State.setDomain_straps (s : State) (k : Nat) (v : List Byte) : (s.setDomain k v).straps = s.straps := rfl
@[simp] theorem State.setDomain_profile (s : State) (k : Nat) (v : List Byte) : (s.setDomain k v).profile = s.profile := rfl
@[simp] theorem State.setDomain_moduleId (s : State) (k : Nat) (v : List Byte) : (s.setDomain k v).moduleId = s.moduleId := rfl
@[simp] theorem State.setDomain_cores (s : State) (k : Nat) (v : List Byte) : (s.setDomain k v).cores = s.cores := rfl
@[simp] theorem State.setDomain_slots (s : State) (k : Nat) (v : List Byte) : (s.setDomain k v).slots = s.slots := rfl
@[simp] theorem State.setDomain_clusters (s : State) (k : Nat) (v : List Byte) : (s.setDomain k v).clusters = s.clusters := rfl
@[simp] theorem State.setDomain_pitches (s : State) (k : Nat) (v : List Byte) : (s.setDomain k v).pitches = s.pitches := rfl
@[simp] theorem State.setDomain_loans (s : State) (k : Nat) (v : List Byte) : (s.setDomain k v).loans = s.loans := rfl
@[simp] theorem State.setDomain_teardownLog (s : State) (k : Nat) (v : List Byte) : (s.setDomain k v).teardownLog = s.teardownLog := rfl
@[simp] theorem State.setDomain_queues (s : State) (k : Nat) (v : List Byte) : (s.setDomain k v).queues = s.queues := rfl
@[simp] theorem State.setDomain_tier (s : State) (k : Nat) (v : List Byte) : (s.setDomain k v).tier = s.tier := rfl
@[simp] theorem State.setDomain_fabric (s : State) (k : Nat) (v : List Byte) : (s.setDomain k v).fabric = s.fabric := rfl
@[simp] theorem State.setDomain_listen (s : State) (k : Nat) (v : List Byte) : (s.setDomain k v).listen = s.listen := rfl
@[simp] theorem State.setDomain_cams (s : State) (k : Nat) (v : List Byte) : (s.setDomain k v).cams = s.cams := rfl
@[simp] theorem State.setDomain_errors (s : State) (k : Nat) (v : List Byte) : (s.setDomain k v).errors = s.errors := rfl
@[simp] theorem State.setDomain_sec (s : State) (k : Nat) (v : List Byte) : (s.setDomain k v).sec = s.sec := rfl
@[simp] theorem State.setDomain_power (s : State) (k : Nat) (v : List Byte) : (s.setDomain k v).power = s.power := rfl
@[simp] theorem State.setDomain_mgmt (s : State) (k : Nat) (v : List Byte) : (s.setDomain k v).mgmt = s.mgmt := rfl
@[simp] theorem State.setDomain_update (s : State) (k : Nat) (v : List Byte) : (s.setDomain k v).update = s.update := rfl
@[simp] theorem State.setDomain_host (s : State) (k : Nat) (v : List Byte) : (s.setDomain k v).host = s.host := rfl
@[simp] theorem State.setDomain_dict (s : State) (k : Nat) (v : List Byte) : (s.setDomain k v).dict = s.dict := rfl

@[simp] theorem State.modCore_pending (s : State) (c : Nat) (f : Core → Core) : (s.modCore c f).pending = s.pending := rfl
@[simp] theorem State.modCore_freeCtr (s : State) (c : Nat) (f : Core → Core) : (s.modCore c f).freeCtr = s.freeCtr := rfl
@[simp] theorem State.modCore_time (s : State) (c : Nat) (f : Core → Core) : (s.modCore c f).time = s.time := rfl
@[simp] theorem State.modCore_calendar (s : State) (c : Nat) (f : Core → Core) : (s.modCore c f).calendar = s.calendar := rfl
@[simp] theorem State.modCore_straps (s : State) (c : Nat) (f : Core → Core) : (s.modCore c f).straps = s.straps := rfl
@[simp] theorem State.modCore_profile (s : State) (c : Nat) (f : Core → Core) : (s.modCore c f).profile = s.profile := rfl
@[simp] theorem State.modCore_moduleId (s : State) (c : Nat) (f : Core → Core) : (s.modCore c f).moduleId = s.moduleId := rfl
@[simp] theorem State.modCore_slots (s : State) (c : Nat) (f : Core → Core) : (s.modCore c f).slots = s.slots := rfl
@[simp] theorem State.modCore_clusters (s : State) (c : Nat) (f : Core → Core) : (s.modCore c f).clusters = s.clusters := rfl
@[simp] theorem State.modCore_pitches (s : State) (c : Nat) (f : Core → Core) : (s.modCore c f).pitches = s.pitches := rfl
@[simp] theorem State.modCore_loans (s : State) (c : Nat) (f : Core → Core) : (s.modCore c f).loans = s.loans := rfl
@[simp] theorem State.modCore_teardownLog (s : State) (c : Nat) (f : Core → Core) : (s.modCore c f).teardownLog = s.teardownLog := rfl
@[simp] theorem State.modCore_queues (s : State) (c : Nat) (f : Core → Core) : (s.modCore c f).queues = s.queues := rfl
@[simp] theorem State.modCore_tier (s : State) (c : Nat) (f : Core → Core) : (s.modCore c f).tier = s.tier := rfl
@[simp] theorem State.modCore_fabric (s : State) (c : Nat) (f : Core → Core) : (s.modCore c f).fabric = s.fabric := rfl
@[simp] theorem State.modCore_listen (s : State) (c : Nat) (f : Core → Core) : (s.modCore c f).listen = s.listen := rfl
@[simp] theorem State.modCore_cams (s : State) (c : Nat) (f : Core → Core) : (s.modCore c f).cams = s.cams := rfl
@[simp] theorem State.modCore_errors (s : State) (c : Nat) (f : Core → Core) : (s.modCore c f).errors = s.errors := rfl
@[simp] theorem State.modCore_sec (s : State) (c : Nat) (f : Core → Core) : (s.modCore c f).sec = s.sec := rfl
@[simp] theorem State.modCore_power (s : State) (c : Nat) (f : Core → Core) : (s.modCore c f).power = s.power := rfl
@[simp] theorem State.modCore_mgmt (s : State) (c : Nat) (f : Core → Core) : (s.modCore c f).mgmt = s.mgmt := rfl
@[simp] theorem State.modCore_update (s : State) (c : Nat) (f : Core → Core) : (s.modCore c f).update = s.update := rfl
@[simp] theorem State.modCore_host (s : State) (c : Nat) (f : Core → Core) : (s.modCore c f).host = s.host := rfl
@[simp] theorem State.modCore_dict (s : State) (c : Nat) (f : Core → Core) : (s.modCore c f).dict = s.dict := rfl
@[simp] theorem State.modCore_domains (s : State) (c : Nat) (f : Core → Core) : (s.modCore c f).domains = s.domains := rfl

@[simp] theorem State.modSlot_pending (s : State) (i : Nat) (f : Slot → Slot) : (s.modSlot i f).pending = s.pending := rfl
@[simp] theorem State.modSlot_freeCtr (s : State) (i : Nat) (f : Slot → Slot) : (s.modSlot i f).freeCtr = s.freeCtr := rfl
@[simp] theorem State.modSlot_time (s : State) (i : Nat) (f : Slot → Slot) : (s.modSlot i f).time = s.time := rfl
@[simp] theorem State.modSlot_calendar (s : State) (i : Nat) (f : Slot → Slot) : (s.modSlot i f).calendar = s.calendar := rfl
@[simp] theorem State.modSlot_straps (s : State) (i : Nat) (f : Slot → Slot) : (s.modSlot i f).straps = s.straps := rfl
@[simp] theorem State.modSlot_profile (s : State) (i : Nat) (f : Slot → Slot) : (s.modSlot i f).profile = s.profile := rfl
@[simp] theorem State.modSlot_moduleId (s : State) (i : Nat) (f : Slot → Slot) : (s.modSlot i f).moduleId = s.moduleId := rfl
@[simp] theorem State.modSlot_cores (s : State) (i : Nat) (f : Slot → Slot) : (s.modSlot i f).cores = s.cores := rfl
@[simp] theorem State.modSlot_clusters (s : State) (i : Nat) (f : Slot → Slot) : (s.modSlot i f).clusters = s.clusters := rfl
@[simp] theorem State.modSlot_pitches (s : State) (i : Nat) (f : Slot → Slot) : (s.modSlot i f).pitches = s.pitches := rfl
@[simp] theorem State.modSlot_loans (s : State) (i : Nat) (f : Slot → Slot) : (s.modSlot i f).loans = s.loans := rfl
@[simp] theorem State.modSlot_teardownLog (s : State) (i : Nat) (f : Slot → Slot) : (s.modSlot i f).teardownLog = s.teardownLog := rfl
@[simp] theorem State.modSlot_queues (s : State) (i : Nat) (f : Slot → Slot) : (s.modSlot i f).queues = s.queues := rfl
@[simp] theorem State.modSlot_tier (s : State) (i : Nat) (f : Slot → Slot) : (s.modSlot i f).tier = s.tier := rfl
@[simp] theorem State.modSlot_fabric (s : State) (i : Nat) (f : Slot → Slot) : (s.modSlot i f).fabric = s.fabric := rfl
@[simp] theorem State.modSlot_listen (s : State) (i : Nat) (f : Slot → Slot) : (s.modSlot i f).listen = s.listen := rfl
@[simp] theorem State.modSlot_cams (s : State) (i : Nat) (f : Slot → Slot) : (s.modSlot i f).cams = s.cams := rfl
@[simp] theorem State.modSlot_errors (s : State) (i : Nat) (f : Slot → Slot) : (s.modSlot i f).errors = s.errors := rfl
@[simp] theorem State.modSlot_sec (s : State) (i : Nat) (f : Slot → Slot) : (s.modSlot i f).sec = s.sec := rfl
@[simp] theorem State.modSlot_power (s : State) (i : Nat) (f : Slot → Slot) : (s.modSlot i f).power = s.power := rfl
@[simp] theorem State.modSlot_mgmt (s : State) (i : Nat) (f : Slot → Slot) : (s.modSlot i f).mgmt = s.mgmt := rfl
@[simp] theorem State.modSlot_update (s : State) (i : Nat) (f : Slot → Slot) : (s.modSlot i f).update = s.update := rfl
@[simp] theorem State.modSlot_host (s : State) (i : Nat) (f : Slot → Slot) : (s.modSlot i f).host = s.host := rfl
@[simp] theorem State.modSlot_dict (s : State) (i : Nat) (f : Slot → Slot) : (s.modSlot i f).dict = s.dict := rfl
@[simp] theorem State.modSlot_domains (s : State) (i : Nat) (f : Slot → Slot) : (s.modSlot i f).domains = s.domains := rfl

@[simp] theorem State.modCluster_pending (s : State) (n : Nat) (f : Cluster → Cluster) : (s.modCluster n f).pending = s.pending := rfl
@[simp] theorem State.modCluster_freeCtr (s : State) (n : Nat) (f : Cluster → Cluster) : (s.modCluster n f).freeCtr = s.freeCtr := rfl
@[simp] theorem State.modCluster_time (s : State) (n : Nat) (f : Cluster → Cluster) : (s.modCluster n f).time = s.time := rfl
@[simp] theorem State.modCluster_calendar (s : State) (n : Nat) (f : Cluster → Cluster) : (s.modCluster n f).calendar = s.calendar := rfl
@[simp] theorem State.modCluster_straps (s : State) (n : Nat) (f : Cluster → Cluster) : (s.modCluster n f).straps = s.straps := rfl
@[simp] theorem State.modCluster_profile (s : State) (n : Nat) (f : Cluster → Cluster) : (s.modCluster n f).profile = s.profile := rfl
@[simp] theorem State.modCluster_moduleId (s : State) (n : Nat) (f : Cluster → Cluster) : (s.modCluster n f).moduleId = s.moduleId := rfl
@[simp] theorem State.modCluster_cores (s : State) (n : Nat) (f : Cluster → Cluster) : (s.modCluster n f).cores = s.cores := rfl
@[simp] theorem State.modCluster_slots (s : State) (n : Nat) (f : Cluster → Cluster) : (s.modCluster n f).slots = s.slots := rfl
@[simp] theorem State.modCluster_pitches (s : State) (n : Nat) (f : Cluster → Cluster) : (s.modCluster n f).pitches = s.pitches := rfl
@[simp] theorem State.modCluster_loans (s : State) (n : Nat) (f : Cluster → Cluster) : (s.modCluster n f).loans = s.loans := rfl
@[simp] theorem State.modCluster_teardownLog (s : State) (n : Nat) (f : Cluster → Cluster) : (s.modCluster n f).teardownLog = s.teardownLog := rfl
@[simp] theorem State.modCluster_queues (s : State) (n : Nat) (f : Cluster → Cluster) : (s.modCluster n f).queues = s.queues := rfl
@[simp] theorem State.modCluster_tier (s : State) (n : Nat) (f : Cluster → Cluster) : (s.modCluster n f).tier = s.tier := rfl
@[simp] theorem State.modCluster_fabric (s : State) (n : Nat) (f : Cluster → Cluster) : (s.modCluster n f).fabric = s.fabric := rfl
@[simp] theorem State.modCluster_listen (s : State) (n : Nat) (f : Cluster → Cluster) : (s.modCluster n f).listen = s.listen := rfl
@[simp] theorem State.modCluster_cams (s : State) (n : Nat) (f : Cluster → Cluster) : (s.modCluster n f).cams = s.cams := rfl
@[simp] theorem State.modCluster_errors (s : State) (n : Nat) (f : Cluster → Cluster) : (s.modCluster n f).errors = s.errors := rfl
@[simp] theorem State.modCluster_sec (s : State) (n : Nat) (f : Cluster → Cluster) : (s.modCluster n f).sec = s.sec := rfl
@[simp] theorem State.modCluster_power (s : State) (n : Nat) (f : Cluster → Cluster) : (s.modCluster n f).power = s.power := rfl
@[simp] theorem State.modCluster_mgmt (s : State) (n : Nat) (f : Cluster → Cluster) : (s.modCluster n f).mgmt = s.mgmt := rfl
@[simp] theorem State.modCluster_update (s : State) (n : Nat) (f : Cluster → Cluster) : (s.modCluster n f).update = s.update := rfl
@[simp] theorem State.modCluster_host (s : State) (n : Nat) (f : Cluster → Cluster) : (s.modCluster n f).host = s.host := rfl
@[simp] theorem State.modCluster_dict (s : State) (n : Nat) (f : Cluster → Cluster) : (s.modCluster n f).dict = s.dict := rfl
@[simp] theorem State.modCluster_domains (s : State) (n : Nat) (f : Cluster → Cluster) : (s.modCluster n f).domains = s.domains := rfl

@[simp] theorem State.modPitch_pending (s : State) (p : Nat) (f : Pitch → Pitch) : (s.modPitch p f).pending = s.pending := rfl
@[simp] theorem State.modPitch_freeCtr (s : State) (p : Nat) (f : Pitch → Pitch) : (s.modPitch p f).freeCtr = s.freeCtr := rfl
@[simp] theorem State.modPitch_time (s : State) (p : Nat) (f : Pitch → Pitch) : (s.modPitch p f).time = s.time := rfl
@[simp] theorem State.modPitch_calendar (s : State) (p : Nat) (f : Pitch → Pitch) : (s.modPitch p f).calendar = s.calendar := rfl
@[simp] theorem State.modPitch_straps (s : State) (p : Nat) (f : Pitch → Pitch) : (s.modPitch p f).straps = s.straps := rfl
@[simp] theorem State.modPitch_profile (s : State) (p : Nat) (f : Pitch → Pitch) : (s.modPitch p f).profile = s.profile := rfl
@[simp] theorem State.modPitch_moduleId (s : State) (p : Nat) (f : Pitch → Pitch) : (s.modPitch p f).moduleId = s.moduleId := rfl
@[simp] theorem State.modPitch_cores (s : State) (p : Nat) (f : Pitch → Pitch) : (s.modPitch p f).cores = s.cores := rfl
@[simp] theorem State.modPitch_slots (s : State) (p : Nat) (f : Pitch → Pitch) : (s.modPitch p f).slots = s.slots := rfl
@[simp] theorem State.modPitch_clusters (s : State) (p : Nat) (f : Pitch → Pitch) : (s.modPitch p f).clusters = s.clusters := rfl
@[simp] theorem State.modPitch_loans (s : State) (p : Nat) (f : Pitch → Pitch) : (s.modPitch p f).loans = s.loans := rfl
@[simp] theorem State.modPitch_teardownLog (s : State) (p : Nat) (f : Pitch → Pitch) : (s.modPitch p f).teardownLog = s.teardownLog := rfl
@[simp] theorem State.modPitch_queues (s : State) (p : Nat) (f : Pitch → Pitch) : (s.modPitch p f).queues = s.queues := rfl
@[simp] theorem State.modPitch_tier (s : State) (p : Nat) (f : Pitch → Pitch) : (s.modPitch p f).tier = s.tier := rfl
@[simp] theorem State.modPitch_fabric (s : State) (p : Nat) (f : Pitch → Pitch) : (s.modPitch p f).fabric = s.fabric := rfl
@[simp] theorem State.modPitch_listen (s : State) (p : Nat) (f : Pitch → Pitch) : (s.modPitch p f).listen = s.listen := rfl
@[simp] theorem State.modPitch_cams (s : State) (p : Nat) (f : Pitch → Pitch) : (s.modPitch p f).cams = s.cams := rfl
@[simp] theorem State.modPitch_errors (s : State) (p : Nat) (f : Pitch → Pitch) : (s.modPitch p f).errors = s.errors := rfl
@[simp] theorem State.modPitch_sec (s : State) (p : Nat) (f : Pitch → Pitch) : (s.modPitch p f).sec = s.sec := rfl
@[simp] theorem State.modPitch_power (s : State) (p : Nat) (f : Pitch → Pitch) : (s.modPitch p f).power = s.power := rfl
@[simp] theorem State.modPitch_mgmt (s : State) (p : Nat) (f : Pitch → Pitch) : (s.modPitch p f).mgmt = s.mgmt := rfl
@[simp] theorem State.modPitch_update (s : State) (p : Nat) (f : Pitch → Pitch) : (s.modPitch p f).update = s.update := rfl
@[simp] theorem State.modPitch_host (s : State) (p : Nat) (f : Pitch → Pitch) : (s.modPitch p f).host = s.host := rfl
@[simp] theorem State.modPitch_dict (s : State) (p : Nat) (f : Pitch → Pitch) : (s.modPitch p f).dict = s.dict := rfl
@[simp] theorem State.modPitch_domains (s : State) (p : Nat) (f : Pitch → Pitch) : (s.modPitch p f).domains = s.domains := rfl

@[simp] theorem State.modQueue_pending (s : State) (q : Nat) (f : Queue → Queue) : (s.modQueue q f).pending = s.pending := rfl
@[simp] theorem State.modQueue_freeCtr (s : State) (q : Nat) (f : Queue → Queue) : (s.modQueue q f).freeCtr = s.freeCtr := rfl
@[simp] theorem State.modQueue_time (s : State) (q : Nat) (f : Queue → Queue) : (s.modQueue q f).time = s.time := rfl
@[simp] theorem State.modQueue_calendar (s : State) (q : Nat) (f : Queue → Queue) : (s.modQueue q f).calendar = s.calendar := rfl
@[simp] theorem State.modQueue_straps (s : State) (q : Nat) (f : Queue → Queue) : (s.modQueue q f).straps = s.straps := rfl
@[simp] theorem State.modQueue_profile (s : State) (q : Nat) (f : Queue → Queue) : (s.modQueue q f).profile = s.profile := rfl
@[simp] theorem State.modQueue_moduleId (s : State) (q : Nat) (f : Queue → Queue) : (s.modQueue q f).moduleId = s.moduleId := rfl
@[simp] theorem State.modQueue_cores (s : State) (q : Nat) (f : Queue → Queue) : (s.modQueue q f).cores = s.cores := rfl
@[simp] theorem State.modQueue_slots (s : State) (q : Nat) (f : Queue → Queue) : (s.modQueue q f).slots = s.slots := rfl
@[simp] theorem State.modQueue_clusters (s : State) (q : Nat) (f : Queue → Queue) : (s.modQueue q f).clusters = s.clusters := rfl
@[simp] theorem State.modQueue_pitches (s : State) (q : Nat) (f : Queue → Queue) : (s.modQueue q f).pitches = s.pitches := rfl
@[simp] theorem State.modQueue_loans (s : State) (q : Nat) (f : Queue → Queue) : (s.modQueue q f).loans = s.loans := rfl
@[simp] theorem State.modQueue_teardownLog (s : State) (q : Nat) (f : Queue → Queue) : (s.modQueue q f).teardownLog = s.teardownLog := rfl
@[simp] theorem State.modQueue_tier (s : State) (q : Nat) (f : Queue → Queue) : (s.modQueue q f).tier = s.tier := rfl
@[simp] theorem State.modQueue_fabric (s : State) (q : Nat) (f : Queue → Queue) : (s.modQueue q f).fabric = s.fabric := rfl
@[simp] theorem State.modQueue_listen (s : State) (q : Nat) (f : Queue → Queue) : (s.modQueue q f).listen = s.listen := rfl
@[simp] theorem State.modQueue_cams (s : State) (q : Nat) (f : Queue → Queue) : (s.modQueue q f).cams = s.cams := rfl
@[simp] theorem State.modQueue_errors (s : State) (q : Nat) (f : Queue → Queue) : (s.modQueue q f).errors = s.errors := rfl
@[simp] theorem State.modQueue_sec (s : State) (q : Nat) (f : Queue → Queue) : (s.modQueue q f).sec = s.sec := rfl
@[simp] theorem State.modQueue_power (s : State) (q : Nat) (f : Queue → Queue) : (s.modQueue q f).power = s.power := rfl
@[simp] theorem State.modQueue_mgmt (s : State) (q : Nat) (f : Queue → Queue) : (s.modQueue q f).mgmt = s.mgmt := rfl
@[simp] theorem State.modQueue_update (s : State) (q : Nat) (f : Queue → Queue) : (s.modQueue q f).update = s.update := rfl
@[simp] theorem State.modQueue_host (s : State) (q : Nat) (f : Queue → Queue) : (s.modQueue q f).host = s.host := rfl
@[simp] theorem State.modQueue_dict (s : State) (q : Nat) (f : Queue → Queue) : (s.modQueue q f).dict = s.dict := rfl
@[simp] theorem State.modQueue_domains (s : State) (q : Nat) (f : Queue → Queue) : (s.modQueue q f).domains = s.domains := rfl

/-! ### Reading after writing -/

@[simp] theorem State.setCore_core_same (s : State) (k : Nat) (v : Core) : (s.setCore k v).core k = v := by
  simp [State.core, State.setCore]
@[simp] theorem State.setCore_core_other (s : State) (k j : Nat) (v : Core) (h : j ≠ k) : (s.setCore k v).core j = s.core j := by
  simp [State.core, State.setCore, h]
@[simp] theorem State.modCore_core_same (s : State) (k : Nat) (f : Core → Core) : (s.modCore k f).core k = f (s.core k) := by
  simp [State.modCore]
@[simp] theorem State.modCore_core_other (s : State) (k j : Nat) (f : Core → Core) (h : j ≠ k) : (s.modCore k f).core j = s.core j := by
  simp [State.modCore, h]
@[simp] theorem State.setCore_slot (s : State) (k j : Nat) (v : Core) : (s.setCore k v).slot j = s.slot j := rfl
@[simp] theorem State.modCore_slot (s : State) (k j : Nat) (f : Core → Core) : (s.modCore k f).slot j = s.slot j := rfl
@[simp] theorem State.setCore_cluster (s : State) (k j : Nat) (v : Core) : (s.setCore k v).cluster j = s.cluster j := rfl
@[simp] theorem State.modCore_cluster (s : State) (k j : Nat) (f : Core → Core) : (s.modCore k f).cluster j = s.cluster j := rfl
@[simp] theorem State.setCore_pitch (s : State) (k j : Nat) (v : Core) : (s.setCore k v).pitch j = s.pitch j := rfl
@[simp] theorem State.modCore_pitch (s : State) (k j : Nat) (f : Core → Core) : (s.modCore k f).pitch j = s.pitch j := rfl
@[simp] theorem State.setCore_queue (s : State) (k j : Nat) (v : Core) : (s.setCore k v).queue j = s.queue j := rfl
@[simp] theorem State.modCore_queue (s : State) (k j : Nat) (f : Core → Core) : (s.modCore k f).queue j = s.queue j := rfl
@[simp] theorem State.setCore_obj (s : State) (k key : Nat) (v : Core) : (s.setCore k v).obj key = s.obj key := rfl
@[simp] theorem State.modCore_obj (s : State) (k key : Nat) (f : Core → Core) : (s.modCore k f).obj key = s.obj key := rfl
@[simp] theorem State.setObj_core (s : State) (key v j : Nat) : (s.setObj key v).core j = s.core j := rfl
@[simp] theorem State.bump_core (s : State) (key n j : Nat) : (s.bump key n).core j = s.core j := rfl

@[simp] theorem State.setSlot_slot_same (s : State) (k : Nat) (v : Slot) : (s.setSlot k v).slot k = v := by
  simp [State.slot, State.setSlot]
@[simp] theorem State.setSlot_slot_other (s : State) (k j : Nat) (v : Slot) (h : j ≠ k) : (s.setSlot k v).slot j = s.slot j := by
  simp [State.slot, State.setSlot, h]
@[simp] theorem State.modSlot_slot_same (s : State) (k : Nat) (f : Slot → Slot) : (s.modSlot k f).slot k = f (s.slot k) := by
  simp [State.modSlot]
@[simp] theorem State.modSlot_slot_other (s : State) (k j : Nat) (f : Slot → Slot) (h : j ≠ k) : (s.modSlot k f).slot j = s.slot j := by
  simp [State.modSlot, h]
@[simp] theorem State.setSlot_core (s : State) (k j : Nat) (v : Slot) : (s.setSlot k v).core j = s.core j := rfl
@[simp] theorem State.modSlot_core (s : State) (k j : Nat) (f : Slot → Slot) : (s.modSlot k f).core j = s.core j := rfl
@[simp] theorem State.setSlot_cluster (s : State) (k j : Nat) (v : Slot) : (s.setSlot k v).cluster j = s.cluster j := rfl
@[simp] theorem State.modSlot_cluster (s : State) (k j : Nat) (f : Slot → Slot) : (s.modSlot k f).cluster j = s.cluster j := rfl
@[simp] theorem State.setSlot_pitch (s : State) (k j : Nat) (v : Slot) : (s.setSlot k v).pitch j = s.pitch j := rfl
@[simp] theorem State.modSlot_pitch (s : State) (k j : Nat) (f : Slot → Slot) : (s.modSlot k f).pitch j = s.pitch j := rfl
@[simp] theorem State.setSlot_queue (s : State) (k j : Nat) (v : Slot) : (s.setSlot k v).queue j = s.queue j := rfl
@[simp] theorem State.modSlot_queue (s : State) (k j : Nat) (f : Slot → Slot) : (s.modSlot k f).queue j = s.queue j := rfl
@[simp] theorem State.setSlot_obj (s : State) (k key : Nat) (v : Slot) : (s.setSlot k v).obj key = s.obj key := rfl
@[simp] theorem State.modSlot_obj (s : State) (k key : Nat) (f : Slot → Slot) : (s.modSlot k f).obj key = s.obj key := rfl
@[simp] theorem State.setObj_slot (s : State) (key v j : Nat) : (s.setObj key v).slot j = s.slot j := rfl
@[simp] theorem State.bump_slot (s : State) (key n j : Nat) : (s.bump key n).slot j = s.slot j := rfl

@[simp] theorem State.setCluster_cluster_same (s : State) (k : Nat) (v : Cluster) : (s.setCluster k v).cluster k = v := by
  simp [State.cluster, State.setCluster]
@[simp] theorem State.setCluster_cluster_other (s : State) (k j : Nat) (v : Cluster) (h : j ≠ k) : (s.setCluster k v).cluster j = s.cluster j := by
  simp [State.cluster, State.setCluster, h]
@[simp] theorem State.modCluster_cluster_same (s : State) (k : Nat) (f : Cluster → Cluster) : (s.modCluster k f).cluster k = f (s.cluster k) := by
  simp [State.modCluster]
@[simp] theorem State.modCluster_cluster_other (s : State) (k j : Nat) (f : Cluster → Cluster) (h : j ≠ k) : (s.modCluster k f).cluster j = s.cluster j := by
  simp [State.modCluster, h]
@[simp] theorem State.setCluster_core (s : State) (k j : Nat) (v : Cluster) : (s.setCluster k v).core j = s.core j := rfl
@[simp] theorem State.modCluster_core (s : State) (k j : Nat) (f : Cluster → Cluster) : (s.modCluster k f).core j = s.core j := rfl
@[simp] theorem State.setCluster_slot (s : State) (k j : Nat) (v : Cluster) : (s.setCluster k v).slot j = s.slot j := rfl
@[simp] theorem State.modCluster_slot (s : State) (k j : Nat) (f : Cluster → Cluster) : (s.modCluster k f).slot j = s.slot j := rfl
@[simp] theorem State.setCluster_pitch (s : State) (k j : Nat) (v : Cluster) : (s.setCluster k v).pitch j = s.pitch j := rfl
@[simp] theorem State.modCluster_pitch (s : State) (k j : Nat) (f : Cluster → Cluster) : (s.modCluster k f).pitch j = s.pitch j := rfl
@[simp] theorem State.setCluster_queue (s : State) (k j : Nat) (v : Cluster) : (s.setCluster k v).queue j = s.queue j := rfl
@[simp] theorem State.modCluster_queue (s : State) (k j : Nat) (f : Cluster → Cluster) : (s.modCluster k f).queue j = s.queue j := rfl
@[simp] theorem State.setCluster_obj (s : State) (k key : Nat) (v : Cluster) : (s.setCluster k v).obj key = s.obj key := rfl
@[simp] theorem State.modCluster_obj (s : State) (k key : Nat) (f : Cluster → Cluster) : (s.modCluster k f).obj key = s.obj key := rfl
@[simp] theorem State.setObj_cluster (s : State) (key v j : Nat) : (s.setObj key v).cluster j = s.cluster j := rfl
@[simp] theorem State.bump_cluster (s : State) (key n j : Nat) : (s.bump key n).cluster j = s.cluster j := rfl

@[simp] theorem State.setPitch_pitch_same (s : State) (k : Nat) (v : Pitch) : (s.setPitch k v).pitch k = v := by
  simp [State.pitch, State.setPitch]
@[simp] theorem State.setPitch_pitch_other (s : State) (k j : Nat) (v : Pitch) (h : j ≠ k) : (s.setPitch k v).pitch j = s.pitch j := by
  simp [State.pitch, State.setPitch, h]
@[simp] theorem State.modPitch_pitch_same (s : State) (k : Nat) (f : Pitch → Pitch) : (s.modPitch k f).pitch k = f (s.pitch k) := by
  simp [State.modPitch]
@[simp] theorem State.modPitch_pitch_other (s : State) (k j : Nat) (f : Pitch → Pitch) (h : j ≠ k) : (s.modPitch k f).pitch j = s.pitch j := by
  simp [State.modPitch, h]
@[simp] theorem State.setPitch_core (s : State) (k j : Nat) (v : Pitch) : (s.setPitch k v).core j = s.core j := rfl
@[simp] theorem State.modPitch_core (s : State) (k j : Nat) (f : Pitch → Pitch) : (s.modPitch k f).core j = s.core j := rfl
@[simp] theorem State.setPitch_slot (s : State) (k j : Nat) (v : Pitch) : (s.setPitch k v).slot j = s.slot j := rfl
@[simp] theorem State.modPitch_slot (s : State) (k j : Nat) (f : Pitch → Pitch) : (s.modPitch k f).slot j = s.slot j := rfl
@[simp] theorem State.setPitch_cluster (s : State) (k j : Nat) (v : Pitch) : (s.setPitch k v).cluster j = s.cluster j := rfl
@[simp] theorem State.modPitch_cluster (s : State) (k j : Nat) (f : Pitch → Pitch) : (s.modPitch k f).cluster j = s.cluster j := rfl
@[simp] theorem State.setPitch_queue (s : State) (k j : Nat) (v : Pitch) : (s.setPitch k v).queue j = s.queue j := rfl
@[simp] theorem State.modPitch_queue (s : State) (k j : Nat) (f : Pitch → Pitch) : (s.modPitch k f).queue j = s.queue j := rfl
@[simp] theorem State.setPitch_obj (s : State) (k key : Nat) (v : Pitch) : (s.setPitch k v).obj key = s.obj key := rfl
@[simp] theorem State.modPitch_obj (s : State) (k key : Nat) (f : Pitch → Pitch) : (s.modPitch k f).obj key = s.obj key := rfl
@[simp] theorem State.setObj_pitch (s : State) (key v j : Nat) : (s.setObj key v).pitch j = s.pitch j := rfl
@[simp] theorem State.bump_pitch (s : State) (key n j : Nat) : (s.bump key n).pitch j = s.pitch j := rfl

@[simp] theorem State.setQueue_queue_same (s : State) (k : Nat) (v : Queue) : (s.setQueue k v).queue k = v := by
  simp [State.queue, State.setQueue]
@[simp] theorem State.setQueue_queue_other (s : State) (k j : Nat) (v : Queue) (h : j ≠ k) : (s.setQueue k v).queue j = s.queue j := by
  simp [State.queue, State.setQueue, h]
@[simp] theorem State.modQueue_queue_same (s : State) (k : Nat) (f : Queue → Queue) : (s.modQueue k f).queue k = f (s.queue k) := by
  simp [State.modQueue]
@[simp] theorem State.modQueue_queue_other (s : State) (k j : Nat) (f : Queue → Queue) (h : j ≠ k) : (s.modQueue k f).queue j = s.queue j := by
  simp [State.modQueue, h]
@[simp] theorem State.setQueue_core (s : State) (k j : Nat) (v : Queue) : (s.setQueue k v).core j = s.core j := rfl
@[simp] theorem State.modQueue_core (s : State) (k j : Nat) (f : Queue → Queue) : (s.modQueue k f).core j = s.core j := rfl
@[simp] theorem State.setQueue_slot (s : State) (k j : Nat) (v : Queue) : (s.setQueue k v).slot j = s.slot j := rfl
@[simp] theorem State.modQueue_slot (s : State) (k j : Nat) (f : Queue → Queue) : (s.modQueue k f).slot j = s.slot j := rfl
@[simp] theorem State.setQueue_cluster (s : State) (k j : Nat) (v : Queue) : (s.setQueue k v).cluster j = s.cluster j := rfl
@[simp] theorem State.modQueue_cluster (s : State) (k j : Nat) (f : Queue → Queue) : (s.modQueue k f).cluster j = s.cluster j := rfl
@[simp] theorem State.setQueue_pitch (s : State) (k j : Nat) (v : Queue) : (s.setQueue k v).pitch j = s.pitch j := rfl
@[simp] theorem State.modQueue_pitch (s : State) (k j : Nat) (f : Queue → Queue) : (s.modQueue k f).pitch j = s.pitch j := rfl
@[simp] theorem State.setQueue_obj (s : State) (k key : Nat) (v : Queue) : (s.setQueue k v).obj key = s.obj key := rfl
@[simp] theorem State.modQueue_obj (s : State) (k key : Nat) (f : Queue → Queue) : (s.modQueue k f).obj key = s.obj key := rfl
@[simp] theorem State.setObj_queue (s : State) (key v j : Nat) : (s.setObj key v).queue j = s.queue j := rfl
@[simp] theorem State.bump_queue (s : State) (key n j : Nat) : (s.bump key n).queue j = s.queue j := rfl

@[simp] theorem State.setObj_obj_same (s : State) (key v : Nat) : (s.setObj key v).obj key = v := by
  simp [State.obj, State.setObj]
@[simp] theorem State.setObj_obj_other (s : State) (key v k : Nat) (h : k ≠ key) : (s.setObj key v).obj k = s.obj k := by
  simp [State.obj, State.setObj, h]

/-! ### Pegs and the move to the next command -/

@[simp] theorem State.setPeg_peg_same (s : State) (n k : Nat) (v : Peg) : (s.setPeg n k v).peg n k = v := by
  simp [State.setPeg, State.peg]
@[simp] theorem State.setPeg_peg_other (s : State) (n k j : Nat) (v : Peg) (h : j ≠ k) : (s.setPeg n k v).peg n j = s.peg n j := by
  simp [State.setPeg, State.peg, h]
@[simp] theorem State.setPeg_waiters (s : State) (n k : Nat) (v : Peg) : ((s.setPeg n k v).cluster n).waiters = (s.cluster n).waiters := by
  simp [State.setPeg]

end Sys2Proof.Machine
end

