-- ==== Sys2Proof/Tests/Slice0.lean ====
section
/-! SUPPORT. The model's own tests: for each statement a small state and operands that meet its hypotheses, the terms that
well-formedness refuses, and steps whose expected results come from the spec's tables and examples. -/

namespace Sys2Proof.Tests

set_option Elab.async false

open Sys2Proof.Machine

/-! ### Small states -/

/-- Slot 0 of core 0 of cluster 0. -/
def u0 : SlotRef := { cluster := 0, core := 0, slot := 0 }

/-- Bits [119:0] of a command: flags [119:112], OPND_KIND, OPND and ARGS (R117). -/
def word (flags kind opnd args : Nat) : CmdWord :=
  BitVec.ofNat 120 (flags * 2 ^ 112 + kind * 2 ^ 110 + opnd * 2 ^ 96 + args)

/-- The record of a pitch with a 64 KiB share in cluster 0 at 64 KiB, 16 pegs from 0 of which 4 are lock pegs, transfer lines 0 to 15
and fabric lines 192 to 195 (R453). -/
def record0 : List Byte := natLe 16 (1 * 2 ^ 32)
  ++ natLe 16 (1 + 2 ^ 16 + 16 * 2 ^ 42 + 4 * 2 ^ 53 + 16 * 2 ^ 103 + 4 * 2 ^ 116) ++ List.replicate 96 0

/-- One running pitch, pitch 0, with one ACTIVE slot; cluster 0 runs; the journal is replayed. -/
def demo : State := { State.reset with
  clusters := [(0, { gated := false })]
  tier := { State.reset.tier with journalReplayed := true }
  pitches := [(0, { st := .running, record := record0, slots := [0] })]
  slots := [(0, { st := .active, pitch := 0, streamPtr := 65536 })] }

/-- The same with a value in peg 5. -/
def demoPeg : State := demo.setPeg 0 5 { value := 3 }

/-! ### The queue, the clock and reset -/

theorem witness_EmptyQueueTicks :
    (demo.pending = [] ∧ demo.timeRuns = true ∧ ({ demo with slots := [] } : State).quiet = true ∧ demo.mgmt.slewTo = 0 ∧
      (demo.time + 4) / 1000000000 = demo.time / 1000000000) ∧
    (({ demo with power := { demo.power with st := .stowed } } : State).pending = [] ∧
      ({ demo with power := { demo.power with st := .stowed } } : State).power.st = .stowed) := by decide +kernel
/-- R45, R482: a tick of 4 ns, seen by the watchdog of a slot that waits. -/
theorem test_tick : (nextOf (step (demo.modSlot 0 (fun x => { x with st := .waiting, hold := .event 5 })))).map (fun t => (t.time, (t.slot 0).watchRun))
    = some (4, 4) := by decide +kernel
theorem witness_StepConsumesFront : nextOf (step { demo with pending := [.lineArbitration, .heartbeatSend] }) ≠ none := by
  decide +kernel
theorem witness_StepKeepsQueueWellFormed :
    ({ demo with pending := [.quotaStallTimeout 31, .lineArbitration] } : State).queueWf = true := by decide
theorem test_wf_refuses_long_packet : Instr.wf (.write { kind := .write, len := 4097 }) = false := by decide

/-! ### Control commands -/

theorem witness_SkippedCommandsDoNothing : slotCommands.all (fun e => demo.skips u0 (word 0x08 0 0 0) e.1) = true ∧
    slotCommands.length = 63 := by decide +kernel

theorem witness_ControlCommandsComplete :
    demo.controlReady u0 (word 0 0 0 0) 0x00 [0] [] = true ∧
    (demoPeg.controlReady u0 (word 0 2 5 3) 0x01 [2] [(15, 0)] = true ∧ (demoPeg.fetched u0 (word 0 2 5 3) 0x01).pegHere u0 (word 0 2 5 3) = true ∧
      3 ≤ (demoPeg.fetched u0 (word 0 2 5 3) 0x01).namedPeg (word 0 2 5 3)) ∧
    (demo.controlReady u0 (word 0 1 15 0) 0x02 [1] [] = true ∧ (demo.fetched u0 (word 0 1 15 0) 0x02).mayRaise 0 0 15 = true) ∧
    (demo.controlReady u0 (word 0 2 15 0) 0x03 [2] [(15, 0)] = true ∧ (demo.fetched u0 (word 0 2 15 0) 0x03).pegHere u0 (word 0 2 15 0) = true) ∧
    (demoPeg.controlReady u0 (word 0 2 5 3) 0x03 [2] [(15, 0)] = true ∧ (demoPeg.fetched u0 (word 0 2 5 3) 0x03).takeReady 0 5 0 3 = true) ∧
    (demo.controlReady u0 (word 0 2 15 65535) 0x04 [2] [(15, 0)] = true ∧ (demo.fetched u0 (word 0 2 15 65535) 0x04).mayUsePeg 0 15 = true ∧
      (demo.fetched u0 (word 0 2 15 65535) 0x04).up 48 = true) ∧
    demo.controlReady u0 (word 0 0 0 1) 0x05 [0] [(1, 0)] = true ∧ demo.controlReady u0 (word 0 0 0 2) 0x05 [0] [(1, 0)] = true ∧
    demo.controlReady u0 (word 0 0 0 31) 0x08 [0] [(3, 0), (4, 4)] = true ∧
    (demo.modSlot 0 (fun x => { x with pending := [(255, 1)] })).controlReady u0 (word 0 1 255 0) 0x09 [1] [] = true ∧
    (demo.controlReady u0 (word 0 2 15 0) 0x0F [0, 1, 2] [] = true ∧ demo.opndAllowed 0 (word 0 2 15 0).toNat = true) := by
  decide +kernel

theorem witness_LoopAndBranchComplete :
    demo.controlReady u0 (word 0 0 0 (32 * 2 ^ 16 + 3 * 2 ^ 22)) 0x06 [0] [(15, 0), (21, 16), (23, 22)] = true ∧
    demo.controlReady u0 (word 0 0 0 (65535 + 1 * 2 ^ 16)) 0x06 [0] [(15, 0), (21, 16), (23, 22)] = true ∧
    demo.controlReady u0 (word 0 0 0 4095) 0x07 [0] [(23, 0)] = true ∧ ((demo.pitch 0).share 0) = (65536, 65536) ∧
    (65536 : Int) + 16 * signed 24 4095 + 16 = 131072 := by decide +kernel

theorem witness_LoopsCountTheirPasses : ((Vector.replicate 4 (0 : Half))[3]?.getD 0).toNat + 1 < 2 ∧
    1 ≤ ((Vector.replicate 4 (0 : Half))[0]?.getD 0).toNat + 1 := by decide

theorem witness_RegisterCommandsComplete :
    demo.controlReady u0 (word 0 0 0 (31 * 2 ^ 32 + 4294967295)) 0x0A [0] [(31, 0), (36, 32)] = true ∧
    demo.controlReady u0 (word 0 0 0 (31 * 2 ^ 32 + 4294967295)) 0x0B [0] [(31, 0), (36, 32)] = true ∧
    demo.controlReady u0 (word 0 0 0 (7 * 2 ^ 37 + 5 * 2 ^ 40)) 0x0C [0] [(31, 0), (36, 32), (39, 37), (42, 40)] = true ∧
    compareRegs 5 0 0 = some true ∧
    [0xFC, 0x40, 0x0C].all (fun o => demo.controlReady u0 (word 0 0 0 (o * 2 ^ 40)) 0x0D [0] [(36, 32), (47, 40)]) = true ∧
    demo.controlReady u0 (word 0 0 0 (0xFC * 2 ^ 40)) 0x0E [0] [(36, 32), (47, 40)] = true ∧ slotWritable 0xFC = true := by
  decide +kernel

theorem witness_ScalarWritesFrame :
    [0x0A, 0x0B].all (fun o => demo.controlReady u0 (word 0 0 0 (31 * 2 ^ 32 + 5)) o [0] [(31, 0), (36, 32)]) = true := by decide +kernel

theorem witness_PsetComparisons :
    demo.controlReady u0 (word 0 0 0 0) 0x0C [0] [(31, 0), (36, 32), (39, 37), (42, 40)] = true ∧
    demo.controlReady u0 (word 0 0 0 (2 ^ 37 + 6 * 2 ^ 40)) 0x0C [0] [(31, 0), (36, 32), (39, 37), (42, 40)] = true ∧
    demo.controlReady u0 (word 0 0 0 (2 ^ 37 + 7 * 2 ^ 40)) 0x0C [0] [(31, 0), (36, 32), (39, 37), (42, 40)] = true := by decide +kernel

/-- `demo` with 16 pegs in cluster 1 too, whose island is down. -/
def farPegs : State := { demo with
  pitches := [(0, { demo.pitch 0 with record := record0.take 32 ++ natLe 16 (16 * 2 ^ 42) ++ List.replicate 80 0 })]
  errors := { demo.errors with islandsDown := [49] } }

theorem witness_UnmetConditionsHoldTheSlot :
    (demoPeg.controlReady u0 (word 0 2 5 4) 0x01 [2] [(15, 0)] = true ∧ (demoPeg.fetched u0 (word 0 2 5 4) 0x01).pegHere u0 (word 0 2 5 4) = true ∧
      (demoPeg.fetched u0 (word 0 2 5 4) 0x01).namedPeg (word 0 2 5 4) < 4) ∧
    (demoPeg.controlReady u0 (word 0 2 5 4) 0x03 [2] [(15, 0)] = true ∧ (demoPeg.fetched u0 (word 0 2 5 4) 0x03).takeReady 0 5 0 4 = false) ∧
    (demo.controlReady u0 (word 0 1 255 0) 0x09 [1] [] = true ∧ tabGet ((demo.fetched u0 (word 0 1 255 0) 0x09).slot 0).pending 255 0 = 0) ∧
    (farPegs.controlReady u0 (word 0 2 1039 3) 0x04 [2] [(15, 0)] = true ∧
      (farPegs.fetched u0 (word 0 2 1039 3) 0x04).mayUsePeg 0 1039 = true ∧ (farPegs.fetched u0 (word 0 2 1039 3) 0x04).up 49 = false) ∧
    ((demo.modSlot 0 (fun x => { x with st := .waiting })).slot 0).st = .waiting := by decide +kernel

theorem witness_GivesStopAtTheTop : 5 < 6144 ∧ (demoPeg.cluster 0).waiters.all (fun v => v.peg != 5) = true := by decide +kernel
theorem witness_TakesSubtract : demoPeg.takeReady 0 5 0 3 = true := by decide +kernel
theorem witness_PendingCountersStop : tabGet ([(7, 254)] : Tab Nat) 7 0 < 255 ∧ 255 ≤ tabGet ([(7, 255)] : Tab Nat) 7 0 := by decide

/-! ### Engine commands: a descriptor for each row that its work takes -/

/-- A descriptor from the values of its fields, each with its lowest bit. -/
def desc (fs : List (Nat × Nat)) : Nat := fs.foldl (fun n f => n + f.2 * 2 ^ f.1) 0

/-- The commands that name a 64 B and a 128 B descriptor at offset 0. -/
def d64 : CmdWord := word 0x80 0 0 0
def d128 : CmdWord := word 0xC0 0 0 0

/-- The state `demo` with a 4 MiB scratchpad share, 128 accumulator tiles, credit for class 0, and a descriptor of `bytes` bytes at
offset 0. -/
def prog (bytes d : Nat) : State := { demo with
  slots := [(0, { st := .active, pitch := 0, streamPtr := 65536, spSizeM1 := 15, accSizeM1 := 127 })]
  pitches := [(0, { st := .running, record := natLe 16 (1 * 2 ^ 32 + 100 * 2 ^ 80) ++ record0.drop 16, slots := [0] })]
  cores := [(0, { scratch := cellsOf 0 (natLe bytes d) })] }

/-- The command is ready, its descriptor is its row's, and its work ends well. -/
def runs (s : State) (w : CmdWord) (op : Nat) (form : Form) (engines : Nat → List Engine × Bool) (work : State → Nat → Nat → Work)
    (mine : Nat → Bool := fun _ => true) : Bool :=
  match s.engineReady u0 w op form engines with
  | none => false
  | some (d, _, _, s1) => mine d && (work s1 0 d).err.isNone && (work s1 0 d).stall.isNone

/-- The bf16 format of an operand word. -/
def bf : Nat := 5 * 2 ^ 27

/-- A vector descriptor of one element with n sources. -/
def vecDesc (n : Nat) : Nat := desc ([(0, 64), (32, 4), (224, 256), (256, 4), (288, 1), (301, 1)]
  ++ (if 2 ≤ n then [(96, 128), (128, 4)] else []) ++ (if 3 ≤ n then [(160, 192), (192, 4)] else []))

/-- The geometry of a window of one tap over an image of one pixel. -/
def geo : List (Nat × Nat) := [(256, 4096), (288, 64), (64, 64), (136, 1), (128, 1)]

/-- A pitch with an extent, a KV layout of one head of 128 elements and one index layer, and a sequence of one token whose page is
gone. -/
def kvState (bytes d : Nat) : State := { prog bytes d with
  pitches := [(0, { (prog bytes d).pitch 0 with
    extents := [{ number := 0, base := 0, length := 1048576, maxLog2 := 9, minLog2 := 0, initTier := 1 }]
    layouts := [{ number := 0, record := natLe 32 (1 * 2 ^ 56 + 3 * 2 ^ 49 + 1 * 2 ^ 64) }]
    seqs := [{ layout := 0, number := 0, lens := [(0, 1)], spans := [{ first := 0, count := 16 }] }] })]
  sec := { State.reset.sec with keys := [(0, { st := .write, epoch := 0, tenant := 0 })] } }

/-- A group, and a bound handle. -/
def groupState (bytes d : Nat) : State := { prog bytes d with
  fabric := { (prog bytes d).fabric with groups := [(0, { st := 1 })] } }
def handleState (bytes d : Nat) : State := { prog bytes d with
  tier := { (prog bytes d).tier with handles := [(0, { st := .bound, pitch := 0, vectors := 1, elems := 32 })] } }

/-- `demo` within a loop of one command, and with a word at its position in cluster 0's SRAM. -/
def looped : State := demo.modSlot 0 (fun x => { x with loops := [{ lc := 0, start := 65536, body := 1, count := 2 }] })
def streamed (w : Nat) : State := demo.modCluster 0 (fun c => { c with sram := memWrite c.sram 65536 (natLe 16 w) })
/-- Slot 1 of core 0 has a command in its buffer that waits for an engine that has come free. -/
def rival (last : Nat) : State :=
  let y : Slot := { st := .active, pitch := 0, streamPtr := 65552, buffer := [{ ptr := 65552, opcode := 0x60, word := 0, waits := some [.xfr] }] }
  { demo with slots := [(0, demo.slot 0), (1, y)], lastIssued := [(0, last)] }

theorem witness_BusyEnginesHoldIssue_fetch :
    ((demo.slot 0).loops.all (fun l => !l.holds (demo.slot 0).streamPtr) = true) ∧
    (((looped.slot 0).loops.any (fun l => l.holds (looped.slot 0).streamPtr)) = true ∧ (looped.slot 0).held = none) ∧
    ((rival 0).waitingReady 1 = true ∧ (rival 0).turn 0 = false ∧ (rival 1).turn 0 = true) := by decide +kernel
theorem witness_BusyEnginesHoldIssue :
    let busy := demo.modCore 0 (fun c => { c with jobs := [{ slot := 0, opcode := 0x60, engines := [.xfr] }] })
    (busy.fetches u0 (word 0 0 0 31) 0x65 = true ∧ (demo.slot 0).predicate (word 0 0 0 31).toNat = true ∧ formOk .inline (word 0 0 0 31).toNat = true ∧
      busy.opndAllowed 0 (word 0 0 0 31).toNat = true ∧ busy.stateServed = true ∧ busy.slotBusy 0 [.xfr] = true) ∧
    ({ demo with tier := { demo.tier with journalReplayed := false } } : State).stateServed = false ∧
    ({ demo with tier := { demo.tier with journalReplayed := false } } : State).fetches u0 (word 0 0 0 31) 0x65 = true := by
  decide +kernel
theorem witness_MalformedCommandsAreRejected :
    (cwDone (word 0x30 0 0 0).toNat = true ∧ cwPre (word 0x30 0 0 0).toNat = true) ∧
    (cwDone (word 0x20 0 0 0).toNat = true ∧ cwKind (word 0x20 0 0 0).toNat = 0) ∧
    (cwDone (word 0 0 1 0).toNat = false ∧ cwPre (word 0 0 1 0).toNat = false ∧ cwOpnd (word 0 0 1 0).toNat ≠ 0) ∧
    cwDesc (word 0x80 0 0 0).toNat ≠ decide (Form.inline ≠ .inline) ∧ cwDesc128 (word 0x80 0 0 0).toNat ≠ decide (Form.d128 = .d128) ∧
    demo.fetches u0 (word 0x30 0 0 0) 0x60 = true ∧ demo.stateServed = true ∧ (demo.slot 0).predicate (word 0x30 0 0 0).toNat = true := by
  decide +kernel
/-- Opcodes at the edges of R124's table: 0x10 and 0xFF are reserved, 0x0F and 0xB4 are not. -/
theorem witness_MalformedCommandsAreRejected_reserved :
    [0x10, 0xFF].all (fun o => (streamed (o * 2 ^ 120)).streamWord 0 == some (o * 2 ^ 120) && (streamed (o * 2 ^ 120)).canIssue 0
      && ((streamed (o * 2 ^ 120)).slot 0).held.isNone && ((streamed (o * 2 ^ 120)).slot 0).predicate (o * 2 ^ 120)
      && !opcodeListed (field (o * 2 ^ 120) 127 120)) = true ∧
    [0x0F, 0xB4].all (fun o => opcodeListed (field (o * 2 ^ 120) 127 120)) = true := by decide +kernel
theorem witness_DescriptorBlocks : cwArgs (word 0x80 0 0 1).toNat % 64 ≠ 0 ∧
    (cwArgs (word 0x80 0 0 (2 ^ 22 - 64)).toNat % 64 = 0 ∧ ((prog 0 0).slot 0).spBytes < 2 ^ 22 - 64 + Form.d128.bytes) ∧
    (2 ^ 22 - 64 + Form.d64.bytes ≤ ((prog 0 0).slot 0).spBytes ∧ (prog 0 0).spPoisonFault 0 (2 ^ 22 - 64) 64 = none) := by
  decide +kernel

theorem witness_MatrixCommandsIssue :
    ((1 : Nat) < ceilDiv 33 32 * ceilDiv 32 32 ∧ 1 < ceilDiv 513 512) ∧
    runs (prog 64 (desc [(0, bf + 64), (32, 64), (96, bf + 128), (128, 64), (192, 1), (201, 1), (224, 1)])) d64 0x20 .d64
      (fun d => matEngines (field d 266 265)) State.mmaWork = true ∧
    runs (prog 0 0) (word 0 0 0 (127 * 256)) 0x21 .inline accEngine State.accZeroWork = true ∧
    runs (prog 0 0) (word 0 0 0 (126 + 2 ^ 16 + 2 ^ 24 + 256)) 0x22 .inline accEngine State.accMoveWork = true := by decide +kernel

theorem witness_VectorCommandsIssue_two : [0x40, 0x41, 0x42, 0x44, 0x45, 0x46, 0x4E].all (fun op =>
    runs (prog 64 (vecDesc 2)) d64 op .d64 vecOnly (State.vecWork op)) = true := by decide +kernel
theorem witness_VectorCommandsIssue_three : [0x43, 0x47].all (fun op =>
    runs (prog 64 (vecDesc 3)) d64 op .d64 vecOnly (State.vecWork op)) = true := by decide +kernel
theorem witness_VectorCommandsIssue_one :
    [0x48, 0x49, 0x4A, 0x4B, 0x4C, 0x4D, 0x4F, 0x50, 0x51, 0x52, 0x53, 0x54, 0x55, 0x56].all (fun op =>
      runs (prog 64 (vecDesc 1)) d64 op .d64 vecOnly (State.vecWork op)) = true := by decide +kernel

theorem witness_TransferCommandsIssue :
    runs (prog 64 (desc [(64, 4096)])) d64 0x60 .d64 xfrOnly (State.xWork 0x60) = true ∧
    runs (prog 64 (desc [(64, 4096), (224, 64)])) d64 0x61 .d64 xfrOnly (State.xWork 0x61) = true ∧
    runs (prog 64 (desc [(64, 4096), (224, 64)])) d64 0x62 .d64 xfrOnly (State.xWork 0x62) = true ∧
    runs (prog 128 0) d128 0x63 .d128 xfrOnly State.xchainWork = true ∧
    runs (prog 64 (desc [(64, 4096), (128, 65536)])) d64 0x64 .d64 xfrOnly State.xqreadWork = true ∧
    runs (prog 0 0) (word 0 0 0 31) 0x65 .inline xfrOnly State.xqflushWork = true ∧
    runs (prog 0 0) (word 0 0 0 (4096 + 3 * 2 ^ 32 + 0xAABBCCDD * 2 ^ 64)) 0x66 .inline xfrOnly State.xfillWork = true := by
  decide +kernel

theorem witness_WindowCommandsIssue :
    runs (prog 128 (desc (geo ++ [(320, 2 ^ 31 + bf + 8192), (352, 64)]))) d128 0x80 .d128 (fun d => matEngines (field d 434 433))
      State.wconvWork = true ∧
    runs (prog 128 (desc (geo ++ [(352, 8192), (384, 64), (416, 64)]))) d128 0x81 .d128 vecOnly State.wpoolWork = true ∧
    runs (prog 128 (desc (geo ++ [(320, 8192), (352, 64)]))) d128 0x82 .d128 xfrOnly State.wexpandWork = true ∧
    runs (prog 128 (desc [(0, 4096), (32, 64), (64, 64), (108, 1), (128, 4), (144, 8192)])) d128 0x83 .d128 xfrOnly State.whaloWork
      = true := by decide +kernel

theorem witness_KvCommandsIssue_append :
    runs (kvState 64 (desc [(0, 4096), (32, 512)])) d64 0x90 .d64 (fun _ => ([.vec, .xfr], false)) State.kvAppWork = true := by
  decide +kernel
theorem witness_KvCommandsIssue_select :
    runs (kvState 128 (desc [(0, bf + 4096), (32, 512), (64, 4096), (128, 8192), (192, 64)])) d128 0x91 .d128
      (fun _ => ([.m0], false)) State.kvScoreWork = true ∧
    runs (kvState 64 (desc [(0, 4096), (32, 8192), (64, 16384), (96, 64), (128, 64)])) d64 0x92 .d64 vecOnly State.kvSelWork = true ∧
    runs (kvState 64 0) d64 0x95 .d64 vecOnly State.kvSketchWork = true := by decide +kernel
theorem witness_KvCommandsIssue_attend :
    runs (kvState 128 (desc [(0, bf + 4096), (32, 512), (64, 16384), (96, 512), (128, 4096), (251, 2)])) d128 0x93 .d128
      (fun _ => ([.m0, .m1, .vec], false)) State.kvAttnWork = true ∧
    runs (kvState 128 (desc [(0, bf + 4096), (32, 512), (64, 16384), (96, 512), (251, 2)])) d128 0x94 .d128
      (fun _ => ([.m0, .m1, .vec], false)) State.kvPrefWork = true := by decide +kernel

theorem witness_RecurrentCommandsIssue :
    runs (handleState 128 (desc [(0, 2 ^ 31 + bf + 4096), (32, 64), (96, bf + 65536), (128, 128), (224, 131072), (308, 31), (327, 15)]))
      d128 0xA0 .d128 cellEngines State.rcellWork = true ∧
    runs (handleState 128 (desc [(244, 15), (0, bf + 4096), (32, 64), (64, bf + 8192), (96, 64), (192, 65536)])) d128 0xA2 .d128
      vecOnly State.rscanWork = true ∧
    runs (handleState 64 0) d64 0xA3 .d64 xfrOnly State.rckptWork = true ∧
    runs (handleState 64 0) d64 0xA4 .d64 xfrOnly State.rswapWork (fun d => field d 33 32 == 0) = true ∧
    runs (handleState 64 (desc [(32, 1)])) d64 0xA4 .d64 xfrOnly State.rswapWork (fun d => field d 33 32 == 1) = true ∧
    runs (handleState 64 (desc [(32, 2)])) d64 0xA4 .d64 xfrOnly State.rswapWork (fun d => field d 33 32 == 2) = true := by
  decide +kernel
theorem witness_RecurrentCommandsIssue_project :
    runs (prog 128 (desc [(0, bf + 4096), (32, 64), (96, 2 ^ 31 + bf + 8192), (128, 64), (192, 65536), (224, 128), (300, 31), (319, 15)]))
      d128 0xA1 .d128 (fun d => matEngines (field d 334 333)) State.rprojWork = true := by decide +kernel

theorem witness_FabricCommandsIssue :
    runs (prog 64 0) d64 0xB0 .d64 xfrOnly State.fwriteWork = true ∧ runs (prog 64 0) d64 0xB1 .d64 xfrOnly State.freadWork = true ∧
    runs (prog 64 0) d64 0xB2 .d64 xfrOnly State.fmsgWork = true ∧
    [0, 1, 2].all (fun cop => runs (groupState 128 (desc [(64, 4096), (265, 3), (295, cop)])) d128 0xB3 .d128 xfrOnly
      State.fcollWork (fun d => field d 297 295 == cop)) = true ∧
    runs (groupState 64 0) d64 0xB4 .d64 xfrOnly State.fglobalWork (fun d => field d 494 492 == 0) = true ∧
    runs (groupState 64 (desc [(478, 4), (492, 1)])) d64 0xB4 .d64 xfrOnly State.fglobalWork (fun d => field d 494 492 == 1) = true := by
  decide +kernel

theorem witness_AccumulatorTilesMove :
    onlyBits (127 + 2 ^ 24) [(6, 0), (14, 8), (24, 24)] = true ∧ 127 + (field (127 + 2 ^ 24) 14 8 + 1) ≤ ((prog 0 0).slot 0).accTiles ∧
    onlyBits (127 * 2 ^ 16) [(6, 0), (14, 8), (22, 16), (24, 24)] = true ∧ (prog 0 0).spacePoison 0 true 0 4096 = none := by
  decide +kernel
theorem witness_FillWritesThePattern :
    onlyBits (2 ^ 22 - 1) [(95, 64), (55, 32), (31, 28), (27, 25), (23, 0)] = true ∧ 2 ^ 22 - 1 + 1 ≤ ((prog 0 0).slot 0).spBytes := by
  decide +kernel
theorem witness_NanAndSignedZeros : isNan32 0x7F800001 = true ∧ isNan32 0xFFFFFFFF = true ∧ isNan32 0x7F800000 = false := by decide
theorem witness_NarrowingBelowSubnormals :
    f32Value 0x3A7FFFFF = .fin false 16777215 (-34) ∧ (-34 : Int) + 24 = -10 ∧ 16777215 < 2 ^ 24 ∧
    f32Value 0xBA800000 = .fin true 8388608 (-33) ∧ (-33 : Int) + 23 = -10 ∧ 8388608 = 2 ^ 23 := by decide +kernel

/-- A VADD of slot 0 that runs on the vector engine with a condition met, and with steps to come or none. -/
def stepJob (conds : BitVec 6) (todo : List Step) (words : Nat) : Job :=
  { slot := 0, opcode := 0x40, engines := [.vec], running := [.vec], conds := [(.vec, conds)], todo, words, begun := true }
/-- Slot 0 runs it on core 0; slot 1's command waits with a higher priority or the same. -/
def stepState (conds trap : BitVec 6) (prio : Nat) (todo : List Step) (words : Nat) : State := { demo with
  slots := [(0, { st := .active, numTrap := trap }), (1, { st := .active, pitch := 1 })]
  pitches := [(0, { st := .running, record := record0, slots := [0] }), (1, { st := .running, record := record0, slots := [1] })]
  dict := [(Key.at Key.pitchPriority 1, prio)]
  cores := [(0, { newDiv := some 7, jobs := [stepJob conds todo words, { slot := 1, opcode := 0x40, engines := [.vec] }] })] }
/-- The state once its step's cycles are counted. -/
def stepNext (s : State) : State :=
  (s.modCore 0 (fun k => k.busy .vec 9)).modJob 0 .vec (fun k => { k with conds := k.conds.filter (fun x => x.1 != .vec) })

theorem witness_EngineStepsEnd :
    (((stepState 1 2 0 [] 0).core 0).runner .vec = some (stepJob 1 [] 0) ∧ (stepJob 1 [] 0).condsOn .vec &&& ((stepState 1 2 0 [] 0).slot 0).numTrap = 0 ∧
      ((stepNext (stepState 1 2 0 [] 0)).preempter 0 .vec (stepJob 1 [] 0)).isNone = true) ∧
    (((stepState 3 2 0 [] 0).core 0).runner .vec = some (stepJob 3 [] 0) ∧ (stepJob 3 [] 0).condsOn .vec &&& ((stepState 3 2 0 [] 0).slot 0).numTrap ≠ 0) ∧
    ((stepNext (stepState 0 0 7 [] 0)).preempter 0 .vec (stepJob 0 [] 0)).isSome = true ∧ ((stepState 0 0 0 [] 0).core 0).newDiv = some 7 := by
  decide +kernel
theorem witness_EngineStepsEnd_steps :
    [vecDesc 2, 2 ^ 20 + vecDesc 2].all (fun w =>
      let j := stepJob 0 [{}] w
      let s := (stepState 0 0 0 [{}] w).modSlot 0 (fun x => { x with spSizeM1 := if w = vecDesc 2 then 15 else 0 })
      s.jobOf 0 .vec == some j && !j.isChunk && s.formed j && j.nextStep .vec == some ({}, []) && (match s.stepNow j {} with
        | .ok _ => w == vecDesc 2
        | .error _ => w != vecDesc 2)) = true := by decide +kernel

/-- A command of slot 0 on the transfer engine, complete but for its operand; with a tag where one is given. -/
def tag0 (tag : Nat) (write : Bool) : TagEntry := { tag, holder := .engine 0, write, pitch := 0, slot := 0, addr := 0 }
def jobState (tags : List Nat) (write : Bool) : State := { demo with
  cores := [(0, { jobs := [{ slot := 0, opcode := 0x60, engines := [.xfr], running := [.xfr], tags }] })]
  tier := { demo.tier with tags := tags.map (fun t => tag0 t write) } }
/-- Does a read of tag 0 find the job that asked, after what its access found. -/
def readAnswered (poison : Option Nat) (f : Finding) : Bool :=
  let s := ((jobState [0] false).freeTag 0).noteRead (tag0 0 false) poison f 0
  (jobState [0] false).tier.tags.find? (fun x => x.tag == 0 && !x.write && !x.fabric && x.slot != noSlot) == some (tag0 0 false)
    && (s.jobOfTag 0 0).elim false (fun j => (s.returnTag j 0).tagCurrent (((s.returnTag j 0)).pitch 0).tenantTag)

theorem witness_CommandsAndRequestsComplete :
    (demo.power.st = .active ∧ (((jobState [] false).pushJob 0 .xfr).jobOf 0 .xfr).elim false
      ((jobState [] false).pushJob 0 .xfr).canComplete = true) ∧
    ((jobState [131071] true).tier.tags.find? (fun x => x.tag == 131071 && x.write && !x.fabric && x.slot != noSlot) = some (tag0 131071 true) ∧
      ((((jobState [131071] true).freeTag 131071).jobOfTag 0 131071).elim false (fun j =>
        let t := ((jobState [131071] true).freeTag 131071).returnTag j 131071
        t.tagCurrent (t.pitch 0).tenantTag)) = true) ∧
    readAnswered none .clean = true ∧ readAnswered none (.corrected 2) = true := by decide +kernel

/-- A donation of slot 0 to slot 1 at peg 3. -/
def donation0 : Donation := { waiter := 0, holder := 1, peg := 3, start := 0 }

/-- A request of slot 0 that has waited for tier B space since time 0. -/
def stalled0 : Stalled := { pitch := 0, addr := 4096, since := some 0 }
/-- `demo` at a later time. -/
def atTime (ns : Nat) (s : State) : State := { s with time := ns }

theorem witness_TimersAndPoisonTearDown :
    ((demo.modSlot 0 (fun x => { x with st := .waiting, hold := .event 5, watchRun := 10 ^ 12 })).watchdogRuns 0 = true ∧
      demo.obj (Key.at Key.watchdogUs 0) ≠ 0 ∧ 1000 * demo.obj (Key.at Key.watchdogUs 0) ≤ 10 ^ 12) ∧
    demo.watchdogRuns 5 = false ∧
    (((demo.setPeg 0 3 { holders := [(1, 1)] }).modCluster 0 (fun c => { c with donations := [donation0] })).cluster 0).donations
      = [donation0] ∧ ((demo.setPeg 0 3 { holders := [(1, 1)] }).peg 0 3).held 1 ≠ 0 ∧
    (0 : Nat) + 1000 * demo.obj (Key.at Key.donationQuantumUs 0) ≤ 10 ^ 12 ∧ 0 < 1000 * demo.obj (Key.at Key.donationQuantumUs 0) ∧
    ((demo.modSlot 0 (fun x => { x with hold := .quota 4096 })).quotaSlot 0 4096 = some 0 ∧ demo.quotaSlot 0 4096 = none ∧
      0 + 1000 * demo.obj (Key.at Key.quotaStallUs 0) ≤ 10 ^ 12 ∧ 0 < 1000 * demo.obj (Key.at Key.quotaStallUs 0)) ∧
    readAnswered (some 1) .clean = true ∧ readAnswered none .uncorrectable = true := by decide +kernel

theorem witness_PulsesAndWakes :
    let s := demo.setCluster 0 { routes := [(127, .slot 7 3)], pulses := [{ line := 127, src := 0 }] }
    let t := demo.setCluster 0 { pulses := [{ line := 126, src := 0 }, { line := 127, src := 0 }] }
    ((s.cluster 0).pulses.find? (fun p => p.line == 127) = some { line := 127, src := 0 } ∧
      (s.cluster 0).pulses.find? (fun p => p.src == 0) = some { line := 127, src := 0 } ∧
      (s.cluster 0).routes.filter (fun r => r.1 == 127) = [(127, .slot 7 3)]) ∧
    ((t.cluster 0).pulses.find? (fun p => p.line == 127) = some { line := 127, src := 0 } ∧
      (t.cluster 0).pulses.find? (fun p => p.src == 0) = some { line := 126, src := 0 }) ∧
    ((demo.modSlot 0 (fun x => { x with st := .parked })).slot 0).st = .parked := by decide +kernel

/-- A chain of one entry at the list's start, on the transfer engine: an XCOPY of one byte from 0 to 4,096. -/
def chain1 (listOff : Nat) : Chain := { listOff, entries := 1, repeats := 1, srcStep := 0, dstStep := 0 }
def chainJob (listOff : Nat) : Job :=
  { slot := 0, opcode := 0x63, engines := [.xfr], running := [.xfr], chain := some (chain1 listOff) }
def chainState (listOff : Nat) : State :=
  (prog 64 (desc [(504, 0x60), (64, 4096)])).modCore 0 (fun c => { c with jobs := [chainJob listOff] })
theorem witness_ChainEntriesStart :
    ((chainState 0).jobOf 0 .xfr = some (chainJob 0) ∧ (chainJob 0).chain = some (chain1 0) ∧ (chainJob 0).moved = true ∧
      (chainJob 4194304).moved = true ∧ (chainState 4194304).jobOf 0 .xfr = some (chainJob 4194304) ∧
      ({ chainJob 0 with tags := [5] } : Job).tags ≠ []) ∧
    ((chainState 4194304).outside 0 false 4194304 64 = true) ∧
    ((chainState 0).outside 0 false 0 64 = false ∧ (chainState 0).spPoisonFault 0 0 64 = none ∧
      xOp (leNat ((chainState 0).readSp 0 0 64)) = 0x60 ∧ xWaitEn (leNat ((chainState 0).readSp 0 0 64)) = false ∧
      ((chainState 0).entryWork 0 (leNat ((chainState 0).readSp 0 0 64)) (chain1 0)).err = none) := by
  decide +kernel

theorem witness_TeardownEnds :
    ((demo.modPitch 31 (fun p => { p with st := .teardown, down := some { code := 3 } })).pitch 31).down = some { code := 3 } := by
  decide +kernel
theorem witness_CoreModeWrites :
    (field (0x202 : Word).toNat 10 8 < 3 ∧ (List.range 4).all (fun k => (demo.slot k).st == .idle) = false) ∧
    (3 ≤ field (0x303 : Word).toNat 10 8 ∧ field (0x303 : Word).toNat 1 0 = 3) ∧
    (3 ≤ field (0x702 : Word).toNat 10 8 ∧ field (0x702 : Word).toNat 1 0 ≠ 3 ∧
      (List.range 4).all (fun k => (State.reset.slot k).st == .idle) = true) := by decide +kernel

/-! ### Requests: helpers -/

/-- A request outside a session, on mailbox 0, while no INTEGRATOR key is installed: its caller counts as INTEGRATOR (R769). -/
def mb : Req := { path := .mailbox 0 }
def me : Caller := { role := .integrator, path := .mailbox 0 }

/-- A CMD write is heard and taken up, and its own condition holds. -/
def cmdMeets (s : State) (key min : Nat) (v : List Byte) (ok : State → Caller → List Byte → Bool) : Bool :=
  s.hears mb (writeHead key) me && (s.asked mb).cmdOpen me key min v && ok (s.asked mb) me v

/-- So for a scalar. -/
def scalarMeets (s : State) (key min : Nat) (v : List Byte) (ok : State → Caller → Nat → Bool) : Bool :=
  s.hears mb (writeHead key) me && (s.asked mb).scalarOpen me key min v && ok (s.asked mb) me (leNat v)

/-- So for a vendor-signed CMD write. -/
def signedMeets (s : State) (key : Nat) (v : List Byte) : Bool :=
  s.hears mb (signedHead key) me && (s.asked mb).redrawNonce.cmdOpen { me with role := .vendor } key rkVendor v

/-- So for any operation. -/
def servesMeets (s : State) (h : Head) (ok : State → Caller → Bool) : Bool := s.hears mb h me && ok (s.asked mb) me

/-! ### Memory tiers -/

/-- Extent 63 of pitch 0: 2 MiB at 0, pages of 4 KiB, cold pages to tier B. -/
def ext63 : Extent := { number := 63, base := 0, length := 2097152 }
/-- `demo` with state set 7 of tenant 0 and extent 63; pitch 1 is resident too. -/
def tierDemo : State :=
  { (demo.modPitch 0 (fun r => { r with extents := [ext63] })).modPitch 1 (fun r => { r with st := .created }) with
    tier := { demo.tier with sets := [{ id := 7, tenant := 0, policy := 1, interval := 10 }] } }

theorem witness_TierRequestsComplete :
    cmdMeets demo Key.extentDefine rkOperator (natLe 32 (desc [(8, 63), (64, 2 ^ 48 - 2097152), (198, 9), (204, 1)])) okExtentDefine = true ∧
    cmdMeets tierDemo Key.extentRemove rkOperator (natLe 2 63) (fun s _ v => onlyBits (leNat v) [(12, 8), (5, 0)]
      && (s.pitch (field (leNat v) 12 8)).extents.find? (fun y => y.number == field (leNat v) 5 0) == some ext63) = true ∧
    cmdMeets demo Key.pagePin rkOperator (natLe 24 (desc [(128, 4096), (176, 2), (178, 1)])) okPagePin = true ∧
    cmdMeets demo Key.pageFree rkOperator (natLe 24 (desc [(0, 31), (128, 4096)])) okPageFree = true ∧
    cmdMeets demo Key.stateSetCreate rkTenant (natLe 16 (desc [(0, 2 ^ 32 - 1), (64, 3), (96, 86400)])) okStateSetCreate = true ∧
    cmdMeets tierDemo Key.stateSetDelete rkTenant (natLe 4 7) okSetIdle = true ∧
    cmdMeets tierDemo Key.stateSetAttach rkTenant (natLe 8 (desc [(0, 7), (32, 1)])) (fun s c v => okStateSetAttach s c v
      && s.tier.sets.find? (fun x => x.id == field (leNat v) 31 0) == some { id := 7, tenant := 0, policy := 1, interval := 10 }) = true ∧
    cmdMeets tierDemo Key.checkpointNow rkTenant (natLe 4 7) okSetIdle = true := by decide +kernel

/-- A page of 4 KiB of pitch 0 at 0 in a tier, with a migration. -/
def page0 (tier : Tier) (dest : Option Tier) : Page := { id := 3, owner := some 0, addr := 0, sizeLog2 := 0, tier, migration := dest.map (fun d => { dest := d }) }
/-- `demo` with that page, whose key entry is live, or not. -/
def pageDemo (g : Page) (live : Bool) : State := { demo with
  tier := { demo.tier with pages := [g] }
  sec := { demo.sec with keys := if live then [(0, { st := .write, tenant := 0, epoch := 0 })] else [] } }
/-- `demo` with set 7, under a checkpoint where `busy`, with a balance. -/
def setDemo (busy : Bool) (balance : Int) : State := { demo with tier := { demo.tier with
  sets := [{ id := 7, tenant := 0, policy := 1, interval := 10, inProgress := busy }], balance } }

theorem witness_TierEventsComplete :
    ((pageDemo (page0 .b (some .a)) true).page 3 = some (page0 .b (some .a)) ∧
      (pageDemo (page0 .b (some .a)) true).keyLive (page0 .b (some .a)) = true) ∧
    (pageDemo (page0 .a (some .b)) true).keyLive (page0 .a (some .b)) = true ∧
    (pageDemo (page0 .b (some .c)) true).keyLive (page0 .b (some .c)) = true ∧
    ((page0 .c (some .b)).arrive 0 true ≠ page0 .c (some .b) ∧ ((page0 .c (some .b)).arrive 0 true).tier = .b) ∧
    ({ page0 .c (some .b) with sizeLog2 := 1 }.arrive 1 false ≠ { page0 .c (some .b) with sizeLog2 := 1 } ∧
      ({ page0 .c (some .b) with sizeLog2 := 1 }.arrive 1 false).tier = .c) ∧
    ((pageDemo { page0 .b none with keyIndex := 64 } false).keyLive { page0 .b none with keyIndex := 64 } = false ∧
      (page0 .b none).kv = false ∧ (page0 .b none).owner.isSome = true) ∧
    ((setDemo false 0).tier.sets.find? (fun t => t.id == 7) = some { id := 7, tenant := 0, policy := 1, interval := 10 } ∧
      -((setDemo false 0).obj Key.flashDailyBudget : Int) < 0 ∧
      (setDemo false (-((setDemo false 0).obj Key.flashDailyBudget : Int))).tier.balance ≤
        -((setDemo false (-((setDemo false 0).obj Key.flashDailyBudget : Int))).obj Key.flashDailyBudget : Int)) ∧
    (setDemo true 0).tier.sets.any (fun t => t.id == 7 && bit t.policy 0 && t.inProgress) = true ∧
    demo.tier.retiredBlocks = [] ∧ State.reset.tier.journalReplayed = false := by decide +kernel

/-- A page of 4 KiB of pitch 0 in a move, with tiles done and marked, and passes made. -/
def movePage (tier dest : Tier) (done marked : List Nat) (passes : Nat) (clean : List Nat) : Page :=
  { id := 3, owner := some 0, addr := 0, sizeLog2 := 0, tier, migration := some { dest, done, marked, passes }, cleanCopy := clean }
/-- `pageDemo` with a request of slot 0 outstanding to the page. -/
def pageTag (g : Page) (write : Bool) : State := let s := pageDemo g true
  { s with tier := { s.tier with tags := [tag0 9 write] } }
/-- The last flash page of the stream of `page0`, full. -/
def flash0 : FlashPage := { number := 0, channel := 7, die := 0, tag := 0, epoch := 0, entry := 0, tiles := List.replicate 4 { page := 3, tile := 0 } }
def flashDemo : State := { demo with tier := { demo.tier with flash := [flash0] } }

theorem witness_TierEventsComplete_places :
    ((pageDemo (page0 .b none) true).pageAt 0 (4095 / 4096 * 4096) = some (page0 .b none) ∧ (page0 .b none).leafLevel = 4) ∧
    ((pageDemo { page0 .b none with sizeLog2 := 9 } true).pageAt 0 (2097151 / 2097152 * 2097152) = some { page0 .b none with sizeLog2 := 9 } ∧
      ({ page0 .b none with sizeLog2 := 9 } : Page).leafLevel = 3) ∧
    (flashDemo.tier.retiredDies = [] ∧ (flashDemo.tier.flash.filter (fun f => f.key == (page0 .b none).stream)).getLast? = some flash0 ∧
      (flashDemo.tier.flash.filter (fun f => f.key == (page0 .b none).stream)).all (fun f => !f.isOpen || decide (4 ≤ f.tiles.length)) = true) ∧
    ((atTime (10 ^ 12) demo).windowBegun tmHeatBC (1000 * demo.obj Key.heatPeriodBCUs) = true ∧
      (atTime (10 ^ 12) demo).windowBegun tmHeatA (1000 * demo.obj Key.heatPeriodAUs) = true ∧
      demo.windowBegun tmHeatBC (1000 * demo.obj Key.heatPeriodBCUs) = false ∧ demo.windowBegun tmHeatA (1000 * demo.obj Key.heatPeriodAUs) = false) ∧
    ((pageTag (page0 .b none) false).readsOut (page0 .b none) = [9] ∧ ([9] : List Nat) ≠ []) := by decide +kernel
/-- Each stage of a move within the tiers, and of a demotion. -/
theorem witness_TierEventsComplete_moves :
    let within := fun (s : State) (g : Page) => s.page 3 == some g && s.keyLive g && g.tier != .c && (g.migration.elim false (fun m => m.dest != .c))
    let left := fun (g : Page) => g.migration.bind (fun m => (List.range g.tiles).find? (fun t => !m.done.contains t))
    (within (pageDemo (movePage .b .a [] [] 0 []) true) (movePage .b .a [] [] 0 []) = true ∧ left (movePage .b .a [] [] 0 []) = some 0) ∧
    [0, 2, 3].all (fun n => within (pageDemo (movePage .a .b [0] [0] n []) true) (movePage .a .b [0] [0] n [])
      && (left (movePage .a .b [0] [0] n [])).isNone) = true ∧
    (within (pageDemo (movePage .b .b [0] [] 0 []) true) (movePage .b .b [0] [] 0 []) = true ∧
      (pageDemo (movePage .b .b [0] [] 0 []) true).writesOut (movePage .b .b [0] [] 0 []) = false ∧
      (pageTag (movePage .b .b [0] [] 0 []) true).writesOut (movePage .b .b [0] [] 0 []) = true) ∧
    ((pageDemo (movePage .b .c [] [] 0 []) true).page 3 = some (movePage .b .c [] [] 0 []) ∧
      (movePage .b .c [] [] 0 []).uncopied = [0] ∧ (movePage .b .c [] [] 0 [0]).uncopied = [] ∧
      ({ pageDemo (movePage .b .c [] [] 0 []) true with tier := { (pageDemo (movePage .b .c [] [] 0 []) true).tier with balance := 1 } } : State).mayDemote = true ∧
      ({ pageDemo (movePage .b .c [] [] 0 []) true with tier := { (pageDemo (movePage .b .c [] [] 0 []) true).tier with balance := 0 } } : State).mayDemote = false) ∧
    ((page0 .c (some .b)).nextTile = some 0 ∧ ({ page0 .c (some .b) with sizeLog2 := 1 } : Page).nextTile ≠ some 1) ∧
    ((pageDemo { page0 .b none with keyIndex := 64 } false).expired { page0 .b none with keyIndex := 64 } = true ∧
      (pageDemo (page0 .b none) true).expired (page0 .b none) = false) ∧
    ((setDemo true 0).checkpointTiles { id := 7, tenant := 0, policy := 1, interval := 10, inProgress := true } = 0 ∧
      (atTime (10 ^ 12) (setDemo false 0)).time / (1000000000 * 10) = 100) := by decide +kernel
/-- A checkpoint of more tiles than tier C has free: every die is retired. -/
def fullSet : StateSet := { id := 7, tenant := 0, policy := 1, interval := 10, inProgress := true, pendingPages := [{ page0 .b none with dirty := [0] }] }
def fullState : State := { demo with tier := { demo.tier with sets := [fullSet], retired := (List.range 16).map (fun k => (10, k, 0, 0)) } }
theorem witness_TierEventsComplete_full :
    fullState.tier.sets.find? (fun t => t.id == 7) = some fullSet ∧ fullState.tierCFree < 4096 * fullState.checkpointTiles fullSet := by
  have h : fullState.tierCCapacity = 0 := by
    have h1 : (fullState.tier.retired.filter (·.1 == 10)).length = 16 := by decide +kernel
    simp [State.tierCCapacity, h1]
  refine ⟨by decide +kernel, ?_⟩
  rw [State.tierCFree, h, Nat.zero_sub]
  decide +kernel

/-! ### KV store and handles -/

/-- Handle 4095 of pitch 0, bound to a page at 64 KiB, swapped out, or with its hold taken. -/
def handle0 : Handle := { st := .bound, pitch := 0, page := 65536, vectors := 1, elems := 32 }
def handlesDemo (h : Handle) : State := { kvState 0 0 with tier := { (kvState 0 0).tier with handles := [(4095, h)] } }
/-- The same, with the pages of a bound handle allocated. -/
def boundDemo : State := (((kvState 0 0).bindHandle 4095 handle0).getD demo)
def swapValue (out : Nat) (into force : Nat) : List Byte := natLe 16 (desc [(0, 4095), (12, into), (13, force), (64, out)])
/-- And swapped out to 128 KiB. -/
def swappedDemo : State := (boundDemo.askSwapOut 4095 131072 false)

theorem witness_KvAndHandleRequestsComplete :
    cmdMeets (kvState 0 0) Key.kvLayoutDefine rkOperator (natLe 32 (desc [(8, 7), (16, 0), (49, 1), (56, 255), (128, 64)]))
      okKvLayoutDefine = false ∧
    cmdMeets tierDemo Key.kvLayoutDefine rkOperator (natLe 32 (desc [(8, 7), (16, 63), (49, 1), (56, 255), (128, 64)]))
      okKvLayoutDefine = true ∧
    cmdMeets ((kvState 0 0).modPitch 0 (fun r => { r with seqs := [] })) Key.kvLayoutRemove rkOperator (natLe 2 0) okKvLayoutRemove = true ∧
    cmdMeets (kvState 0 0) Key.kvSeqCreate rkTenant (natLe 8 (65535 * 2 ^ 16)) (fun s c v =>
      okKvSeqCreate s c v && seqNames v == some (0, 0, 65535)) = true ∧
    cmdMeets (kvState 0 0) Key.kvSeqDrop rkTenant (natLe 8 0) (fun s c v => okKvSeqDrop s c v && seqNames v == some (0, 0, 0)
      && (s.seqOf 0 0 0).isSome) = true ∧
    cmdMeets (kvState 0 0) Key.stateHandleBind rkTenant (natLe 16 (desc [(0, 4095), (25, 2), (32, 32), (64, 65536)])) okStateHandleBind
      = true ∧
    cmdMeets (handlesDemo handle0) Key.stateHandleRevoke rkTenant (natLe 2 (4095 + 2 ^ 15)) okStateHandleRevoke = true := by decide +kernel

theorem witness_KvAndHandleRequestsComplete_swap :
    cmdMeets boundDemo Key.stateHandleSwap rkTenant (swapValue 131072 0 0) (fun s c v => swapAllowed s c v && !bit (leNat v) 12
      && (s.handle 4095).st == .bound && !(s.handle 4095).waiting.contains mcEntry
      && !((swapOutIn s v).handle 4095).waiting.contains mcEntry && ((swapOutIn s v).handle 4095).st == .swapped) = true ∧
    cmdMeets (handlesDemo { handle0 with held := some 0 }) Key.stateHandleSwap rkTenant (swapValue 131072 0 0) (fun s c v =>
      swapAllowed s c v && !bit (leNat v) 12 && (s.handle 4095).st == .bound && !(s.handle 4095).waiting.contains mcEntry
      && ((swapOutIn s v).handle 4095).waiting.contains mcEntry) = true ∧
    cmdMeets swappedDemo Key.stateHandleSwap rkTenant (swapValue 196608 1 0) (fun s c v => swapAllowed s c v && bit (leNat v) 12
      && (s.handle 4095).st == .swapped && (s.handle 4095).held.isNone
      && (s.copyTo 4095 (s.handle 4095).backing 196608 .firmware).2.isNone) = true := by decide +kernel

/-- A sequence being dropped, that a command in progress names or not. -/
def dropSeq0 : KvSeq := { layout := 0, number := 0, dropping := true }
def dropping (named : Bool) : State := (demo.modPitch 0 (fun r => { r with seqs := [dropSeq0] })).modCore 0 (fun c => { c with
  jobs := [{ slot := 0, opcode := 0x91, engines := [.m0], seqs := if named then [(0, 0)] else [] }] })
theorem witness_KvAndHandleRequestsComplete_drop :
    ((dropping true).pitch 0).seqs.filter (fun x => x.dropping) = [dropSeq0] ∧ (dropping true).seqBusy 0 dropSeq0 = true ∧
    (dropping false).seqBusy 0 dropSeq0 = false := by decide +kernel

/-! ### Pitches -/

/-- `demo` with pitch 0 in another state. -/
def inState (st : PitchState) : State := demo.modPitch 0 (fun r => { r with st })
/-- A record over core 0 of a free pitch ID 31, with 64 KiB at 1 MiB, 4 pegs from 1,020, all lock pegs, and every class's credit. -/
def record31 : List Byte := natLe 16 (desc [(0, 31), (5, 7), (32, 1), (80, 100)])
  ++ natLe 16 (desc [(0, 16), (16, 1), (32, 1020), (42, 4), (53, 4)]) ++ List.replicate 96 0
/-- Two pitches of one tenant; pegs 0 to 15 are the first's. -/
def twoPitches : State := { demo with pitches := [(0, { st := .running, record := record0, slots := [0] }), (1, { st := .created })] }
/-- `demo` with tenant 0 active. -/
def tenantDemo : State := { demo with sec := { demo.sec with tenants := [(0, { st := .active, retentionDays := 30 })] } }
def loan15 : Loan := { owner := 0, borrower := 1, cluster := 0, first := 15, count := 1 }
def loanValue : List Byte := natLe 8 (desc [(8, 1), (16, 15), (26, 1)])


theorem witness_PitchRequestsComplete :
    cmdMeets tenantDemo Key.pitchCreate rkOperator record31 okPitchCreate = true ∧
    [.created, .tornDown, .complete].all (fun st => cmdMeets (inState st) Key.pitchStart rkOperator [0] (fun s _ v =>
      decide (leNat v < 32) && ([.created, .tornDown, .complete] : List PitchState).contains (s.pitch (leNat v)).st)) = true ∧
    cmdMeets (inState .tornDown) Key.pitchRemove rkOperator [0] (fun s _ v =>
      decide (leNat v < 32) && ([.created, .tornDown, .complete] : List PitchState).contains (s.pitch (leNat v)).st) = true ∧
    cmdMeets demo Key.pitchRemove rkOperator [0] (fun s _ v => decide (leNat v < 32) && (s.pitch (leNat v)).st == .running) = true ∧
    cmdMeets (inState .teardown) Key.pitchRemove rkOperator [0] (fun s _ v => decide (leNat v < 32) && (s.pitch (leNat v)).st == .teardown) = true ∧
    cmdMeets twoPitches Key.pegShare rkOperator loanValue (fun s _ v => loanOf v == some loan15 && okPegShare s loan15) = true ∧
    cmdMeets { twoPitches with loans := [loan15] } Key.pegUnshare rkOperator loanValue (fun s _ v =>
      loanOf v == some loan15 && s.loans.contains loan15) = true ∧
    cmdMeets demo (Key.at Key.pegStatusClear 5) rkOperator (natLe 2 1023) (fun _ _ v => decide (leNat v < 1024)) = true ∧
    scalarMeets demo (Key.at Key.pitchPriority 0) rkOperator [7] (fun s _ _ => (s.pitch 0).st != .free) = true := by decide +kernel

/-! ### Queues and listening -/

/-- `demo` with values in the dictionary. -/
def withObjs (vs : List (Nat × Nat)) : State := { demo with dict := vs }
/-- Queue 31 of pitch 0 in cluster 0, two banks of four packets of 128 B. -/
def queue31 (enable : Nat) : List (Nat × Nat) := [(Key.at Key.slotsPerBank 31, 4), (Key.at Key.slotBytes 31, 128),
  (Key.at Key.queuePitch 31, 0), (Key.at Key.queueCluster 31, 0), (Key.at Key.queueSramOffset 31, 64512), (Key.at Key.queueEnable 31, enable)]
/-- Listening with one block in the ring, in which beam 3 was voiced, and stream 2 running into queue 31; the backlog ends at block
`backlog`. -/
def heardState (backlog : Nat) : State := { withObjs ((Key.at Key.streamQueue 2, 31) :: (Key.at Key.streamQueue 3, 31) :: queue31 1) with
  listen := { index := 320, streamsOn := [2], streamEnd := [(2, backlog)], model := [0], infos := [{ block := 1, voice := 8 }]
              rawReady := [{ block := 0, stamp := 0, data := [] }] } }
/-- A stage awake, waking or going. -/
def stageState (wake drop : Option Nat) : State :=
  { withObjs [(Key.wakeStage, 3), (Key.wakeTimeoutMs + 1, 5)] with listen := { stageWaking := wake, dropTo := drop } }
/-- A module in LANTERN with a glimpse frame of its own size. -/
def glimpsed (action : Nat) : State :=
  { withObjs [(Key.glimpseEnable, 1), (Key.glimpseWidth, 1), (Key.glimpseHeight, 2), (Key.glimpseScoreThreshold, 0), (Key.glimpseAction, action)]
    with listen := { glimpse := [0, 0] }, power := { demo.power with st := .lantern } }
/-- Playback from peg 0 of pitch 0, which holds `n`. -/
def playing (n : Nat) : State := (withObjs [(Key.playbackEnable, 1), (Key.playbackCluster, 0), (Key.playbackPitch, 0), (Key.playbackFillPeg, 0)]).setPeg 0 0
  { value := BitVec.ofNat 16 n }

theorem witness_PitchRequestsComplete_queues :
    scalarMeets (withObjs (queue31 0)) (Key.at Key.queueEnable 31) rkOperator [1] (fun s _ n =>
      n == 1 && s.obj (Key.at Key.queueEnable 31) != 1 && s.queueFits 31) = true ∧
    scalarMeets (withObjs (queue31 1)) (Key.at Key.queueEnable 31) rkOperator [0] (fun s _ n =>
      n == 0 && s.obj (Key.at Key.queueEnable 31) == 1) = true := by decide +kernel

theorem witness_ListeningComplete_streams :
    ((demo.setQueue 31 { flushAsked := [0] }).queue 31).flushAsked = [0] ∧
    ((((withObjs (queue31 1)).setQueue 31 { packets := [{ slot := 0, seq := 0, stamp := 0, prodFlags := 0, length := 0, overlong := false, visible := true }] }).queue 31).oldest.isSome = true ∧
      (withObjs (queue31 1)).obj (Key.at Key.queueEnable 31) ≠ 0) ∧ demo.lanternOn = true ∧
    ((heardState 0).listen.streamsOn.contains 2 = true ∧ (heardState 0).streamQ 2 = 31 ∧ (heardState 0).listen.holdsBlock 0 = true ∧
      (heardState 0).queueReachable 31 = true ∧ tabGet (heardState 0).listen.streamEnd 2 0 ≤ 0 ∧ 0 < (heardState 0).listen.endBlocks) ∧
    (0 < tabGet (heardState 1).listen.streamEnd 2 0 ∧ ((heardState 1).pickSlot ((heardState 1).streamQ 2)).2 = none) ∧
    ((heardState 0).listen.rawReady ≠ [] ∧ (heardState 0).streamQ 3 = 31) := by decide +kernel

/-- What is timed, before its time and after it. -/
theorem witness_ListeningComplete_due :
    (10 ^ 12 ≥ max 0 0 + demo.obj (Key.at Key.staleTailNs 31) ∧ 0 < max 1 0 + demo.obj (Key.at Key.staleTailNs 31)) ∧
    ((atTime (10 ^ 12) (heardState 1)).passed (tmReplay 2) 10000 = true ∧ (heardState 1).passed (tmReplay 2) 10000 = false) ∧
    ((heardState 0).listen.l0Next < (heardState 0).listen.endBlocks ∧ ({ (heardState 0).listen with l0Next := 2 } : Listening).endBlocks ≤ 2 ∧
      (heardState 0).listen.l1Next < (heardState 0).listen.index / 320) ∧
    (((stageState none none).listen.stageSince + 1000000 * (stageState none none).obj (Key.wakeTimeoutMs + (3 - 2)) ≤ 10 ^ 12) ∧
      (stageState none none).time < 1000000 * (stageState none none).obj (Key.wakeTimeoutMs + (3 - 2)) ∧
      (stageState none none).listen.stageWaking = none) ∧
    ((stageState none (some 1)).listen.dropSince + 1000 * demo.obj Key.wakeDropGraceUs ≤ 10 ^ 12 ∧ 0 < 1000 * demo.obj Key.wakeDropGraceUs) ∧
    (demo.listen.wakeOutSince + 1000000 * demo.obj Key.wakeOutHoldMs ≤ 10 ^ 12 ∧ 0 < 1000000 * demo.obj Key.wakeOutHoldMs) ∧
    (({ (heardState 0).listen with lastTrigger := some 0 } : Listening).lastTrigger = some 0 ∧
      0 < 0 + 1000000 * (heardState 0).obj Key.kwsHoldMs ∧ (heardState 0).hopTop [0, 0, 0, 0] = some (3, 0)) ∧
    ((playing 1).endPlayed.callCluster 0).playReady = true ∧ ((playing 0).endPlayed.callCluster 0).playReady = false := by decide +kernel

theorem witness_ListeningComplete_cascade :
    ((heardState 0).lanternOn = true ∧ (heardState 0).listen.index ≠ 0) ∧
    ((heardState 0).listen.model ≠ [] ∧ (heardState 0).hopTop [0, 0, 0, 2 ^ 32 - 1] = some (3, 2 ^ 32 - 1) ∧
      (heardState 0).obj Key.kwsThreshold ≤ 2 ^ 32 - 1 ∧ (heardState 0).listen.lastTrigger = none) ∧
    ((stageState (some 2) none).listen.stageWaking = some 2 ∧ (stageState (some 2) none).power.st = .active) ∧
    ((stageState none none).obj Key.wakeStage = 3 ∧ (stageState none none).obj (Key.wakeTimeoutMs + (3 - 2)) ≠ 0 ∧
      (stageState none none).listen.dropTo = none) ∧
    ((stageState none (some 1)).listen.dropTo = some 1 ∧ ((stageState none (some 1)).endDrop 1).listen.heldTrigger = none) ∧
    ((glimpsed 1).obj Key.glimpseEnable ≠ 0 ∧ (glimpsed 1).listen.glimpse.length = (glimpsed 1).obj Key.glimpseWidth * (glimpsed 1).obj Key.glimpseHeight ∧
      (glimpsed 1).obj Key.glimpseScoreThreshold = 0 ∧ (glimpsed 1).obj Key.glimpseAction = 1 ∧ (glimpsed 2).obj Key.glimpseAction = 2) ∧
    ((playing 1).obj Key.playbackEnable ≠ 0 ∧ ((playing 1).callCluster 0).playReady = true ∧ ((playing 0).callCluster 0).playReady = false) ∧
    scalarMeets demo Key.glimpseEnable rkOperator [1] (fun _ _ _ => true) = true ∧
    scalarMeets demo Key.playbackEnable rkOperator [1] (fun _ _ _ => true) = true ∧
    cmdMeets demo Key.kwsModelLoad rkOperator [1] (fun _ _ _ => true) = true := by decide +kernel

/-! ### Cameras -/

/-- An open frame of context 15 under a height of `h` lines, whose output 2 is on, and `demo` with it and `n` lines in port 3's buffer. -/
def frame15 (h : Nat) : Frame := { id := 0, ctx := 15, number := 1, stamp := 0
                                   scalars := [(Key.at Key.ctxHeight 15, h), (Key.at Key.outEnable 62, 1), (Key.at Key.outSize 62, 0), (Key.at Key.ctxDataType 15, 42), (Key.at Key.frameTimeoutUs 15, 1)] }
def filming (fs : List Frame) (n : Nat) : State :=
  { withObjs [(Key.at Key.camPortEnable 3, 1), (Key.at Key.ctxEnable 15, 1), (Key.at Key.frameTimeoutUs 15, 1), (Key.camFsyncPeriodNs, 1000000)] with
    cams := { frames := fs, buffers := [(3, List.replicate n { frame := 0, pixels := [] })] } }

theorem witness_CamerasComplete :
    ((filming [] 0).portServed 3 = true ∧ (filming [] 0).openFrame 15 = none ∧ (filming [] 0).obj (Key.at Key.ctxEnable 15) ≠ 0) ∧
    ((filming [frame15 1] 1).openFrame 15 = some (frame15 1) ∧
      ((filming [frame15 1] 1).closeFrame (frame15 1) mkLate 0).obj (Key.at Key.ctxEnable 15) ≠ 0 ∧
      (filming [frame15 1] 1).time < (frame15 1).timeout ∧ (frame15 1).timeout ≤ (atTime 1000 (filming [frame15 1] 1)).time ∧
      (filming [frame15 1] 1).cams.overflowed = [] ∧ (filming [frame15 1] 1).cams.quiet = [] ∧ (frame15 1).received < (frame15 1).height ∧
      (tabGet (filming [frame15 1] 1).cams.buffers 3 []).length < 2 ∧ 2 ≤ (tabGet (filming [frame15 1] 2).cams.buffers 3 []).length) ∧
    ((filming [frame15 1] 1).power.st = .active ∧ (filming [frame15 1] 1).arbiterPort = some 3) ∧
    ((filming [{ frame15 0 with ended := true }] 0).nextBand { frame15 0 with ended := true } 2 = some (0, true)) ∧
    (filming [] 0).obj Key.camFsyncPeriodNs ≠ 0 ∧
    cmdMeets demo Key.cciTransfer rkOperator (natLe 4 (2 ^ 16 * 64 + 2 ^ 8 * 64) ++ List.replicate 64 0) okCciTransfer = true ∧
    ({ demo with cams := { cciBusy := some 1 } } : State).cams.cciBusy = some 1 := by decide +kernel

/-! ### Ports, links and packets -/

/-- Module 0 of a torus of two modules along X: port 0 is UP, port 3 TRAINING, port 1 DOWN; one packet is held. -/
def torusDemo : State :=
  { withObjs [(Key.fabricDimX, 2), (Key.fabricDimY, 1), (Key.fabricDimZ, 1), (Key.timeParentPort, 5), (Key.timeRootEligible, 1)] with
    fabric := { ports := [(0, { st := .up }), (1, { st := .down }), (3, { st := .training })]
                held := [{ pkt := { kind := .write, dstModule := 1 }, port := 3, vc := 2 }] } }
/-- A packet to the other module. -/
def away (vc : Nat) : Packet := { kind := .write, dstModule := 1, vc }

theorem witness_PortsAndTimeComplete :
    ((torusDemo.port 3).st = .training ∧ (torusDemo.setObj (Key.at Key.portNeighbour 3) 1).neighbour torusDemo.moduleId 3 = 1 ∧
      2 ≠ torusDemo.neighbour torusDemo.moduleId 3) ∧
    (torusDemo.port 0).st = .up ∧ (torusDemo.port 1).st = .down ∧
    scalarMeets demo (Key.at Key.portEnable 5) rkOperator [0] (fun _ _ _ => true) = true ∧
    ((torusDemo.bump (Key.at Key.rxFlits 0) (packetFlits (away 7))).escapePort 1 = some (0, false) ∧ 6 ≤ (away 7).vc ∧
      (away 7).dstModule ≠ torusDemo.moduleId) ∧
    ((torusDemo.bump (Key.at Key.rxFlits 0) (packetFlits { away 6 with dstModule := 64 })).escapePort 64 = none) ∧
    ((away 5).vc < 6 ∧ 2 ≤ (away 2).vc ∧ (away 2).ordered = false ∧
      ((torusDemo.bump (Key.at Key.rxFlits 0) (packetFlits (away 2))).productive 1).filter
        (torusDemo.bump (Key.at Key.rxFlits 0) (packetFlits (away 2))).portUp ≠ []) ∧
    ((torusDemo.fabric.held[0]?).isSome = true ∧ (torusDemo.unhold 0).escapePort 1 = some (0, false)) ∧
    (torusDemo.obj Key.timeParentPort < 6 ∧ torusDemo.fabric.holdover = false) ∧
    (torusDemo.inTorus 0 = true ∧ torusDemo.inTorus 1 = true ∧ torusDemo.obj Key.timeRootEligible ≠ 0) := by decide +kernel

/-- What is timed at a port, before its time and after it; and a port that gives credit, to a child that asks the time. -/
theorem witness_PortsAndTimeComplete_due :
    (torusDemo.routerOn = true ∧ ({ torusDemo with power := { torusDemo.power with st := .lantern } } : State).routerOn = false) ∧
    ((atTime (10 ^ 9) torusDemo).passed (tmPort 1) 10000000 = true ∧ (atTime (10 ^ 9) torusDemo).passed (tmPort 1) 100000000 = true ∧
      torusDemo.passed (tmPort 1) 10000000 = false ∧ ((torusDemo.setPort 1 { st := .miswired }).port 1).st = .miswired) ∧
    ((atTime (10 ^ 9) torusDemo).windowBegun tmExchange 1000000 = true ∧ torusDemo.windowBegun tmExchange 1000000 = false ∧
      (atTime (10 ^ 9) torusDemo).passed tmTime 3000000 = true ∧ torusDemo.passed tmTime 3000000 = false) ∧
    ((0 : Nat) ≠ torusDemo.obj Key.timeParentPort ∧ torusDemo.portUp 0 = true) ∧
    ((torusDemo.fabric.held[0]?).elim false (fun h => decide (h.since + torusDemo.obj Key.escapeWaitNs ≤ 10 ^ 9)
      && decide (0 < h.since + torusDemo.obj Key.escapeWaitNs)) = true) := by decide +kernel

/-- `kvState` with remote access to pitch 0, forwards of a line, and a request outstanding at a router. -/
def reached : State := { kvState 0 0 with
  dict := [(Key.at Key.remoteAccess 0, 3), (Key.at Key.inboxEntries 0, 1), (Key.at Key.inboxEntryBytes 0, 64)] }
def waitingOp : State := { jobState [9] false with
  tier := { demo.tier with tags := [{ tag := 9, holder := .engine 0, write := false, pitch := 0, slot := 0, addr := 0, fabric := true }] }
  fabric := { ops := [{ tag := 9, slot := 0, send := { pkt := { kind := .readReq, len := 64 } } }] } }

/-- A byte written, and a byte read, at address 0 of pitch 0. -/
def writeOne : Packet := { kind := .write, payload := [7], len := 1 }
def readOne : Packet := { kind := .readReq, len := 1, last := true }
/-- Line 192 of cluster 0 is forwarded, with one pulse queued. -/
def forward192 : Forward := { line := 192, unit := {}, destLine := 255, queued := 1 }
def forwarding : State := (kvState 0 0).modCluster 0 (fun c => { c with forwards := [forward192] })
/-- `reached` with its one inbox entry held. -/
def kvDemoFull : State := reached.modPitch 0 (fun r => { r with inboxHeld := [(0, [({}, 0)])] })
/-- The state once a router's tag is taken. -/
def tagged (write : Bool) : State := ((reached.takeTag .router write false 0 0 0).map (·.2)).getD demo
/-- The data of a read at its destination. -/
def placed : Moved := waitingOp.placeRead 0 { pkt := { kind := .readReq, len := 64 } } (List.replicate 64 0)

theorem witness_PacketsComplete_served :
    (reached.takesNow writeOne = true ∧ reached.tier.journalReplayed = true ∧ reached.remoteRefusal writeOne 0 (expandPacket writeOne).length = none ∧
      (reached.takeTag .router true false 0 0 0).isSome = true ∧ ((tagged true).writeState 0 0 (expandPacket writeOne) .router).2 = none) ∧
    reached.remoteRefusal { writeOne with addr := 1048576 } 0 1 = some fcAddress ∧
    (reached.remoteRefusal readOne 1 readOne.len = none ∧ (reached.takeTag .router false false 0 0 0).isSome = true ∧
      ((tagged false).readState 0 0 1 .router).2.2 = none) ∧
    (reached.takesNow { kind := .msg } = true ∧ reached.tagCurrent 0 = true ∧ reached.unitCurrent {} = true ∧
      (tabGet (reached.pitch 0).inboxHeld 0 []).length < reached.obj (Key.at Key.inboxEntries 0) ∧
      ({ kind := .msg } : Packet).len + 64 ≤ reached.obj (Key.at Key.inboxEntryBytes 0)) ∧
    kvDemoFull.obj (Key.at Key.inboxEntries 0) ≤ (tabGet (kvDemoFull.pitch 0).inboxHeld 0 []).length ∧
    overlap (192, 1) ((reached.pitch 0).fabRange (clusterOfSlot 0)) = true ∧ reached.unitCurrent { slot := 1 } = false ∧
    (6143 : Nat) < 6144 := by decide +kernel

theorem witness_PacketsComplete_answered :
    (waitingOp.fabricTag 9 = true ∧ (waitingOp.opOf { kind := .writeAck, tag := 9 }).isSome = true ∧ (waitingOp.jobOfTag 0 9).isSome = true ∧
      waitingOp.tagCurrent 0 = true) ∧
    (placed.err = none ∧ placed.stall = none ∧ ((placed.s.answered 0 9).jobOf 0 .xfr).isSome = true) ∧
    (demo.fabricTag 0 = false ∧ demo.unitCurrent {} = true) ∧
    ((forwarding.cluster 0).forwards.find? (·.line == 192) = some forward192 ∧ forwarding.lineOwner 0 192 = some 0 ∧
      forwarding.cutStops 0 = false ∧ (match (forwarding.unqueue 0 192).inject 0 (forwarding.forwardPacket 0 0 forward192) with
        | .sent _ => true
        | _ => false) = true) ∧
    cmdMeets (kvState 0 0) (Key.at Key.eventForwardDefine 0) rkOperator (natLe 8 (desc [(0, 195), (47, 255)])) (okEventForward 0) = true ∧
    cmdMeets forwarding (Key.at Key.eventForwardRemove 0) rkOperator [192] (fun s _ v => (s.cluster 0).forwards.any (fun f => f.line == leNat v))
      = true ∧
    cmdMeets demo Key.encStreamAssign rkOperator (natLe 4 63) (fun s _ v => onlyBits (leNat v) [(5, 0), (12, 8), (15, 15)]
      && !bit (leNat v) 15 && (s.pitch (field (leNat v) 12 8)).st != .free) = true ∧
    cmdMeets demo Key.encStreamAssign rkOperator (natLe 4 (2 ^ 15 + 63)) (fun _ _ v => onlyBits (leNat v) [(5, 0), (12, 8), (15, 15)]
      && bit (leNat v) 15) = true ∧
    cmdMeets demo Key.encCountersClear rkOperator [63] (fun _ _ v => decide (leNat v < 64)) = true := by decide +kernel

/-- `torusDemo` in which pitch 0 has credit for the data classes, and a class of port 0 nearly full of its flits. -/
def crowded (flits : Nat) : State := { torusDemo with
  pitches := (prog 0 0).pitches
  fabric := { torusDemo.fabric with inFlight := [{ port := 0, cls := 1, pitch := 0, flits }] } }
def sendOut : Packet := { kind := .write, dstModule := 1, vc := 3 }
/-- `reached` with an ordered packet that waits, or in DOZE. -/
def queued : State := { reached with fabric := { reached.fabric with arrivals := [{ writeOne with ordered := true }] } }
def dozing : State := { reached with power := { reached.power with st := .doze } }

theorem witness_PacketsComplete_waiting :
    reached.forHere { writeOne with dstModule := 1 } = false ∧ (dozing.forHere writeOne = true ∧ dozing.power.st = .doze) ∧
    (queued.arrives { writeOne with ordered := true } = true ∧ queued.behind { writeOne with ordered := true } = true ∧
      queued.takesNow writeOne = true) ∧ queued.fabric.arrivals = { writeOne with ordered := true } :: [] ∧
    (reached.remoteRefusal writeOne 0 1 = none ∧ ({ reached with tier := { reached.tier with journalReplayed := false } } : State).takesNow writeOne = true) ∧
    (reached.tagCurrent 1 = false ∧ waitingOp.takesNow { kind := .readData, tag := 9, poison := true } = true) := by decide +kernel
theorem witness_PacketsComplete_credit :
    ((crowded 0).route sendOut.dstModule sendOut.ordered sendOut.vc = some (0, 3, false) ∧ ((crowded 0).emit? sendOut).isSome = true) ∧
    allotted .write 0 3 = true ∧ (crowded 0).flitsOut 0 1 0 + packetFlits sendOut ≤ (crowded 0).allocation 0 1 ∧
    (crowded 256).allocation 0 1 < (crowded 256).flitsOut 0 1 0 + packetFlits sendOut := by
  have h : sortBy id (((crowded 0).productive 1).filter (crowded 0).portUp) = [0] := by decide +kernel
  have hr : (crowded 0).route 1 false 3 = some (0, 3, false) := by
    have h0 : ¬ (1 : Nat) = (crowded 0).moduleId := by decide +kernel
    simp [State.route, h, h0, Nat.mod_one]
  refine ⟨⟨hr, ?_⟩, by decide +kernel⟩
  have hs : (crowded 0).route sendOut.dstModule sendOut.ordered sendOut.vc = some (0, 3, false) := hr
  simp [State.emit?, hs]

/-! ### Collectives and cuts -/

/-- Module 0 of `torusDemo` in group 63 over both modules, whose root is `root`, with a command of 4 B in progress. -/
def groupRecord (root : Nat) : List Byte := natLe 16 (desc [(15, 1), (40, root), (64, 64)])
def coll0 (cop : Nat) : CollOp := { group := 63, seq := 0, slot := 0, pitch := 0, cop, len := 4 }
def grouped (root cop : Nat) : State := { torusDemo with
  fabric := { torusDemo.fabric with groups := [(63, { st := 1, record := groupRecord root, nextSeq := 1 })], colls := [coll0 cop] } }
/-- A contribution of the child, and a result of the parent. -/
def up4 (seq : Nat) : Packet := { kind := .collUp, srcUnit := { module := 1 }, group := 63, seq, len := 4, payload := [0, 0, 0, 0], last := true }
def down4 : Packet := { up4 0 with kind := .collDown }

theorem witness_CollectivesAndCutsComplete_tree :
    ((grouped 0 0).treePacket (up4 0) = true ∧ ((grouped 0 0).treeChildren ((grouped 0 0).group 63)).contains 1 = true ∧
      ((grouped 0 0).contribute 1 (contributionOf (up4 0))).isSome = true ∧ (grouped 0 0).collAt 63 0 = some (coll0 0) ∧
      (coll0 0).differs (contributionOf (up4 0)) = false) ∧
    (((grouped 0 0).contribute 1 (contributionOf (up4 1))).isSome = true ∧ (grouped 0 0).collAt 63 1 = none ∧
      (grouped 0 0).collPast 63 1 = false) ∧
    ((grouped 1 0).treePacket down4 = true ∧ (grouped 1 0).treeParent ((grouped 1 0).group 63) (grouped 1 0).moduleId = some 1 ∧
      (grouped 1 0).collAt 63 0 = some (coll0 0) ∧ ((((grouped 1 0).collSend (coll0 0) ((grouped 1 0).resultDown (coll0 0) down4)).collResult
        (coll0 0) 0 (some (down4.payload.take ((coll0 0).bytesAt 0)))).isSome = true)) ∧
    ((grouped 0 0).group 63).st = 1 ∧
    ((grouped 1 9).collOf 63 = some (coll0 9) ∧ ((grouped 1 9).group 63).root ≠ (grouped 1 9).moduleId ∧
      ((((grouped 1 9).collSend (coll0 9) ((grouped 1 9).broadcastDown (coll0 9) [1, 2, 3, 4])).collResult { coll0 9 with len := 1 } 0
        (some (swapBytes (coll0 9).rop (([1, 2, 3, 4] : List Byte).take (coll0 9).len)))).isSome = true)) := by decide +kernel

/-- What waits for the member's own command, or is of a stale tag; a contribution that differs; and a result that is poisoned. -/
theorem witness_CollectivesAndCutsComplete_waiting :
    ((grouped 0 0).takesNow (up4 0) = true ∧ (grouped 0 0).treePacket { up4 0 with tenant := 1 } = false ∧
      (grouped 0 0).tagCurrent 1 = false) ∧
    ((coll0 0).differs (contributionOf { up4 0 with len := 2, payload := [0, 0] }) = true ∧ ((grouped 0 0).group 63).root = (grouped 0 0).moduleId) ∧
    ((({ grouped 0 0 with fabric := { (grouped 0 0).fabric with reductions := List.replicate 64 { (contributionOf (up4 9)) with group := 63, seq := 9 } } }
      : State).contribute 1 (contributionOf (up4 1))).isNone = true) ∧
    ((grouped 1 0).takesNow down4 = true ∧ (grouped 1 0).collAt 63 1 = none ∧ (grouped 1 0).collPast 63 1 = false) ∧
    ((grouped 0 0).groupTagOk 63 0 = true ∧ (grouped 1 0).collOf 62 = none) := by decide +kernel

theorem witness_CollectivesAndCutsComplete_cuts :
    (demo.setCut (some { tenant := 0, fence := false })).fabric.cut = some { tenant := 0, fence := false } ∧ demo.fabric.cut = none ∧
    cmdMeets demo Key.fabricReset rkOperator [1] (fun _ _ _ => true) = true ∧
    cmdMeets tenantDemo Key.snapshotStart rkOperator (natLe 8 0) (fun s _ v =>
      decide (leNat v < 64) && (s.tenant (leNat v)).st == .active && s.fabric.cut.isNone) = true ∧
    cmdMeets demo Key.tenantFence rkOperator (natLe 8 (desc [(0, 63), (16, 1023)])) (fun s _ v =>
      onlyBits (leNat v) [(5, 0), (25, 16)] && s.fabric.cut.isNone) = true ∧
    cmdMeets torusDemo (Key.at Key.collGroupDefine 63) rkOperator (groupRecord 1) (okCollGroup 63) = true ∧
    cmdMeets (grouped 0 0) (Key.at Key.collGroupRemove 63) rkOperator [1] (fun s _ _ => (s.group 63).st != 0) = true := by decide +kernel

/-! ### Error protection -/

/-- An island is down, the log has severe entries to commit. -/
def islandState (k : Nat) : State := { demo with errors := { islandsDown := [k], logDirty := true } }

theorem witness_ErrorsComplete :
    ([0, 1, 2].all (fun cls => decide (cls ≤ 2)) && (List.replicate 64 (255 : Nat)).length == 64) = true ∧
    ((atTime (10 ^ 15) demo).tierOn = true ∧ [0, 3].all (fun c => (atTime (10 ^ 15) demo).scrubPeriod c != 0 && (atTime (10 ^ 15) demo).scrubFrames c != 0
      && decide (((atTime (10 ^ 15) demo).scrubPlace c).1 + ((atTime (10 ^ 15) demo).scrubPlace c).2 * (atTime (10 ^ 15) demo).scrubPeriod c
        / (atTime (10 ^ 15) demo).scrubFrames c ≤ 10 ^ 15)) = true) ∧
    (({ demo with errors := { demo.errors with scrub := [(3, 0, 1)] } } : State).scrubPlace 3 = (0, 1) ∧
      0 < 1 * demo.scrubPeriod 3 / demo.scrubFrames 3) ∧
    ((demo.cluster 0).gated = false ∧ demo.errors.islandsDown.contains 48 = false ∧ demo.lanternOn = true ∧
      (atTime (10 ^ 15) demo).passed (tmSweep 0) (1000000 * demo.obj Key.sramSweepMs) = true ∧
      (atTime (10 ^ 15) demo).passed (tmSweep 6) 10000000000 = true) ∧
    (demo.errors.ceWindow < (atTime (10 ^ 15) demo).ceWindowOf (10 ^ 15) ∧ demo.ceWindowOf demo.time ≤ demo.errors.ceWindow) ∧
    (islandState 61).errors.logDirty = true ∧ demo.errors.islandsDown.contains 61 = false ∧
    [47, 53, 54, 55, 59, 61].all (fun k => (islandState k).errors.islandsDown.contains k
      && (atTime (10 ^ 9) (islandState k)).passed (tmIsland k) (awayNs k) && !(islandState k).passed (tmIsland k) (awayNs k)) = true ∧
    demo.errors.islandsDown.contains (coreIndex { cluster := 5, core := 7 }) = false ∧ demo.tier.retiredDies.contains 15 = false ∧
    cmdMeets demo Key.faultLogClear rkOperator [1] (fun _ _ _ => true) = true ∧
    [demo.firstFrame, demo.firstFrame + 262144 * demo.granuleCount - 1].all (fun f => cmdMeets demo Key.frameRetire rkOperator (natLe 4 f)
      (fun s _ v => decide (s.firstFrame ≤ leNat v) && decide (leNat v < s.firstFrame + 262144 * s.granuleCount)
        && !s.isRetired Key.frameRetire (leNat v))) = true ∧
    cmdMeets demo Key.lpddrBankRetire rkOperator (natLe 2 511) okBankRetire = true ∧
    cmdMeets demo Key.sramBankRetire rkOperator (natLe 2 (63 + 5 * 256)) (fun s _ v =>
      onlyBits (leNat v) [(5, 0), (10, 8)] && decide (leNat v / 256 < 6) && !s.isRetired Key.sramBankRetire (leNat v)) = true ∧
    cmdMeets demo Key.coreRetire rkOperator [47] (fun s _ v => decide (leNat v < 48) && !s.isRetired Key.coreRetire (leNat v)) = true ∧
    cmdMeets demo Key.flashDieRetire rkOperator [15] (fun s _ v => decide (leNat v < 16) && !s.isRetired Key.flashDieRetire (leNat v)) = true := by
  decide +kernel
theorem witness_ErrorsComplete_signed : signedMeets demo Key.retireClear [1] = true := by decide +kernel

/-- R646 to R648: the class S code of a line is a word of the code (its syndromes are 0), has 8 check symbols, and four wrong bytes are
corrected where five are not; CRC-8 of 0x07, from 0 and not inverted, of "123456789" would be 0xF4 (its published check value). -/
theorem test_line_codes :
    let line := (List.range 64).map (fun i => (37 * i + 11) % 256)
    let word := line ++ checkSymbols 8 line
    let spoil := fun (n : Nat) => word.zipIdx.map (fun e => if e.2 < n then e.1 ^^^ 0xFF else e.1)
    (List.range 8).all (fun i => polyAt word (alphaPow i) == 0) = true ∧ word.length = 72 ∧ correctsTo 0 (spoil 4) line = true ∧
    correctsTo 0 (spoil 5) line = false ∧ readLine 0 (codeLine 0 line true) = .marked ∧
    ([0x31, 0x32, 0x33, 0x34, 0x35, 0x36, 0x37, 0x38, 0x39].foldl crcStep 0) = 0xF4 := by decide +kernel

/-! ### The security island -/

/-- FIPS 197, appendix C.3: AES-256 of its block under its key, and back. -/
theorem test_aes256_example :
    let key := List.range 32
    let plain := (List.range 16).map (fun i => 0x11 * i)
    let out := [0x8e, 0xa2, 0xb7, 0xca, 0x51, 0x67, 0x45, 0xbf, 0xea, 0xfc, 0x49, 0x90, 0x4b, 0x49, 0x60, 0x89]
    aesEncrypt (roundKeys key) plain = out ∧ aesDecrypt (roundKeys key) out = plain := by decide +kernel
/-- IEEE 1619, vector 10 (XTS-AES-256, data unit 0xff): its first two blocks. -/
theorem test_xts_example :
    let key := (natBe 32 0x2718281828459045235360287471352662497757247093699959574966967627
      ++ natBe 32 0x3141592653589793238462643383279502884197169399375105820974944592).map (·.toNat)
    let out := (natBe 32 0x1c3b3a102f770386e4836c99e370cf9bea00803f5e482357a4ae12d414a3e63b).map (·.toNat)
    ((xtsEncrypt key 0xFF (List.range 64)).take 32 == out) = true := by decide +kernel

/-- `demo` with a security island of its own. -/
def guarded (k : Security) : State := { demo with sec := k }
/-- Tenant 63 is active; entry 4,095 is its key of epoch 1 in state `st`. -/
def entry1 (st : KeyState) (due : Bool) : KeyEntry := { st, epoch := 1, tenant := 63, material := 1, due }
def keyed (st : KeyState) (due : Bool) : State :=
  { guarded { tenants := [(63, { st := .active, retentionDays := 3650 })], keys := [(4095, entry1 st due)], storeDirty := true } with
    mgmt := { demo.mgmt with calendarValid := true } }
/-- A SessionOpen record of the OPERATOR, its peer key and signature zero. -/
def offer : List Byte := 0x81 :: List.replicate 487 0
def offered : State := guarded { roleKeys := [(0x81, [1])], ephemeral := some 5 }

theorem witness_SecurityComplete_sessions :
    cmdMeets demo Key.attestRequest rkAny (List.replicate 32 0) (fun s _ v => v.length == 32 && !s.sec.attestBusy) = true ∧
    ((guarded { attestBusy := true }).sec.attestBusy = true ∧ (guarded { attestBusy := true }).islandOn = true) ∧
    cmdMeets offered Key.sessionOpen rkAny offer (fun s _ v => sessionOffered s v [1] 5) = true ∧
    cmdMeets (guarded { sessions := [{ id := 7, role := 0x81, path := .usb2 }] }) Key.sessionClose rkTenant (natLe 4 7) (fun s c v =>
      (decide (rkOperator ≤ c.role.rank) || c.session == leNat v) && leNat v != 0 && s.sec.sessions.any (·.id == leNat v)) = true ∧
    (signedMeets demo Key.debugUnlock [1] = true ∧ (demo.asked mb).redrawNonce.sec.confidential = false ∧
      (demo.asked mb).redrawNonce.sec.tenants.any (fun e => e.2.st == .active) = false) ∧
    signedMeets demo Key.rollbackAdvanceNow [1] = true ∧ demo.power.st ≠ .stowed ∧ demo.power.st ≠ .off := by decide +kernel

theorem witness_SecurityComplete_tenants :
    cmdMeets (keyed .read false) Key.tenantCreate rkOperator (natLe 8 (62 + 2 ^ 16 * 1 + 2 ^ 32 * 85500) ++ List.replicate 388 0) okTenantCreate
      = true ∧
    [0, 256].all (fun b => cmdMeets (keyed .read false) Key.tenantRemove rkOperator (natLe 2 (63 + b)) (fun s _ v =>
      onlyBits (leNat v) [(5, 0), (8, 8)] && bit (leNat v) 8 == (b == 256) && (s.tenant (field (leNat v) 5 0)).st == .active)) = true ∧
    scalarMeets (keyed .read false) (Key.at Key.retentionDays 63) rkTenant (natLe 2 3650) (fun s c n =>
      c.reaches 63 && (s.tenant 63).st == .active && decide ((s.tenant 63).retentionDays ≤ n)
        && decide (s.keyReserve (· != 63) + n + 3 ≤ 4032)) = true ∧
    cmdMeets (keyed .read false) Key.epochExpire rkTenant (natLe 4 (63 + 2 ^ 12)) (fun s c v => epochNames v == some (63, 1) && c.reaches 63
      && ((s.ownRoll 63).keysOf 63).find? (fun x => x.2.epoch == 1 && (if 1 = standingEpoch then x.2.st == .write else x.2.st == .read))
        == some (4095, entry1 .read false)) = true ∧
    cmdMeets (keyed .write false) Key.rekeyStart rkTenant (natLe 4 (63 + 2 ^ 12)) (fun s c v => epochNames v == some (63, 1) && c.reaches 63
      && ((s.ownRoll 63).keysOf 63).find? (fun x => x.2.epoch == 1 && (x.2.st == .write || x.2.st == .read)) == some (4095, entry1 .write false)
      && (s.ownRoll 63).rekeyAllowed 63 1 (entry1 .write false) && ((s.ownRoll 63).startRekey 63 1 4095 (entry1 .write false)).isSome) = true := by decide +kernel

theorem witness_SecurityComplete_keys :
    (((keyed .rekeyOld false).keysOf 63).find? (fun x => x.2.st == .rekeyOld && !x.2.due && !(keyed .rekeyOld false).sweepLeft x.1) = some (4095, entry1 .rekeyOld false) ∧
      (keyed .rekeyOld false).tierOn = true ∧ ((keyed .rekeyOld false).tenant 63).st = .active) ∧
    (((keyed .write false).tenant 63).rollDelayed = false ∧ ((keyed .write false).keysOf 63).any (fun x => x.2.st == .pending) = false ∧
      (keyed .write false).writeKey 63 false = some (4095, entry1 .write false)) ∧
    (((keyed .write false).setTenant 63 { st := .active, rollDelayed := true }).tenant 63).rollDelayed = true ∧
    ((keyed .read true).sec.fence = none ∧ (keyed .read true).dueFences.head? = some 4095 ∧ (keyed .read true).islandOn = true) ∧
    ((((keyed .fenced true).modSec (fun k => { k with fence := some 4095 })).sec.fence = some 4095) ∧
      (keyed .fenced true).fencedEntries 4095 = [4095] ∧ (keyed .fenced true).openReferences [4095] = []) ∧
    (keyed .read false).sec.storeDirty = true := by decide +kernel

/-- `demo` having run for `ns`. -/
def ranFor (ns : Nat) : State := { demo with timers := [(tmRun, ns)] }
/-- A fence of entry 4,095 begun at 0, and a read under it that is still out. -/
def fenceOpen (ns : Nat) : State := atTime ns ({ keyed .fenced true with
  tier := { demo.tier with
    pages := [{ id := 3, owner := some 0, addr := 0, sizeLog2 := 0, tier := .b, keyIndex := 4095 }]
    tags := [tag0 0 false] } }.modSec (fun k => { k with fence := some 4095 }))

theorem witness_SecurityComplete_due :
    ((4294967295 : Nat) < 2 ^ 32 ∧ (65535 : Nat) < 2 ^ 16 ∧ (281474976710655 : Nat) < 2 ^ 48) ∧
    demo.sec.ephemeralStamp + 60000000000 ≤ (atTime 60000000000 demo).time ∧ (atTime 59999999999 demo).time < 60000000000 ∧
    600000000000 ≤ tabGet (ranFor 600000000000).timers tmRun 0 ∧ tabGet (ranFor 599999999999).timers tmRun 0 < 600000000000 ∧
    (fenceOpen 0).openReferences ((fenceOpen 0).fencedEntries 4095) ≠ [] ∧ (fenceOpen 0).islandOn = true ∧
    (let cut := (fenceOpen 0).sec.fenceStart + 1000 * (fenceOpen 0).obj Key.expiryDrainUs;
      cut ≤ (fenceOpen 10000000).time ∧ (fenceOpen (cut - 1)).time < cut) := by decide +kernel

/-! ### Power -/

/-- `demo` with a power controller of its own. -/
def powered (p : Power) : State := { demo with power := p }
/-- `demo` in DOZE's and LANTERN's conditions: every cluster gated, and floor `k`. -/
def resting (k : Nat) : State := { withObjs [(Key.powerFloor, k), (Key.wakeAt, 5)] with
  clusters := gatedClusters, slots := [], tier := { demo.tier with tags := [] } }
/-- A request for a state, in 4 B. -/
def wish (k : Nat) : List Byte := [BitVec.ofNat 8 k]

theorem witness_PowerComplete_requests :
    [1, 2, 3].all (fun k => cmdMeets demo Key.powerStateRequest rkOperator (wish k) (fun s _ v =>
      decide (1 ≤ leNat v) && decide (leNat v ≤ 3) && !(leNat v == 3 && s.obj Key.powerEntryMethod == 1))) = true ∧
    cmdMeets demo Key.powerStateRequest rkOperator (wish 4) (okEntryRequest 4) = true ∧
    cmdMeets demo Key.powerStateRequest rkOperator (wish 5) (okEntryRequest 5) = true ∧
    (resting 2).dozeReady = true ∧ (resting 3).lanternReady = true ∧ demo.power.st = .active ∧ (resting 1).clusterParked 5 = true := by
  decide +kernel
theorem witness_PowerComplete_steps :
    ((powered { entry := some .off, entryStep := 7 }).power.entry = some .off ∧ (powered { entry := some .stowed, entryStep := 6 }).power.heldWake = false ∧
      demo.pitches.any (fun e => e.2.st == .teardown) = false) ∧
    ((powered { st := .doze }).power.st = .doze ∧ (powered { st := .lantern }).power.warm = false ∧ (keyed .read true).dueFences ≠ [] ∧
      (stageState (some 2) none).listen.stageWaking.isSome = true) ∧
    ((powered { returning := some .lantern, returnStep := 1, vin := true }).power.vin = true ∧
      (powered { returning := some .doze, returnStep := 6, returnClusters := [5, 0] }).nextReturning = some 0 ∧
      (powered { returning := some .doze, returnStep := 6 }).nextReturning = none) ∧
    ((resting 1).obj Key.wakeAt ≠ 0 ∧ ({ resting 1 with time := 5000000000 } : State).calendarNow = 5 ∧
      (powered { st := .stowed, vlnt := true }).calendar < 5) ∧
    (demo.obj Key.powerCapMw < 4294967295 ∧ 10 * 0 < 9 * demo.obj Key.powerCapMw ∧ 9 * demo.obj Key.powerCapMw ≤ 10 * demo.obj Key.powerCapMw) ∧
    demo.errors.islandsDown.contains 59 = false := by decide +kernel
theorem witness_PowerComplete_supplies :
    ((powered { st := .lantern, vin := false }).power.vin = false ∧ (powered { st := .off, vin := false }).power.st ≠ .lantern) ∧
    ((powered { vin := true, st := .stowed }).power.st = .stowed ∧ demo.power.vin = true ∧ demo.power.st ≠ .off) ∧
    ((powered { vlnt := false, st := .stowed, resetN := true, refclk := true }).power.refclk = true ∧
      (powered { vlnt := false, vin := false, st := .off, resetN := true, refclk := true }).power.vin = false) ∧
    ((powered { vlnt := true, vin := false, st := .lantern }).power.st = .lantern ∧ (powered { vcal := true }).power.vcal = true ∧
      (powered { refclk := false }).power.refclk = false ∧ (powered { booted := false, refclk := true }).power.booted = false) := by decide +kernel

/-- A core of cluster 5 that runs, at DIV 3. -/
def railDemo : State := demo.modCore 47 (fun c => { c with mode := 3 * 256 })

theorem witness_PowerComplete_due :
    [1, 2, 3, 4, 5, 6, 7].all (fun n =>
      let p : Power := { returning := some .lantern, returnStep := n, vin := true }
      (atTime (returnDelay n) (powered p)).passed tmReturn (returnDelay n)
        && !(atTime (returnDelay n - 1) (powered p)).passed tmReturn (returnDelay n)) = true ∧
    (demo.windowBegun tmCap 1000000 = false ∧ (atTime 1000000 demo).windowBegun tmCap 1000000 = true) ∧
    (demo.windowBegun tmThermal 1000000 = false ∧ (atTime 9999999 demo).windowBegun tmThermal 1000000 = true ∧
      (atTime 9999999 demo).windowBegun tmThermalTen 10000000 = false ∧ (atTime 10000000 demo).windowBegun tmThermalTen 10000000 = true) ∧
    (demo.windowBegun tmLifetime 600000000000 = false ∧ (atTime 600000000000 demo).windowBegun tmLifetime 600000000000 = true) ∧
    (railDemo.coreRuns 47 = true ∧ (List.range 8).all (fun k => !railDemo.coreRuns (40 + k)
      || decide (field (railDemo.core 47).mode.toNat 10 8 ≤ field (railDemo.core (40 + k)).mode.toNat 10 8)) = true) := by decide +kernel

/-! ### The dictionary and segments -/

/-- The header of an operation on an object. -/
def headOf (op key : Nat) (param : Nat := 0) : Head := { op, index := key / 256, sub := key % 256, param }
/-- A response kept for a READ of PowerCapMw. -/
def keptRead : Kept := { path := .mailbox 0, session := 0, requestId := 0, op := 1, index := Key.powerCapMw / 256, sub := Key.powerCapMw % 256
                         offset := 0, stamp := 0, response := [1] }
/-- The last moment within 2 s of it, and 2 s after it. -/
def repeated (t : Nat) : State := { demo with time := t, mgmt := { demo.mgmt with kept := [keptRead] } }
def sub1 : Subscription := { number := 1, path := .mailbox 0, session := 0, interval := 100, next := 1, objects := [Key.powerCapMw] }
/-- A requester with a subscription; another after 100 ms; and a command that runs on. -/
def subscribed (t : Nat) : State := { demo with time := t, mgmt := { demo.mgmt with subs := [sub1] } }
def runsOn (session : Nat) : State := { demo with mgmt := { demo.mgmt with inProgress := [({ path := .mailbox 0, session }, 256 * 0x1000 + 1)] } }

theorem witness_DictionaryComplete_writes :
    servesMeets demo (headOf 1 Key.powerCapMw) (fun s c => match s.readValue c (Key.powerCapMw / 256) (Key.powerCapMw % 256) 0 with
      | .ok w => w == natLe 4 (s.obj Key.powerCapMw)
      | .error _ => false) = true ∧
    (objRow Key.powerCapMw).elim false (fun row => servesMeets demo (headOf 2 Key.powerCapMw)
      (okPlainWrite mb (Key.powerCapMw / 256) (Key.powerCapMw % 256) 0 false (natLe 4 (demo.obj Key.profileCapMw)) row)) = true ∧
    [0, 4, 255].all (fun p => (objRow Key.powerCapMw).elim false (fun row => servesMeets demo (headOf 3 Key.powerCapMw p)
      (okNvWrite mb (Key.powerCapMw / 256) (Key.powerCapMw % 256) p 0 false (natLe 4 (demo.obj Key.profileCapMw)) row
        ((nvParam demo.profile p).getD 9)))) = true ∧
    servesMeets demo { op := 2, index := 0x3A00, sub := 2 } (fun s c => decide (rkOperator ≤ c.role.rank)
      && s.onePiece mb Key.tagsHighWater 0 false [0, 0, 0, 0]) = true ∧
    servesMeets demo (headOf 4 Key.powerCapMw) (fun s c => s.redrawNonce.writeGate { c with role := .vendor } (Key.powerCapMw / 256)
      (Key.powerCapMw % 256) == stOk) = true := by decide +kernel

theorem witness_DictionaryComplete_others :
    servesMeets demo { op := 5, index := Key.powerCapMw / 256, param := 255 } (fun _ c => decide (rkOperator ≤ c.role.rank)
      && !(rowsOf (Key.powerCapMw / 256)).isEmpty) = true ∧
    servesMeets demo { op := 6 } (okSubscribe (natLe 4 100 ++ natLe 2 (Key.powerCapMw / 256) ++ natLe 2 (Key.powerCapMw % 256)) [Key.powerCapMw]
      [natLe 4 (demo.obj Key.powerCapMw)]) = true ∧
    servesMeets (subscribed 0) { op := 7, param := 1 } (fun s c => c.role != .none && s.mgmt.subs.any (fun x => x.number == 1 && x.isOf c)) = true ∧
    servesMeets demo { op := 8 } (fun _ c => c.role != .none) = true ∧ servesMeets demo { op := 9 } (fun _ _ => true) = true ∧
    ((repeated 1999999999).mcOn = true ∧ ((repeated 1999999999).countSegment mb.path).isProxied mb = false ∧
      ((repeated 1999999999).countSegment mb.path).keptFor mb (headOf 1 Key.powerCapMw) = some keptRead) ∧
    (((repeated 2000000000).countSegment mb.path).keptFor { mb with session := 9 } (headOf 1 Key.powerCapMw) = none ∧
      ((repeated 2000000000).countSegment mb.path).callerOf { mb with session := 9 } = none) := by decide +kernel

/-- A manager, a worker with its segment up or down, and a manager with a request forwarded to module 1. -/
def manager : State := withObjs [(Key.segmentRole, 1)]
def worker (up : Bool) : State := { withObjs [(Key.segmentRole, 2)] with mgmt := { demo.mgmt with segmentUp := up } }
def carried : Proxied := { worker := 1, requestId := 3, path := .mailbox 0, onSegment := false, header := List.replicate 24 0 }
def carrying : State := { manager with mgmt := { manager.mgmt with proxied := [carried] } }
/-- A READ of 24 B for a module. -/
def readFrame (target flags : Nat) : List Byte := frameHeader flags 24 0 3 target 1 0 0 0 0 0

theorem witness_SegmentsComplete_due :
    [9999999999, 10000000000].map (fun t => (atTime t { demo with mgmt := { demo.mgmt with staged :=
      [{ path := .mailbox 0, index := Key.powerCapMw / 256, sub := Key.powerCapMw % 256, data := [], session := 0, stamp := 0 }] } }).mgmt.staged.any (fun x =>
        x.isAt mb Key.powerCapMw && decide (x.stamp + 10000000000 ≤ t))) = [false, true] ∧
    (let due := 1000000 * manager.obj Key.segmentHeartbeatMs;
      0 < due ∧ [due - 1, due].map (fun t => (atTime t manager).passed tmBeat due) = [false, true]) ∧
    (let late := 1000000 * carrying.obj Key.proxyTimeoutMs;
      carried.since + late ≤ (atTime late carrying).time ∧ (atTime (late - 1) carrying).time < carried.since + late ∧ 0 < late) := by
  decide +kernel
theorem witness_SegmentsComplete :
    ((runsOn 0).mgmt.inProgress.find? (·.2 == 256 * 0x1000 + 1)).isSome = true ∧ stOk ≠ stInProgress ∧
    ((runsOn 9).mgmt.inProgress.find? (·.2 == 256 * 0x1000 + 1)).isSome = true ∧ (runsOn 9).sec.sessions.any (·.id == 9) = false ∧
    ((subscribed 100000000).mcOn = true ∧ (subscribed 100000000).mgmt.subs.find? (·.number == 1) = some sub1 ∧
      sub1.next ≤ windowOf sub1.interval (subscribed 100000000).time) ∧
    (manager.mcOn = true ∧ manager.isManager = true ∧ (worker true).isManager = false ∧ (worker true).isWorker = true ∧
      (worker true).mgmt.segmentUp = true ∧ (worker false).mgmt.segmentUp = false) ∧
    (carrying.mgmt.proxied.find? (·.is 1 3) = some carried ∧ carried.onSegment = false ∧ carrying.mcOn = true) ∧
    (24 ≤ (readFrame 0 1).length ∧ bit (frameHead (readFrame 0 1)).flags 0 = true ∧ bit (frameHead (readFrame 0 0)).flags 0 = false ∧
      (frameHead (readFrame 0 0)).op = 1 ∧ (frameHead (readFrame 0 0)).length = (readFrame 0 0).length ∧
      demo.isProxied ((frameHead (readFrame 5 0)).req (.guyline 1)) = true ∧
      demo.isProxied ((frameHead (readFrame 0 0)).req (.guyline 1)) = false) := by decide +kernel

/-! ### Field update and management -/

/-- `demo` with an update of 1,025 B staged or armed. -/
def updating (st : Nat) (pieces : Tab (List Byte)) : State := { demo with
  update := { st, packageLen := 1025, target := List.replicate 32 0, pieces } }
/-- A NV image that stores a cap in section 4. -/
def capRecords : List NvRecord := [{ section_ := 4, key := Key.powerCapMw, value := natLe 4 1 }]

theorem witness_UpdateAndManagementComplete_update :
    [129, 16777216].all (fun n => cmdMeets demo Key.updateBegin rkOperator (natLe 8 n ++ List.replicate 32 0) okUpdateBegin) = true ∧
    [(0, 1024), (1024, 1)].all (fun p => servesMeets (updating 1 []) { headOf 2 Key.updatePiece with offset := p.1 } (fun s c =>
      decide (rkOperator ≤ c.role.rank) && (s.update.st == 1 || s.update.st == 2) && p.1 % 1024 == 0
        && decide (p.1 < s.update.packageLen) && (List.replicate p.2 (0 : Byte)).length == s.update.pieceLen (p.1 / 1024)
        && (tabFind s.update.pieces (p.1 / 1024)).isNone)) = true ∧
    servesMeets (updating 1 [(1, [0])]) { headOf 2 Key.updatePiece with offset := 1024 } (fun s c =>
      decide (rkOperator ≤ c.role.rank) && s.update.st == 1 && decide (1024 < s.update.packageLen) && s.update.pieceLen 1 == 1
        && (tabFind s.update.pieces 1).isSome) = true ∧
    [1, 2].all (fun k => cmdMeets (updating 2 []) Key.updateActivate rkOperator [BitVec.ofNat 8 k] (fun s _ v =>
      v == [BitVec.ofNat 8 k] && s.update.st == 2)) = true ∧
    ({ demo with mgmt := { demo.mgmt with resetScheduled := true } } : State).mgmt.resetScheduled = true ∧
    ((atTime 100000000 demo).passed tmActivate 100000000 = true ∧ (atTime 99999999 demo).passed tmActivate 100000000 = false) ∧
    (60000000000 ≤ tabGet (ranFor 60000000000).timers tmRun 0 ∧ tabGet (ranFor 59999999999).timers tmRun 0 < 60000000000 ∧
      (updating 4 []).mcOn = true) ∧
    [1, 2, 3].all (fun st => cmdMeets (updating st []) Key.updateCancel rkOperator [1] (fun s _ _ =>
      ([1, 2, 3] : List Nat).contains s.update.st)) = true ∧
    ((updating 4 []).update.st = 4 ∧ (updating 4 []).power.st = .active) := by decide +kernel

theorem witness_UpdateAndManagementComplete_management :
    [0x80, 0x81].all (fun k => cmdMeets demo Key.roleKeyInstall rkIntegrator (BitVec.ofNat 8 k :: List.replicate 391 0) (fun _ _ v =>
      (leNat (v.take 1) == 0x80 || leNat (v.take 1) == 0x81) && leNat ((v.drop 1).take 3) == 0)) = true ∧
    signedMeets demo Key.roleKeyReset [1] = true ∧
    servesMeets demo (writeHead Key.nvImage) (fun _ c => decide (rkIntegrator ≤ c.role.rank) && nvParse (nvBuild 0 capRecords) == some capRecords
      && capRecords.all (fun x => storable x.key x.section_) && decide ((nvBuild 0 capRecords).length ≤ 262144)) = true ∧
    cmdMeets demo Key.nvClearSection rkIntegrator [4] (fun _ _ v => decide (leNat v ≤ 4)) = true ∧
    cmdMeets demo Key.calendarSet rkOperator (natLe 8 18446744073) okCalendarSet = true := by decide +kernel

/-! ### The host link -/

/-- A host is connected, its window and its channel 3 on pitch 0, and a descriptor of 4 B waits. -/
def linked : State := { kvState 0 0 with
  dict := [(Key.hostDmaPitch + 3, 0)]
  host := { connected := true, usb4En := true, winStatus := 0x80000000, dma := [(26, 4), (27, 1)], mbQueue := [(7, [[1], [2]])] } }
def dmaBytes (dir : Nat) : List Byte := natLe 32 (desc [(64, 65536), (112, dir), (128, 4)])
def linkedAt (st : PowerState) : State := { linked with power := { linked.power with st } }

theorem witness_HostLinkComplete_link :
    (({ demo with host := { usb4En := true } } : State).host.usb4En = true ∧ ({ demo with host := { usb4En := true } } : State).linkIslandOn = true ∧
      ({ demo with host := { usb4En := true } } : State).host.connected = false) ∧
    ((linkedAt .doze).power.st = .doze ∧ (linkedAt .doze).host.connected = true) ∧ demo.linkIslandOn = true ∧
    linked.host.connected = true ∧ tabGet linked.host.mbQueue 0 [] = [] ∧ tabGet linked.host.mbQueue 7 [] = [1] :: [[2]] ∧
    linked.power.entry = none ∧ (0xFFFFFFFF : Word).toNat ≠ 4 ∧ (4 : Word).toNat = 4 ∧
    ({ linked.host with winBaseLo := 0xFFFFFFFF &&& 0xFFE00000 } : HostLink).winBase + 2 ^ 34 ≤ 2 ^ 48 ∧
    ({ linked.host with winBaseHi := 0xFFFB &&& 0xFFFF } : HostLink).winBase + 2 ^ 34 ≤ 2 ^ 48 := by decide +kernel

/-- The host has requests that wait; and the memory path is away, or being left. -/
def asking : State := linked.holdAsk (.bell 15)

theorem witness_HostLinkComplete_gate :
    (linked.host.asks = [] ∧ asking.host.asks ≠ [] ∧ asking.host.connected = true) ∧
    ((linkedAt .doze).hostGate = .hold ∧ ({ linked with power := { linked.power with entry := some .stowed } } : State).hostGate = .refuse) ∧
    (windowRange 0 1 = true ∧ windowRange (2 ^ 34 - 4096) 4096 = true) ∧
    (((linked.passTag .hostLink).readState 0 (linked.host.winBase + 1048572) 4 .host).2 = ([0, 0, 0, 0], none) ∧
      ((linked.passTag .hostLink).writeState 0 (linked.host.winBase + 1048572) [1, 2, 3, 4] .host).2.isNone = true ∧
      ((linked.passTag .hostLink).readState 0 65536 4 .host).2.2 = none ∧
      ((linked.passTag .hostLink).writeState 0 65536 [1, 2, 3, 4] .host).2.isNone = true) := by decide +kernel
theorem witness_HostLinkComplete_window :
    (linked.hostGate = .serve ∧ linked.host.winPitch = some 0 ∧ linked.hostCheck 0 linked.host.winTenant (linked.host.winBase + 1048572) 4 = none ∧
      (linked.readState 0 (linked.host.winBase + 1048572) 4 .host).2 = ([0, 0, 0, 0], none) ∧
      (linked.writeState 0 (linked.host.winBase + 1048572) [1, 2, 3, 4] .host).2.isNone = true) ∧
    (({ linked with host := { connected := true } } : State).hostGate = .serve ∧
      ({ linked with host := { connected := true } } : State).host.winPitch = none) ∧
    scalarMeets linked Key.windowPitch rkTenant [31] (fun s c n => decide (n < 32) && (if s.sec.confidential then
      c.role == .tenant (tenantOfTag (s.pitch n).tenantTag) && (s.pitch n).st != .free
      else decide (rkOperator ≤ c.role.rank))) = true := by decide +kernel

theorem witness_HostLinkComplete_transfers :
    (linked.dmaWaits 3 = true ∧ (dmaDesc (dmaBytes 1)).ok = true ∧ (dmaDesc (dmaBytes 1)).toHost = true ∧ (dmaDesc (dmaBytes 0)).toHost = false ∧
      linked.hostCheck (linked.obj (Key.hostDmaPitch + 3)) (tabGet linked.host.dmaTenant 3 0) 65536 4 = none ∧
      (linked.readState 0 65536 4 .host).2.2 = none ∧ (linked.writeState 0 65536 [1, 2, 3, 4] .host).2.isNone = true ∧
      (dmaDesc (dmaBytes 0)).len = ([1, 2, 3, 4] : List Byte).length) := by decide +kernel

/-! ### Well-formedness: a term that each check refuses -/

def badPacket : Packet := { kind := .write, srcUnit := { slot := 4 } }
/-- Of every kind of packet command, one whose packet is of another kind. -/
def wrongKind (p : Packet) : List Instr := [.write p, .writeAck p, .readReq p, .readData p, .msg p, .msgCredit p, .nack p, .eventPacket p,
  .collUp p, .collDown p]
theorem test_wf_refuses_wrong_kinds : (wrongKind { kind := .guyline }).all (fun i => !i.wf) = true := by decide +kernel
theorem test_wf_refuses_packet_fields :
    ([badPacket, { kind := .write, dstUnit := { module := 32768 } }, { kind := .write, srcUnit := { cluster := 8 } },
      { kind := .write, srcUnit := { core := 8 } }, { kind := .write, srcUnit := { roleEpoch := 65536 } }, { kind := .write, addr := 2 ^ 48 },
      { kind := .write, dstModule := 32768 }, { kind := .write, dstPitch := 32 }, { kind := .write, tenant := 65536 },
      { kind := .write, tag := 131072 }, { kind := .write, vc := 8 }, { kind := .write, code := 256 }, { kind := .write, enc := 16 },
      { kind := .write, rowLen := 8192 }, { kind := .write, rows := 1024 }, { kind := .write, group := 64 }, { kind := .write, seq := 65536 },
      { kind := .write, pktIndex := 4096 }, { kind := .write, cop := 8 }, { kind := .write, rop := 8 }, { kind := .write, gop := 8 },
      { kind := .write, line := 256 }, { kind := .write, creditPeg := 8192 }] : List Packet).all
        (fun p => !(Instr.write p).wf && !(Instr.packetForward 0 p).wf) = true := by decide +kernel
theorem test_wf_refuses_operands :
    ([.donationQuantumExpiry 0 1024, .eventPulseArrive 0 256, .eventForwardSend 0 256, .readResponse 131072 none .clean 0,
      .readResponse 0 (some 256) .clean 0, .readResponse 0 none .clean (2 ^ 36), .writeCommitAck 131072, .quotaStallTimeout 32,
      .teardownComplete 32, .islandBrownout 64, .islandReturn 64, .globalBarrierArrival 64 0 0, .globalBarrierArrival 0 32768 0,
      .globalBarrierArrival 0 0 65536, .globalBarrierRelease 64 0, .globalBarrierRelease 0 65536, .globalBroadcastPacket 64 0 [],
      .globalBroadcastPacket 0 65536 [], .globalBroadcastPacket 0 0 (List.replicate 193 0), .marker 0 8,
      .snapshotBroadcast 64 0, .snapshotBroadcast 0 32768, .tenantFenceBroadcast 64 0 0, .tenantFenceBroadcast 0 1024 0,
      .tenantFenceBroadcast 0 0 32768, .globalReport 32768, .audioSample [], .audioSample (8388608 :: List.replicate 23 0), .l0Frame [],
      .l1Hop [256, 0, 0, 0], .l1Hop [], .mbReqLen 0 (2 ^ 32), .bar2Read 0 0, .bar2Read 0 4097, .registerWrite true (2 ^ 32) 0] :
      List Instr).all (fun i => !i.wf) = true := by decide +kernel
theorem test_wf_refuses_requests :
    ([.uoaRead { mb with session := 2 ^ 32 } 0 0 0 0, .uoaRead { mb with requestId := 2 ^ 32 } 0 0 0 0, .uoaRead { mb with target := 65536 } 0 0 0 0,
      .uoaRead mb 65536 0 0 0, .uoaRead mb 0 256 0 0, .uoaRead mb 0 0 256 0, .uoaWrite mb 65536 0 0 false [], .uoaWrite mb 0 256 0 false [],
      .uoaWrite mb 0 0 0 false (List.replicate 1025 0), .uoaWriteNv mb 65536 0 0 0 false [], .uoaWriteNv mb 0 256 0 0 false [],
      .uoaWriteNv mb 0 0 256 0 false [], .uoaWriteNv mb 0 0 0 0 false (List.replicate 1025 0), .uoaWriteSigned mb 65536 0 [],
      .uoaWriteSigned mb 0 256 [], .uoaWriteSigned mb 0 0 (List.replicate 1025 0), .uoaEnumerate mb 65536 0, .uoaEnumerate mb 0 256] :
      List Instr).all (fun i => !i.wf) = true := by decide +kernel

/-! ### Examples of the spec -/

/-- The worked example of 02_number_formats.md, one KV row in ROW mode: the scale of a row whose maxabs is 3.1 is 0x3CC8; the codes of
3.1, -1.05, 0.0122 and 0.01220703125, none of them counted. -/
theorem test_row_mode_example : let r := encodeRow .int8 [0x40466666, 0xBF866666, 0x3C47E282, 0x3C480000]
    r.scale = 0x3CC8 ∧ r.codes = [127, 256 - 43, 0, 1] ∧ r.sat = 0 := by decide +kernel
/-- And their expansion into bf16 operands: 3.09375, -1.046875, +0 and 0.0244140625. -/
theorem test_row_mode_expansion : ([127, 256 - 43, 0, 1] : List Nat).map (fun c => (expand .int8 c 0x3CC8).bits)
    = [0x40460000, 0xBF860000, 0, 0x3CC80000] := by decide +kernel
/-- The worked example of a HISTORY stream with W = 4 and m = 2: rows 0, 1, 3, 4 and 8. -/
theorem test_history_example :
    let row := fun hist x reenc => encodeStreamRow .int8 true 2 1 reenc hist [x]
    ((row [] 0x3F800000 false).scale = 0x3C01 ∧ (row [] 0x3F800000 false).codes = [127] ∧ (row [] 0x3F800000 false).rowScale = true) ∧
    ((row [0x3F800000] 0x3F666666 false).scale = 0x3C81 ∧ (row [0x3F800000] 0x3F666666 false).codes = [57]) ∧
    ((row [0x3F99999A, 0x3F666666, 0x3F800000] 0x40A00000 false).scale = 0x3C9B ∧
      (row [0x3F99999A, 0x3F666666, 0x3F800000] 0x40A00000 false).clipped = true ∧
      (row [0x3F99999A, 0x3F666666, 0x3F800000] 0x40A00000 false).codes = [127]) ∧
    ((row [0x3F99999A, 0x3F666666, 0x3F800000] 0x40A00000 true).scale = 0x3D21 ∧
      (row [0x3F99999A, 0x3F666666, 0x3F800000] 0x40A00000 true).reenc = true) ∧
    ((row [0x40A00000, 0x3F99999A, 0x3F666666, 0x3F800000] 0x3E99999A false).scale = 0x3DA1 ∧
      (row [0x40A00000, 0x3F99999A, 0x3F666666, 0x3F800000] 0x3E99999A false).codes = [4] ∧
      (row [0x40A00000, 0x3F99999A, 0x3F666666, 0x3F800000] 0x3E99999A false).under = true) ∧
    (row [0x3E99999A, 0x3E99999A, 0x3E99999A, 0x3E99999A, 0x40A00000] 0x3E99999A false).codes = [63] := by decide +kernel
/-- R190's example: the default shares of slot 2 read SP_SHARE 0x38 and ACC_SHARE 0x1F40. -/
theorem test_default_shares : let s := demo.modSlot 2 (fun x => ({ x with spBase := 8, spSizeM1 := 3, accBase := 64, accSizeM1 := 31 }).started 0 0 0 1)
    s.slotReg 2 4 = 0x38 ∧ s.slotReg 2 8 = 0x1F40 := by decide +kernel
/-- R140: signed less than, of -1 and 0, sets P1 through a step. -/
theorem test_pset_signed : ((nextOf (step { demo.modSlot 0 (fun x => x.setReg 1 0xFFFFFFFF) with
    pending := [.pset u0 (word 0 0 0 (1 * 2 ^ 32 + 1 * 2 ^ 37 + 4 * 2 ^ 40))] })).map (fun t => (t.slot 0).pred)) = some 3 := by decide +kernel
/-- And unsigned less than does not. -/
theorem test_pset_unsigned : ((nextOf (step { demo.modSlot 0 (fun x => x.setReg 1 0xFFFFFFFF) with
    pending := [.pset u0 (word 0 0 0 (1 * 2 ^ 32 + 1 * 2 ^ 37 + 2 * 2 ^ 40))] })).map (fun t => (t.slot 0).pred)) = some 1 := by decide +kernel
/-- R139: SETREG and ADDREG wrap modulo 2^32. -/
theorem test_addreg_wraps : ((nextOf (step { demo.modSlot 0 (fun x => x.setReg 31 0xFFFFFFFF) with
    pending := [.addreg u0 (word 0 0 0 (31 * 2 ^ 32 + 2))] })).map (fun t => (t.slot 0).reg 31)) = some 1 := by decide +kernel

/-! ### Rejections and skips: the remaining clauses -/

theorem witness_MalformedCommandsAreRejected_control :
    [0x20, 0x10].all (fun f => demo.mayIssue u0 (word f 2 5 3) 0x01 && (demo.slot 0).predicate (word f 2 5 3).toNat
      && (cwDone (word f 2 5 3).toNat || cwPre (word f 2 5 3).toNat)) = true := by decide +kernel
theorem witness_DescriptorBlocks_faults :
    [(0x80, 1, Form.d64), (0xC0, 2 ^ 22 - 64, Form.d128)].all (fun p => let n := (word p.1 0 0 p.2.1).toNat
      (prog 0 0).fetches u0 (word p.1 0 0 p.2.1) 0x40 && ((prog 0 0).slot 0).predicate n && formOk p.2.2 n && (prog 0 0).opndAllowed 0 n
        && (match (prog 0 0).readDesc 0 n p.2.2 with
          | .error f => f == (if p.2.1 = 1 then (fcDescriptor, 1) else (fcAddress, 2 ^ 22 - 64))
          | .ok _ => false)) = true := by decide +kernel
theorem witness_PsetComparisons_result :
    demo.controlReady u0 (word 0 0 0 (7 * 2 ^ 37 + 5 * 2 ^ 40)) 0x0C [0] [(31, 0), (36, 32), (39, 37), (42, 40)] = true ∧
    compareRegs 5 ((demo.slot 0).reg 0) 0 = some true ∧
    [(0, 0), (1, 6), (7, 7)].all (fun p => demo.controlReady u0 (word 0 0 0 (p.1 * 2 ^ 37 + p.2 * 2 ^ 40)) 0x0C [0]
      [(31, 0), (36, 32), (39, 37), (42, 40)]) = true := by decide +kernel

/-! ### The remaining hypotheses -/

theorem witness_OnlyUnknownRegistersStop : (match exec (.registerWrite true 0x4000000 0) demo with
    | .fault f => f == .noSuchRegister 0x4000000
    | _ => false) = true := by decide +kernel
theorem witness_ConstantRegisters : field (word 0x08 0 0 0).toNat 114 112 = 0 ∧ bit (word 0x08 0 0 0).toNat 115 = true := by decide +kernel
theorem witness_VectorComparisons : (isNan32 0x7FC00000 = true ∧ isNan32 0xFF800001 = true) ∧ isNan32 0xFF800000 = false ∧
    (f32Key 0 = f32Key 0x80000000 ∧ f32Key 0x80000001 < f32Key 0) ∧ (3 : Nat) < 4 := by decide +kernel
theorem witness_Bf16RoundTrip : (65535 : Nat) < 65536 := by decide
theorem witness_MemoryReadsAfterWrites : Mem.wf [(0, 1), (5, 255)] = true ∧ (0 ≤ 5 ∧ 5 < 0 + ([1, 2, 3, 4, 5, 6] : List Byte).length) := by
  decide +kernel
theorem witness_NumberStatusAccumulates : (191 : Nat) ≠ 0 := by decide
theorem witness_ResetLeaves : (5 : Nat) < 6 ∧ (31 : Nat) < 32 ∧ (191 : Nat) < 192 ∧ (47 : Nat) < 48 := by decide

/-- A budget day that has begun and was not credited: the premise of the credit of R297 in TierEventsComplete. -/
theorem witness_budget_day_begins :
    ({ State.reset with time := 86400000000000 } : State).tier.lastBudgetDay < 86400000000000 / 86400000000000 := by decide

end Sys2Proof.Tests
end

section
/-! PROOFS. Statements O8, O14, O15, O21 and O22 of chapter 03: skipped and malformed commands, constant registers, PSET and descriptor
blocks. The rules of fetching, control and issue come first; each statement is then a use of them. -/

namespace Sys2Proof.Machine

/-! ### What a fetch and the move to the next command leave -/

/-- A fetch changes its slot in the command buffer alone. -/
theorem State.fetched_slot (s : State) (u : SlotRef) (w : CmdWord) (op : Nat) :
    ∃ b, (s.fetched u w op).slot (slotIndex u) = { s.slot (slotIndex u) with buffer := b } := by
  simp only [State.fetched, State.fetch]
  split
  · exact ⟨_, State.modSlot_slot_same ..⟩
  · exact ⟨_, rfl⟩

@[simp] theorem State.fetched_reg (s : State) (u : SlotRef) (w : CmdWord) (op r : Nat) :
    ((s.fetched u w op).slot (slotIndex u)).reg r = (s.slot (slotIndex u)).reg r := by
  obtain ⟨b, hb⟩ := s.fetched_slot u w op
  simp [hb, Slot.reg]

@[simp] theorem State.fetched_pred (s : State) (u : SlotRef) (w : CmdWord) (op : Nat) :
    ((s.fetched u w op).slot (slotIndex u)).pred = (s.slot (slotIndex u)).pred := by
  obtain ⟨b, hb⟩ := s.fetched_slot u w op
  simp [hb]

@[simp] theorem State.fetched_streamPtr (s : State) (u : SlotRef) (w : CmdWord) (op : Nat) :
    ((s.fetched u w op).slot (slotIndex u)).streamPtr = (s.slot (slotIndex u)).streamPtr := by
  obtain ⟨b, hb⟩ := s.fetched_slot u w op
  simp [hb]

@[simp] theorem State.fetched_jobOf (s : State) (u : SlotRef) (w : CmdWord) (op i : Nat) (e : Engine) :
    (s.fetched u w op).jobOf i e = s.jobOf i e := by
  simp only [State.fetched, State.fetch]
  split <;> rfl

@[simp] theorem State.advance_jobOf (s : State) (i k : Nat) (e : Engine) : (s.advance i).jobOf k e = s.jobOf k e := rfl

@[simp] theorem State.markIssued_slot (s : State) (i k : Nat) : (s.markIssued i).slot k = s.slot k := rfl

@[simp] theorem State.advance_pred (s : State) (i : Nat) : ((s.advance i).slot i).pred = (s.slot i).pred := by
  simp [State.advance, Slot.goTo]

/-! ### Commands that issue no work: skipped, and faulted at issue -/

/-- What it takes for a command to be fetched. -/
theorem fetches_parts {s : State} {u : SlotRef} {w : CmdWord} {op : Nat} (h : s.fetches u w op = true) :
    s.canIssue (slotIndex u) = true ∧ (s.slot (slotIndex u)).fits op w.toNat = true
      ∧ ∃ t, s.fetchPoison (slotIndex u) = (t, none) := by
  simp only [State.fetches, Bool.and_eq_true, Option.isNone_iff_eq_none] at h
  obtain ⟨⟨hi, hf⟩, hp⟩ := h
  exact ⟨hi, hf, _, Prod.ext rfl hp⟩

/-- What it takes for a command to be skipped. -/
theorem skips_parts {s : State} {u : SlotRef} {w : CmdWord} {op : Nat} (h : s.skips u w op = true) :
    s.mayIssue u w op = true ∧ (s.slot (slotIndex u)).predicate w.toNat = false := by
  simpa [State.skips] using h

/-- A skipped control command moves its slot on (R118). -/
theorem control_of_skips {s : State} {u : SlotRef} {w : CmdWord} {op : Nat} (kind : Nat → Bool) (fs : List (Nat × Nat))
    (act : State → Nat → Nat → State) (h : s.skips u w op = true) :
    s.control u w op kind fs act = (s.fetched u w op).advance (slotIndex u) := by
  obtain ⟨hm, hq⟩ := skips_parts h
  obtain ⟨hi, hf, ⟨t, hp⟩, ht⟩ := mayIssue_parts hm
  simp [State.control, State.fetched, hi, hf, hp, ht, hq]

/-- A skipped engine command moves its slot on (R118). -/
theorem issueEngine_of_skips {s : State} {u : SlotRef} {w : CmdWord} {op : Nat} (form : Form) (engines : Nat → List Engine × Bool)
    (work : State → Nat → Nat → Work) (h : s.skips u w op = true) :
    s.issueEngine u w op form engines work = (s.fetched u w op).advance (slotIndex u) := by
  obtain ⟨hm, hq⟩ := skips_parts h
  obtain ⟨hi, hf, ⟨t, hp⟩, ht⟩ := mayIssue_parts hm
  simp [State.issueEngine, State.fetched, hi, hf, hp, ht, hq]

/-- Without a command on its transfer engine a slot has no packet to bring on. -/
theorem State.pushMove_of_jobOf_none {s : State} {i : Nat} (h : s.jobOf i .xfr = none) : s.pushMove i = s := by
  simp [State.pushMove, State.pushMove?, h]

/-- A skipped transfer command moves its slot on (R118): no packet follows, for it brought no command to the engine. -/
theorem issueMove_of_skips {s : State} {u : SlotRef} {w : CmdWord} {op : Nat} (form : Form) (work : State → Nat → Nat → Work)
    (h : s.skips u w op = true) : s.issueMove u w op form work = (s.fetched u w op).advance (slotIndex u) := by
  simp only [State.issueMove, issueEngine_of_skips form xfrOnly work h]
  split
  · rename_i hj
    exact State.pushMove_of_jobOf_none (by simpa using hj)
  · rfl

/-- The gate of R27 and R295 is open for a command that requests no state, and while state is served. -/
theorem stateGate_open {f : State} {op : Nat} (h : op < 0x60 ∨ f.stateServed = true) :
    (decide (0x60 ≤ op) && (!f.tier.journalReplayed || !f.up 54)) = false := by
  rcases h with h | h
  · simp [Nat.not_le.mpr h]
  · obtain ⟨hjournal, hup⟩ : f.tier.journalReplayed = true ∧ f.up 54 = true := by simpa [State.stateServed] using h
    simp [hjournal, hup]

/-- An engine command of the wrong format is rejected with DESCRIPTOR_INVALID (R120, R123). -/
theorem issueEngine_of_not_formOk {s : State} {u : SlotRef} {w : CmdWord} {op : Nat} {form : Form}
    (engines : Nat → List Engine × Bool) (work : State → Nat → Nat → Work) (h : s.fetches u w op = true)
    (hq : (s.slot (slotIndex u)).predicate w.toNat = true) (hs : op < 0x60 ∨ (s.fetched u w op).stateServed = true)
    (hform : formOk form w.toNat = false) :
    s.issueEngine u w op form engines work = (s.fetched u w op).faultSlot (slotIndex u)
      (fcDescriptor, if cwDesc w.toNat then cwArgs w.toNat % 2 ^ 22 else 0) op (s.slot (slotIndex u)).streamPtr := by
  obtain ⟨hi, hf, t, hp⟩ := fetches_parts h
  have hg := stateGate_open hs
  rw [State.fetched] at hg ⊢
  simp [State.issueEngine, hi, hf, hp, hq, hg, hform]

/-- An engine command whose descriptor block cannot be read faults (R121). -/
theorem issueEngine_of_readDesc_error {s : State} {u : SlotRef} {w : CmdWord} {op : Nat} {form : Form} {e : PitchFault}
    (engines : Nat → List Engine × Bool) (work : State → Nat → Nat → Work) (h : s.fetches u w op = true)
    (hq : (s.slot (slotIndex u)).predicate w.toNat = true) (hs : op < 0x60 ∨ (s.fetched u w op).stateServed = true)
    (hform : formOk form w.toNat = true) (hopnd : (s.fetched u w op).opndAllowed (slotIndex u) w.toNat = true)
    (hd : (s.fetched u w op).readDesc (slotIndex u) w.toNat form = .error e) :
    s.issueEngine u w op form engines work
      = (s.fetched u w op).faultSlot (slotIndex u) e op (s.slot (slotIndex u)).streamPtr := by
  obtain ⟨hi, hf, t, hp⟩ := fetches_parts h
  have hg := stateGate_open hs
  rw [State.fetched] at hg hopnd hd ⊢
  simp [State.issueEngine, hi, hf, hp, hq, hg, hform, hopnd, hd]

/-- A control command with DONE_SIG or PRE_WAIT is rejected with DESCRIPTOR_INVALID, whatever its operand (R120, R139). -/
theorem control_of_flags {s : State} {u : SlotRef} {w : CmdWord} {op : Nat} (kind : Nat → Bool) (fs : List (Nat × Nat))
    (act : State → Nat → Nat → State) (hm : s.mayIssue u w op = true) (hq : (s.slot (slotIndex u)).predicate w.toNat = true)
    (hflag : cwDone w.toNat = true ∨ cwPre w.toNat = true) :
    s.control u w op kind fs act
      = (s.fetched u w op).faultSlot (slotIndex u) (fcDescriptor, 0) op (s.slot (slotIndex u)).streamPtr := by
  obtain ⟨hi, hf, ⟨t, hp⟩, ht⟩ := mayIssue_parts hm
  rcases hflag with hflag | hflag <;> simp [State.control, State.fetched, hi, hf, hp, ht, hq, hflag]

/-! ### The rows with an opcode of their own are control, engine or transfer commands -/

/-- A row's skipped command moves its slot on and does nothing else (R118). -/
def SkipsOnly (e : Nat × (SlotRef → CmdWord → Instr)) : Prop :=
  ∀ (u : SlotRef) (w : CmdWord) (s : State), s.skips u w e.1 = true →
    exec (e.2 u w) s = .next ((s.fetched u w e.1).advance (slotIndex u))

theorem skipsOnly_of_control {op : Nat} {cmd : SlotRef → CmdWord → Instr} {kind : Nat → Bool} {fs : List (Nat × Nat)}
    {act : State → Nat → Nat → State} (h : ∀ u w s, exec (cmd u w) s = .next (s.control u w op kind fs act)) :
    SkipsOnly (op, cmd) := fun u w s hs => by
  rw [h, control_of_skips kind fs act hs]

theorem skipsOnly_of_issueEngine {op : Nat} {cmd : SlotRef → CmdWord → Instr} {form : Form} {engines : Nat → List Engine × Bool}
    {work : State → Nat → Nat → Work} (h : ∀ u w s, exec (cmd u w) s = .next (s.issueEngine u w op form engines work)) :
    SkipsOnly (op, cmd) := fun u w s hs => by
  rw [h, issueEngine_of_skips form engines work hs]

theorem skipsOnly_of_issueMove {op : Nat} {cmd : SlotRef → CmdWord → Instr} {form : Form} {work : State → Nat → Nat → Work}
    (h : ∀ u w s, exec (cmd u w) s = .next (s.issueMove u w op form work)) : SkipsOnly (op, cmd) := fun u w s hs => by
  rw [h, issueMove_of_skips form work hs]

/-- A claim about commands of consecutive opcodes is one about the first of them and one about those behind it. -/
theorem forall_opcodesFrom_cons {P : Nat × (SlotRef → CmdWord → Instr) → Prop} {k : Nat} {c : SlotRef → CmdWord → Instr}
    {cs : List (SlotRef → CmdWord → Instr)} :
    (∀ e ∈ opcodesFrom k (c :: cs), P e) ↔ P (k, c) ∧ ∀ e ∈ opcodesFrom (k + 1) cs, P e := by
  have behind : opcodesFrom k (c :: cs) = (k, c) :: opcodesFrom (k + 1) cs := by
    simp [opcodesFrom, List.zipIdx_succ, Nat.add_assoc, Nat.add_comm 1]
  rw [behind, List.forall_mem_cons]

theorem forall_opcodesFrom_nil {P : Nat × (SlotRef → CmdWord → Instr) → Prop} {k : Nat} :
    (∀ e ∈ opcodesFrom k [], P e) ↔ True := by
  simp [opcodesFrom]

/-- Each command with an opcode of its own, when skipped, moves its slot on and does nothing else. -/
theorem skipsOnly_of_mem_slotCommands : ∀ e ∈ slotCommands, SkipsOnly e := by
  simp only [slotCommands, List.forall_mem_append, forall_opcodesFrom_cons, forall_opcodesFrom_nil, and_true]
  refine ⟨⟨⟨⟨⟨⟨⟨?control, ?matrix⟩, ?vector⟩, ?transfer⟩, ?window⟩, ?kv⟩, ?rproj⟩, ?fabric⟩
  case control => and_intros <;> exact skipsOnly_of_control fun _ _ _ => rfl
  case matrix => and_intros <;> exact skipsOnly_of_issueEngine fun _ _ _ => rfl
  case vector => and_intros <;> exact skipsOnly_of_issueEngine fun _ _ _ => rfl
  case transfer =>
    refine ⟨?_, ?_, ?_, skipsOnly_of_issueEngine fun _ _ _ => rfl, ?_, skipsOnly_of_issueEngine fun _ _ _ => rfl, ?_⟩ <;>
      exact skipsOnly_of_issueMove fun _ _ _ => rfl
  case window =>
    refine ⟨skipsOnly_of_issueEngine fun _ _ _ => rfl, skipsOnly_of_issueEngine fun _ _ _ => rfl, ?_, ?_⟩ <;>
      exact skipsOnly_of_issueMove fun _ _ _ => rfl
  case kv => and_intros <;> exact skipsOnly_of_issueEngine fun _ _ _ => rfl
  case rproj => exact skipsOnly_of_issueEngine fun _ _ _ => rfl
  case fabric => and_intros <;> exact skipsOnly_of_issueEngine fun _ _ _ => rfl

/-- Settles O8, a row's kind (control, engine or transfer) telling what its skipped command leaves. -/
theorem skippedCommandsDoNothing : Obligations.SkippedCommandsDoNothing := by
  unfold Obligations.SkippedCommandsDoNothing
  intro u w s
  exact ⟨rfl, fun e he => ⟨rfl, skipsOnly_of_mem_slotCommands e he u w s⟩⟩

/-! ### Constant registers (R115) -/

/-- P0 is set in a value whose lowest bit is forced to 1. -/
theorem ofNat_lowBitSet_mod_two {w : Nat} (hw : 0 < w) (v : Nat) : (BitVec.ofNat w (v / 2 * 2 + 1)).toNat % 2 = 1 := by
  rw [BitVec.toNat_ofNat, Nat.mod_mod_of_dvd _ (dvd_pow_self 2 hw.ne')]
  omega

/-- Settles O14, from the equations of the register accessors at S0 and P0. -/
theorem constantRegisters : Obligations.ConstantRegisters := by
  unfold Obligations.ConstantRegisters
  refine fun x => ⟨rfl, fun v => rfl, fun n hn => ?_, fun v => ?_, fun s i => ?_⟩
  · simp [Slot.predicate, hn]
  · exact ofNat_lowBitSet_mod_two (by decide) v.toNat
  · exact ofNat_lowBitSet_mod_two (by decide) (s.slot i).pred.toNat

/-! ### PSET (R140) -/

/-- A predicate register with bit `k` written, as a bit vector. -/
def withBit (p : BitVec 8) (k : Nat) (v : Bool) : BitVec 8 :=
  p &&& ~~~ BitVec.twoPow 8 k ||| if v then BitVec.twoPow 8 k else 0#8

theorem testBit_withBit (p : BitVec 8) {k : Nat} (hk : k < 8) (v : Bool) (j : Nat) :
    (withBit p k v).toNat.testBit j = if j = k then v else p.toNat.testBit j := by
  rw [BitVec.testBit_toNat, BitVec.testBit_toNat]
  by_cases h : j = k
  · subst h
    cases v <;> simp [withBit, hk]
  · by_cases hj : j < 8
    · cases v <;> simp [withBit, h, hj]
    · simp [h, BitVec.getLsbD_of_ge _ _ (Nat.le_of_not_lt hj)]

theorem toNat_withBit (p : BitVec 8) {k : Nat} (hk : k < 8) (v : Bool) :
    (withBit p k v).toNat = (p &&& ~~~ BitVec.twoPow 8 k).toNat + if v then 2 ^ k else 0 := by
  have disjoint : p &&& ~~~ BitVec.twoPow 8 k &&& (if v then BitVec.twoPow 8 k else 0#8) = 0#8 := by
    cases v <;> simp [BitVec.and_assoc]
  rw [withBit, ← BitVec.add_eq_or_of_and_eq_zero _ _ disjoint, BitVec.toNat_add_of_and_eq_zero disjoint]
  cases v <;> simp [BitVec.toNat_twoPow_of_lt hk]

theorem withBit_testBit (p : BitVec 8) {k : Nat} (hk : k < 8) : withBit p k (p.toNat.testBit k) = p := by
  refine BitVec.eq_of_toNat_eq (Nat.eq_of_testBit_eq fun j => ?_)
  rw [testBit_withBit p hk]
  split <;> simp [*]

theorem setPred_eq_withBit (p : BitVec 8) {k : Nat} (hk : k < 8) (v : Bool) : setPred p k v = withBit p k v := by
  have hn := toNat_withBit p hk (p.toNat.testBit k)
  rw [withBit_testBit p hk] at hn
  rw [setPred, Nat.sub_eq_of_eq_add hn, ← toNat_withBit p hk, BitVec.ofNat_toNat, BitVec.setWidth_eq]

/-- What a write of one predicate leaves in each of them. -/
theorem testBit_setPred (p : BitVec 8) {k : Nat} (hk : k < 8) (v : Bool) (j : Nat) :
    (setPred p k v).toNat.testBit j = if j = k then v else p.toNat.testBit j := by
  rw [setPred_eq_withBit p hk, testBit_withBit p hk]

section Pset

variable {s : State} {u : SlotRef} {w : CmdWord}

/-- What a PSET's CMP gives of S[REG] and IMM; none where CMP is reserved. -/
def psetResult (s : State) (u : SlotRef) (w : CmdWord) : Option Bool :=
  compareRegs (field w.toNat 42 40) ((s.slot (slotIndex u)).reg (field w.toNat 36 32)) (BitVec.ofNat 32 (field w.toNat 31 0))

/-- A ready PSET writes its result to P[PIDX]. -/
theorem exec_pset_of_result {v : Bool} (h : s.controlReady u w 0x0C [0] [(31, 0), (36, 32), (39, 37), (42, 40)] = true)
    (hk : field w.toNat 39 37 ≠ 0) (hv : psetResult s u w = some v) :
    exec (.pset u w) s = .next (((s.fetched u w 0x0C).advance (slotIndex u)).modSlot (slotIndex u)
      (fun y => { y with pred := setPred y.pred (field w.toNat 39 37) v })) := by
  rw [psetResult] at hv
  simp [exec, execPset, control_of_ready h, hk, hv]

/-- A ready PSET of P0, or of a reserved CMP, faults with DESCRIPTOR_INVALID. -/
theorem exec_pset_of_invalid (h : s.controlReady u w 0x0C [0] [(31, 0), (36, 32), (39, 37), (42, 40)] = true)
    (hbad : field w.toNat 39 37 = 0 ∨ psetResult s u w = none) :
    exec (.pset u w) s
      = .next ((s.fetched u w 0x0C).faultSlot (slotIndex u) (fcDescriptor, 0) 0x0C (s.slot (slotIndex u)).streamPtr) := by
  cases hv : psetResult s u w with
  | none =>
    rw [psetResult] at hv
    simp [exec, execPset, control_of_ready h, hv]
  | some v =>
    have hk : field w.toNat 39 37 = 0 := hbad.resolve_right (by simp [hv])
    rw [psetResult] at hv
    simp [exec, execPset, control_of_ready h, hv, hk]

end Pset

/-- R140: the comparison of each listed CMP. -/
theorem compareRegs_listed (a b : Word) :
    compareRegs 0 a b = some (a == b) ∧ compareRegs 1 a b = some (a != b) ∧ compareRegs 2 a b = some (a.ult b) ∧
      compareRegs 3 a b = some (b.ule a) ∧ compareRegs 4 a b = some (a.slt b) ∧ compareRegs 5 a b = some (b.sle a) :=
  ⟨rfl, rfl, rfl, rfl, rfl, rfl⟩

/-- Settles O15: PSET's two outcomes, and the bits of a predicate register with one written. -/
theorem psetComparisons : Obligations.PsetComparisons := by
  unfold Obligations.PsetComparisons
  refine ⟨compareRegs_listed, fun u w s hready => ⟨fun v hk hv => ?writes, fun hbad => ?faults⟩⟩
  case writes =>
    have hlt : field w.toNat 39 37 < 8 := Nat.mod_lt _ (by decide)
    refine ⟨_, exec_pset_of_result hready hk hv, ?_, fun k hne => ?_⟩
    · simp [testBit_setPred _ hlt]
    · simp [testBit_setPred _ hlt, hne]
  case faults =>
    refine exec_pset_of_invalid hready (hbad.imp_right fun hcmp => ?_)
    rcases hcmp with hcmp | hcmp <;> simp [psetResult, hcmp, compareRegs]

/-! ### Malformed commands and reserved opcodes (R10, R120, R123, R139) -/

/-- A command in a slot's stream is rejected as it is fetched exactly where its opcode is reserved and it is not skipped. -/
theorem rejectReserved_eq {s : State} {i word : Nat} (hw : s.streamWord i = some word) :
    s.rejectReserved i =
      if s.canIssue i && (s.slot i).held.isNone && !opcodeListed (field word 127 120) && (s.slot i).predicate word then
        s.faultSlot i (fcDescriptor, 0) (field word 127 120) (s.slot i).streamPtr
      else s := by
  simp [State.rejectReserved, hw]

/-- What the format of R117, R120 and R123 forbids. -/
theorem formOk_eq_false_of_malformed {form : Form} {n : Nat}
    (h : (cwDone n = true ∧ cwPre n = true) ∨ ((cwDone n = true ∨ cwPre n = true) ∧ cwKind n = 0) ∨
      (cwDone n = false ∧ cwPre n = false ∧ (cwKind n ≠ 0 ∨ cwOpnd n ≠ 0)) ∨ cwDesc n ≠ decide (form ≠ .inline) ∨
      cwDesc128 n ≠ decide (form = .d128)) : formOk form n = false := by
  rcases h with ⟨hdone, hpre⟩ | ⟨hflag, hkind⟩ | ⟨hdone, hpre, hopnd⟩ | hdesc | hdesc128
  · simp [formOk, hdone, hpre]
  · rcases hflag with hflag | hflag <;> simp [formOk, hflag, hkind]
  · by_cases hkind : cwKind n = 0
    · simp [formOk, opndFormed, hkind, hopnd.resolve_left (not_not_intro hkind)]
    · simp [formOk, hdone, hpre, hkind]
  · cases form <;> simp_all [formOk]
  · cases form <;> simp_all [formOk]

/-- Settles O21: the fetch of a reserved opcode, and the format checks of engine and control commands. -/
theorem malformedCommandsAreRejected : Obligations.MalformedCommandsAreRejected := by
  unfold Obligations.MalformedCommandsAreRejected
  refine ⟨fun s i word hw => ⟨fun hi hheld hq hop => ?_, fun h => ?_⟩, ?engine, ?control⟩
  · simp [rejectReserved_eq hw, hi, hheld, hq, hop]
  · rcases h with h | h <;> simp [rejectReserved_eq hw, h]
  case engine =>
    intro s u w opcode form engines work i n f hfetch hq hserved hbad
    exact issueEngine_of_not_formOk engines work hfetch hq hserved (formOk_eq_false_of_malformed hbad)
  case control =>
    intro s u w opcode kind fields act i hm hq hflag
    exact control_of_flags kind fields act hm hq hflag

/-! ### Descriptor blocks (R121) -/

/-- Where a descriptor block may lie, in the order of its checks (log entry 21): alignment, the slot's share, poison. -/
theorem readDesc_eq (s : State) (i n : Nat) {form : Form} (h : form ≠ .inline) :
    s.readDesc i n form =
      if cwArgs n % 64 ≠ 0 then .error (fcDescriptor, cwArgs n)
      else if (s.slot i).spBytes < cwArgs n + form.bytes then .error (fcAddress, cwArgs n)
      else (s.spPoisonFault i (cwArgs n) form.bytes).elim (.ok (leNat (s.readSp i (cwArgs n) form.bytes))) .error := by
  cases form with
  | inline => exact absurd rfl h
  | d64 => simp only [State.readDesc, bne_iff_ne]; cases s.spPoisonFault i (cwArgs n) Form.d64.bytes <;> rfl
  | d128 => simp only [State.readDesc, bne_iff_ne]; cases s.spPoisonFault i (cwArgs n) Form.d128.bytes <;> rfl

/-- Settles O22: the branches of the read, and the fault of a command whose block cannot be read. -/
theorem descriptorBlocks : Obligations.DescriptorBlocks := by
  unfold Obligations.DescriptorBlocks
  refine fun s i n form hform => ⟨fun hmis => ?_, fun hal hout => ?_, fun hal hin hclean => ?_, ?_⟩
  · simp [readDesc_eq s i n hform, hmis]
  · simp [readDesc_eq s i n hform, hal, hout]
  · simp [readDesc_eq s i n hform, hal, Nat.not_lt.mpr hin, hclean]
  · rintro u w e opcode engines work f rfl rfl hfetch hq hserved hok hopnd hd
    exact issueEngine_of_readDesc_error engines work hfetch hq hserved hok hopnd hd

end Sys2Proof.Machine
end

section
/-! PROOFS. Statements O1, O2, O5, O6, O11, O18 and O19: the queue and the clock, the reset state, and the counts of loops, takes and pulses. -/

namespace Sys2Proof.Machine

/-! ### The queue and the clock (log entries 1 and 2) -/

/-- Settles O1: both sides are the same arm of a step. -/
theorem stepRunsFrontCommand : Obligations.StepRunsFrontCommand := by
  unfold Obligations.StepRunsFrontCommand
  exact fun _ _ _ => rfl

/-- Settles O5, by evaluation of the reset state. -/
theorem resetIsWellFormed : Obligations.ResetIsWellFormed := by
  unfold Obligations.ResetIsWellFormed
  exact ⟨rfl, rfl, rfl⟩

/-- Settles O6: the reset state lists its clusters, all gated, and every other unit stands at its default. -/
theorem resetLeaves : Obligations.ResetLeaves := by
  unfold Obligations.ResetLeaves
  refine ⟨rfl, by decide, fun p _ => rfl, fun i _ => rfl, fun c _ => ?_⟩
  have hmode : (State.reset.core c).mode = ({} : Core).mode := rfl
  rw [hmode]
  decide

/-- A map over a table's entries shows in what is found there. -/
theorem tabFind_map {α : Type} (t : Tab α) (f : Nat → α → α) (k : Nat) :
    tabFind (t.map fun e => (e.1, f e.1 e.2)) k = (tabFind t k).map (f k) := by
  induction t with
  | nil => rfl
  | cons e t ih =>
    by_cases h : e.1 = k
    · subst h; simp [tabFind]
    · simp [tabFind, h, ih]

/-- A key is listed exactly where something is found at it. -/
theorem any_key_eq_isSome_tabFind {α : Type} (t : Tab α) (k : Nat) : (t.any fun e => e.1 == k) = (tabFind t k).isSome := by
  induction t with
  | nil => rfl
  | cons e t ih => by_cases h : e.1 = k <;> simp [tabFind, h, ih]

/-- A slot's watchdog after `ns` more nanoseconds, where it runs (R482). -/
def State.ranWatchdog (s : State) (ns i : Nat) (x : Slot) : Slot :=
  if s.watchdogRuns i then { x with watchRun := x.watchRun + ns } else x

/-- A state whose time has run for `ns` more nanoseconds, its watchdogs aside. -/
def State.ranFor (s : State) (ns : Nat) : State := { s with timers := tabSet s.timers tmRun (tabGet s.timers tmRun 0 + ns) }

theorem State.runTimers_slots (s : State) (ns : Nat) :
    (s.runTimers ns).slots = s.slots.map fun e => (e.1, s.ranWatchdog ns e.1 e.2) := rfl

/-- What a tick's nanoseconds leave of a slot (R482). -/
theorem State.runTimers_slot (s : State) (ns i : Nat) :
    (s.runTimers ns).slot i = if s.slots.any (fun e => e.1 == i) then s.ranWatchdog ns i (s.slot i) else s.slot i := by
  rw [any_key_eq_isSome_tabFind]
  simp only [State.slot, tabGet, s.runTimers_slots, tabFind_map]
  cases tabFind s.slots i <;> rfl

/-- Where no watchdog runs the slots stay. -/
theorem State.runTimers_of_no_watchdog {s : State} (h : ∀ e ∈ s.slots, s.watchdogRuns e.1 = false) (ns : Nat) :
    s.runTimers ns = s.ranFor ns := by
  have stays : (s.runTimers ns).slots = s.slots := by
    rw [s.runTimers_slots]
    exact (List.map_congr_left fun e he => by simp [State.ranWatchdog, h e he]).trans s.slots.map_id
  calc s.runTimers ns = { s.ranFor ns with slots := (s.runTimers ns).slots } := rfl
    _ = s.ranFor ns := by rw [stays]; rfl

/-- What nothing waits for: no flit or packet in flight, no arrival, no request, no cut, and nothing in flash. -/
structure State.NothingWaits (s : State) : Prop where
  inFlight : s.fabric.inFlight.isEmpty = true
  due : s.fabric.due.isEmpty = true
  arrivals : s.fabric.arrivals.isEmpty = true
  asks : s.host.asks = []
  cut : s.fabric.cut = none
  flash : s.tier.flash.isEmpty = true

theorem State.quiet_parts {s : State} (h : s.quiet = true) :
    s.NothingWaits ∧ ∀ e ∈ s.slots, s.watchdogRuns e.1 = false ∧ s.canIssue e.1 = false := by
  simp only [State.quiet, Bool.and_eq_true, List.all_eq_true, Bool.not_eq_true', List.isEmpty_iff, Option.isNone_iff_eq_none] at h
  obtain ⟨⟨⟨⟨⟨⟨hf, hd⟩, ha⟩, hk⟩, hc⟩, hl⟩, hs⟩ := h
  exact ⟨⟨by simp [hf], by simp [hd], by simp [ha], hk, hc, by simp [hl]⟩, hs⟩

theorem State.goOnWaiting_of_nothingWaits {s : State} (h : s.NothingWaits) : s.goOnWaiting = s := by
  have hAsks : s.serveAsks = s := by
    simp only [State.serveAsks, h.asks, List.foldl_nil, State.modHost]
    rw [← h.asks]
  simp [State.goOnWaiting, State.returnCredits, State.serveArrivals, State.advanceCuts, h.inFlight, h.due, h.arrivals, hAsks, h.cut]

theorem State.collectFlash_of_nothingWaits {s : State} (h : s.NothingWaits) : s.collectFlash = s := by
  simp [State.collectFlash, h.flash]

theorem State.rejectReserved_of_not_canIssue {s : State} {i : Nat} (h : s.canIssue i = false) : s.rejectReserved i = s := by
  unfold State.rejectReserved
  split
  · rfl
  · simp [h]

/-- Slots that cannot issue fetch nothing that is rejected. -/
theorem State.foldl_rejectReserved {s : State} (is : List Nat) (h : ∀ i ∈ is, s.canIssue i = false) :
    is.foldl State.rejectReserved s = s := by
  induction is with
  | nil => rfl
  | cons i is ih =>
    rw [List.foldl_cons, State.rejectReserved_of_not_canIssue (h i (by simp)), ih fun k hk => h k (by simp [hk])]

/-- A tick while the time base runs, by its slew (R45). -/
theorem State.tick_of_timeRuns {s : State} (h : s.timeRuns = true) :
    s.tick = if s.mgmt.slewTo < 0 then { s with time := s.time + 3, mgmt := { s.mgmt with slewTo := s.mgmt.slewTo + 1 } }
      else if 0 < s.mgmt.slewTo then { s with time := s.time + 5, mgmt := { s.mgmt with slewTo := s.mgmt.slewTo - 1 } }
      else { s with time := s.time + 4 } := by
  simp only [State.timeRuns, Bool.and_eq_true, Bool.not_eq_true', Bool.or_eq_false_iff, beq_eq_false_iff_ne] at h
  obtain ⟨⟨hStowed, hOff⟩, hClk⟩ := h
  simp [State.tick, hStowed, hOff, hClk]

/-- With nothing to bring on, a tick within its second only moves the time (R45, R48). -/
theorem State.idle_of_quiet {s : State} (hr : s.timeRuns = true) (hq : s.quiet = true) (hslew : s.mgmt.slewTo = 0)
    (hsec : (s.time + 4) / 1000000000 = s.time / 1000000000) :
    s.idle = { s with time := s.time + 4, timers := tabSet s.timers tmRun (tabGet s.timers tmRun 0 + 4) } := by
  obtain ⟨hw, hslots⟩ := State.quiet_parts hq
  let u : State := { s with time := s.time + 4 }
  have htick : s.tick = u := by simp [State.tick_of_timeRuns hr, hslew, u]
  have hrun : u.runTimers 4 = u.ranFor 4 := State.runTimers_of_no_watchdog (s := u) (fun e he => (hslots e he).1) 4
  have hwu : (u.ranFor 4).NothingWaits := ⟨hw.inFlight, hw.due, hw.arrivals, hw.asks, hw.cut, hw.flash⟩
  have hgo : ((u.ranFor 4).goOnWaiting).collectFlash = u.ranFor 4 := by
    rw [State.goOnWaiting_of_nothingWaits hwu, State.collectFlash_of_nothingWaits hwu]
  have hfold : (s.slots.map (·.1)).foldl State.rejectReserved (u.ranFor 4) = u.ranFor 4 := by
    refine State.foldl_rejectReserved _ fun i hi => ?_
    obtain ⟨e, he, rfl⟩ := List.mem_map.mp hi
    exact (hslots e he).2
  have hsub : u.time - s.time = 4 := Nat.add_sub_cancel_left ..
  have hsame : ¬ s.time / 1000000000 < (u.ranFor 4).time / 1000000000 := by
    change ¬ _ < (s.time + 4) / 1000000000
    omega
  simp only [State.idle, hr, Bool.not_true, Bool.false_eq_true, if_false, htick, hsub, hrun, hgo, if_neg hsame]
  exact hfold

/-- Settles O2: the tick by its slew, the quiet tick, the watchdogs of a tick, and the time base at rest. -/
theorem emptyQueueTicks : Obligations.EmptyQueueTicks := by
  unfold Obligations.EmptyQueueTicks
  intro s hempty
  have hstep : step s = .next s.idle := by simp [step, hempty]
  refine ⟨hstep, fun hr => ⟨?_, fun hq hslew hsec => ?_, fun i ns => ?_⟩, fun hrest => ?_⟩
  · rw [State.tick_of_timeRuns hr]
    split
    · rfl
    · split <;> rfl
  · rw [hstep, State.idle_of_quiet hr hq hslew hsec]
  · rw [State.runTimers_slot]
    cases s.slots.any fun e => e.1 == i <;> simp [State.ranWatchdog]
  · have hstill : s.timeRuns = false := by rcases hrest with h | h | h <;> simp [State.timeRuns, h]
    simp [hstep, State.idle, hstill]

/-! ### Loops, takes and pulses (R142, R148, R153) -/

/-- Settles O11: the three ways in which the innermost loop's end is settled. -/
theorem loopsCountTheirPasses : Obligations.LoopsCountTheirPasses := by
  unfold Obligations.LoopsCountTheirPasses
  refine fun f rest lc => ⟨⟨fun h => ?_, fun h => ?_⟩, fun ptr h => ?_⟩
  · exact (if_pos rfl).trans (if_pos h)
  · exact (if_pos rfl).trans (if_neg (Nat.not_lt.mpr h))
  · exact if_neg h

@[simp] theorem Peg.withHeld_value (p : Peg) (i amount : Nat) : (p.withHeld i amount).value = p.value := rfl

/-- The value that a take leaves (R148). -/
theorem State.takePeg_value (s : State) (n k i amount : Nat) :
    ((s.takePeg n k i amount).peg n k).value = (s.peg n k).value - BitVec.ofNat 16 amount := by
  simp only [State.takePeg, State.setPeg_peg_same]
  split <;> rfl

/-- Settles O18: what a take asks of the peg's value, and what it leaves. -/
theorem takesSubtract : Obligations.TakesSubtract := by
  unfold Obligations.TakesSubtract
  intro s n k i amount
  have enough : s.takeReady n k i amount = true → amount ≤ (s.peg n k).value.toNat := by
    simp only [State.takeReady, Bool.and_eq_true, decide_eq_true_eq]
    exact And.left
  refine ⟨enough, fun h => ?_, fun j hj => State.setPeg_peg_other s n k j _ hj⟩
  have hle := enough h
  rw [State.takePeg_value]
  bv_omega

/-- Settles O19: the two branches of a pulse's count. -/
theorem pendingCountersStop : Obligations.PendingCountersStop := by
  unfold Obligations.PendingCountersStop
  refine fun t line => ⟨fun h => ?_, fun h => ?_, fun l hl => ?_⟩
  · simp [addPending, Nat.not_le.mpr h]
  · simp [addPending, h]
  · unfold addPending
    split
    · rfl
    · simp [hl]

end Sys2Proof.Machine
end

section
/-! PROOFS. Statements O9, O10, O12 and O16: control commands, each by its action where it is ready. -/

namespace Sys2Proof.Machine

/-! ### Control commands (R115, R129, R139, R142, R143, R188) -/

/-- What it takes for a slot to wait on a command's peg (R146, R147). -/
theorem State.pegHere_parts {s : State} {u : SlotRef} {w : CmdWord} (h : s.pegHere u w = true) :
    s.mayUsePeg (s.slot (slotIndex u)).pitch (cwOpnd w.toNat) = true ∧ cwOpnd w.toNat / 1024 = clusterOfSlot (slotIndex u) := by
  simpa [State.pegHere] using h

/-- Settles O9: each command's action, on the branch that its condition selects. -/
theorem controlCommandsComplete : Obligations.ControlCommandsComplete := by
  unfold Obligations.ControlCommandsComplete
  intro u w s
  refine ⟨fun h => ?nop, fun h hpeg hmet => ?wait, fun h hraise => ?signal, fun h hpeg hzero => ?takeNone,
    fun h hpeg hsome hready => ?take, fun h hmay hup => ?give, fun h hmode => ?park, fun h => ?fence, fun h hpending => ?event,
    fun h hopnd => ?stop⟩
  case nop => simp [exec, execNop, control_of_ready h]
  case wait =>
    obtain ⟨hmay, hhere⟩ := State.pegHere_parts hpeg
    simp only [State.namedPeg, hhere] at hmet
    simp [exec, execWait, control_of_ready h, hmay, hhere, hmet]
  case signal => simp [exec, execSignal, control_of_ready h, hraise]
  case takeNone =>
    obtain ⟨hmay, hhere⟩ := State.pegHere_parts hpeg
    simp [exec, execPegTake, control_of_ready h, hmay, hhere, hzero]
  case take =>
    obtain ⟨hmay, hhere⟩ := State.pegHere_parts hpeg
    simp only [hhere] at hready
    simp [exec, execPegTake, control_of_ready h, hmay, hhere, hsome, hready]
  case give => simp [exec, execPegGive, control_of_ready h, hmay, hup]
  case park => rcases hmode with hmode | hmode <;> simp [exec, execPark, control_of_ready h, hmode]
  case fence => simp [exec, execFence, control_of_ready h]
  case event => simp [exec, execEvent, control_of_ready h, hpending]
  case stop => simp [exec, execStop, control_of_ready h, hopnd]

/-- Settles O16: each command's action where its condition is unmet; a WAITING slot is not ACTIVE. -/
theorem unmetConditionsHoldTheSlot : Obligations.UnmetConditionsHoldTheSlot := by
  unfold Obligations.UnmetConditionsHoldTheSlot
  intro u w s
  refine ⟨fun h hpeg hunmet => ?wait, fun h hpeg hsome hunready => ?take, fun h hnone => ?event, fun h hmay hdown => ?give,
    fun hst => ?holds⟩
  case wait =>
    obtain ⟨hmay, hhere⟩ := State.pegHere_parts hpeg
    simp only [State.namedPeg, hhere] at hunmet
    simp [exec, execWait, control_of_ready h, hmay, hhere, Nat.not_le.mpr hunmet]
  case take =>
    obtain ⟨hmay, hhere⟩ := State.pegHere_parts hpeg
    simp only [hhere] at hunready
    simp [exec, execPegTake, control_of_ready h, hmay, hhere, hsome, hunready]
  case event => simp [exec, execEvent, control_of_ready h, hnone]
  case give => simp [exec, execPegGive, control_of_ready h, hmay, hdown]
  case holds => simp [State.canIssue, hst]

/-- Settles O10: the bodies that LOOP and BRANCH accept, and the branch that COUNT selects. -/
theorem loopAndBranchComplete : Obligations.LoopAndBranchComplete := by
  unfold Obligations.LoopAndBranchComplete
  intro u w s i n f x y target share
  have listed (k : Nat) (hk : [0].contains k = true) : (k == 0) = true := by simpa using hk
  have formed (hone : 1 ≤ field n 21 16) (hmax : field n 21 16 ≤ 32) (hlc : x.loops.all (fun l => l.lc != field n 23 22) = true) :
      ¬ (field n 21 16 = 0 || decide (32 < field n 21 16) || x.loops.any (·.lc == field n 23 22)) = true := by
    simp only [List.all_eq_true, bne_iff_ne] at hlc
    simpa [Nat.not_lt.mpr hmax, Nat.one_le_iff_ne_zero.mp hone] using hlc
  refine ⟨fun h hone hmax hlc hcount => ?skips, fun h hone hmax hlc hcount => ?begins, fun h hlow hhigh => ?branch⟩
  case skips =>
    exact congrArg Host.Outcome.next ((control_of_ready h listed).trans ((if_neg (formed hone hmax hlc)).trans (if_pos hcount)))
  case begins =>
    exact congrArg Host.Outcome.next ((control_of_ready h listed).trans ((if_neg (formed hone hmax hlc)).trans (if_neg hcount)))
  case branch =>
    have inside : ¬ (decide (target < share.1) || decide ((share.1 + share.2 : Int) < target + 16)) = true := by
      rw [Bool.or_eq_true, decide_eq_true_eq, decide_eq_true_eq]
      omega
    exact congrArg Host.Outcome.next ((control_of_ready h listed).trans (if_neg inside))

/-- Settles O12: each command's action is one write of its slot, after what the offset of SLOT_RD selects. -/
theorem registerCommandsComplete : Obligations.RegisterCommandsComplete := by
  unfold Obligations.RegisterCommandsComplete
  intro u w s
  refine ⟨fun h => ?setreg, fun h => ?addreg, fun v h hk hv => ?pset, fun h hal htime hptr => ?read, fun h hptr => ?readPtr,
    fun h htime => ?readTime, fun h hw => ?write⟩
  case setreg => simp [exec, execSetreg, control_of_ready h]
  case addreg => simp [exec, execAddreg, control_of_ready h]
  case pset =>
    rw [State.fetched_reg] at hv
    exact exec_pset_of_result h hk hv
  case read => simp [exec, execSlotRd, control_of_ready h, hal, htime, hptr]
  case readPtr =>
    simp only [exec, execSlotRd, control_of_ready h (kind := (· == 0)) (by simp), hptr]
    rfl
  case readTime =>
    have hfetchedTime : (s.fetched u w 0x0D).time = s.time := by
      simp only [State.fetched, State.fetch]
      split <;> rfl
    simp only [exec, execSlotRd, control_of_ready h (kind := (· == 0)) (by simp), htime, ← hfetchedTime]
    rfl
  case write => simp [exec, execSlotWr, control_of_ready h, hw]

end Sys2Proof.Machine
end

section
/-! PROOFS. Statement O13: what SETREG and ADDREG leave. -/

namespace Sys2Proof.Machine

/-- Where a command goes on, its slot keeps all but its position, loops, buffer and watchdog. -/
theorem Slot.goTo_eq (x : Slot) (ptr : Nat) : ∃ fs lc p b, x.goTo ptr =
    { x with loops := fs, lc := lc, streamPtr := p, preReady := false, buffer := b } := ⟨_, _, _, _, rfl⟩

/-- A fetch changes its slot alone. -/
theorem State.fetched_frame (s : State) (u : SlotRef) (w : CmdWord) (op : Nat) :
    s.fetched u w op = { s with slots := (s.fetched u w op).slots } := by
  simp only [State.fetched, State.fetch]
  split <;> rfl

theorem State.fetched_slot_other (s : State) (u : SlotRef) (w : CmdWord) (op : Nat) {j : Nat} (hj : j ≠ slotIndex u) :
    (s.fetched u w op).slot j = s.slot j := by
  simp only [State.fetched, State.fetch, State.holdCommand]
  split <;> simp [hj]

theorem State.advance_slot_other (s : State) {i j : Nat} (hj : j ≠ i) : (s.advance i).slot j = s.slot j := by
  simp [State.advance, hj]

/-- What is read of a scalar register after a write of one (R115, R139). -/
theorem Slot.reg_setReg (x : Slot) {r q : Nat} (hr : r < 32) (v : Word) :
    (x.setReg r v).reg q = if q = 0 then 0 else if q = r then v else x.reg q := by
  unfold Slot.setReg Slot.reg
  by_cases hq : q = 0
  · simp [hq]
  · by_cases h0 : r = 0
    · have : q ≠ r := h0 ▸ hq
      simp [h0, hq]
    · simp only [h0, hq, if_false]
      by_cases h : q = r
      · subst h; simp [hr]
      · simp [h, Ne.symm h]

/-- A write of a scalar register changes the scalar registers alone. -/
theorem Slot.setReg_eq (x : Slot) (r : Nat) (v : Word) : ∃ rs, x.setReg r v = { x with regs := rs } := by
  unfold Slot.setReg
  split
  · exact ⟨_, rfl⟩
  · exact ⟨_, rfl⟩

/-- The state after a command that goes on and writes one scalar register of its slot. -/
def State.wroteReg (s : State) (u : SlotRef) (w : CmdWord) (op r : Nat) (v : Word) : State :=
  ((s.fetched u w op).advance (slotIndex u)).modSlot (slotIndex u) (fun y => y.setReg r v)

/-- The slot that issued a command, as it goes on: its registers but STREAM_PTR stay. -/
theorem State.advance_fetched_slot (s : State) (u : SlotRef) (w : CmdWord) (op : Nat) : ∃ fs lc p b,
    ((s.fetched u w op).advance (slotIndex u)).slot (slotIndex u) =
      { s.slot (slotIndex u) with loops := fs, lc := lc, streamPtr := p, preReady := false, buffer := b, watchRun := 0 } := by
  obtain ⟨b, hb⟩ := s.fetched_slot u w op
  obtain ⟨fs, lc, p, b', hgo⟩ := Slot.goTo_eq { s.slot (slotIndex u) with buffer := b } ((s.slot (slotIndex u)).streamPtr + 16)
  exact ⟨fs, lc, p, b', by simp [State.advance, hb, hgo]⟩

section WroteReg

variable (s : State) (u : SlotRef) (w : CmdWord) (op r : Nat) (v : Word)

theorem State.wroteReg_slot : ∃ fs lc p b rs, (s.wroteReg u w op r v).slot (slotIndex u) =
    { s.slot (slotIndex u) with loops := fs, lc := lc, streamPtr := p, preReady := false, buffer := b, watchRun := 0, regs := rs } := by
  obtain ⟨fs, lc, p, b, h⟩ := s.advance_fetched_slot u w op
  obtain ⟨rs, hrs⟩ := Slot.setReg_eq (((s.fetched u w op).advance (slotIndex u)).slot (slotIndex u)) r v
  exact ⟨fs, lc, p, b, rs, by rw [State.wroteReg, State.modSlot_slot_same, hrs, h]⟩

theorem State.wroteReg_reg (hr : r < 32) (q : Nat) : ((s.wroteReg u w op r v).slot (slotIndex u)).reg q =
    if q = 0 then 0 else if q = r then v else (s.slot (slotIndex u)).reg q := by
  obtain ⟨fs, lc, p, b, h⟩ := s.advance_fetched_slot u w op
  rw [State.wroteReg, State.modSlot_slot_same, Slot.reg_setReg _ hr, h]
  rfl

theorem State.wroteReg_slot_other {j : Nat} (hj : j ≠ slotIndex u) : (s.wroteReg u w op r v).slot j = s.slot j := by
  rw [State.wroteReg, State.modSlot_slot_other _ _ _ _ hj, State.advance_slot_other _ hj, State.fetched_slot_other _ _ _ _ hj]

theorem State.wroteReg_frame : s.wroteReg u w op r v =
    { s with slots := (s.wroteReg u w op r v).slots, lastIssued := (s.wroteReg u w op r v).lastIssued } := by
  have h : s.wroteReg u w op r v = { s.fetched u w op with
    slots := (s.wroteReg u w op r v).slots, lastIssued := (s.wroteReg u w op r v).lastIssued } := rfl
  rw [s.fetched_frame u w op] at h
  exact h

end WroteReg

/-- What a command leaves that does no more than write one scalar register: the frame of SETREG and ADDREG. -/
theorem scalarWrite_frame {s : State} {u : SlotRef} {w : CmdWord} {op r q : Nat} {v : Word} {c : Instr} (hr : r < 32)
    (h : exec c s = .next (s.wroteReg u w op r v)) :
    ∃ t, exec c s = .next t
      ∧ (t.slot (slotIndex u)).reg q = (if q = 0 then 0 else if q = r then v else (s.slot (slotIndex u)).reg q)
      ∧ (t.slot (slotIndex u)).pred = (s.slot (slotIndex u)).pred ∧ (t.slot (slotIndex u)).numFlags = (s.slot (slotIndex u)).numFlags
      ∧ (t.slot (slotIndex u)).numTrap = (s.slot (slotIndex u)).numTrap ∧ (t.slot (slotIndex u)).satCount = (s.slot (slotIndex u)).satCount
      ∧ (t.slot (slotIndex u)).pending = (s.slot (slotIndex u)).pending ∧ (t.slot (slotIndex u)).st = (s.slot (slotIndex u)).st
      ∧ (t.slot (slotIndex u)).hold = (s.slot (slotIndex u)).hold
      ∧ (∀ j, j ≠ slotIndex u → t.slot j = s.slot j) ∧ t = { s with slots := t.slots, lastIssued := t.lastIssued } := by
  obtain ⟨fs, lc, p, b, rs, hs⟩ := s.wroteReg_slot u w op r v
  refine ⟨_, h, s.wroteReg_reg u w op r v hr q, ?_, ?_, ?_, ?_, ?_, ?_, ?_, fun j hj => s.wroteReg_slot_other u w op r v hj,
    s.wroteReg_frame u w op r v⟩ <;> rw [hs]

/-- Settles O13: SETREG and ADDREG each write one scalar register of their slot. -/
theorem scalarWritesFrame : Obligations.ScalarWritesFrame := by
  unfold Obligations.ScalarWritesFrame
  intro u w s q hq i r x
  have hr : r < 32 := Nat.mod_lt _ (by decide)
  have listed (k : Nat) (hk : [0].contains k = true) : (k == 0) = true := by simpa using hk
  refine List.forall_mem_cons.mpr ⟨fun h => scalarWrite_frame (w := w) (op := 0x0A) hr ?_,
    List.forall_mem_singleton.mpr fun h => scalarWrite_frame (w := w) (op := 0x0B) hr ?_⟩
  · exact congrArg Host.Outcome.next (control_of_ready h listed)
  · obtain ⟨fs, lc, p, b, hslot⟩ := s.advance_fetched_slot u w 0x0B
    have hreg : (((s.fetched u w 0x0B).advance i).slot i).reg r = x.reg r := by rw [hslot]; rfl
    rw [← hreg]
    exact congrArg Host.Outcome.next (control_of_ready h listed)

end Sys2Proof.Machine
end

section
/-! PROOFS. Statements O17, O20, O36 and O37: what holds a command back, gives to pegs, number status, and the memories. -/

namespace Sys2Proof.Machine

/-! ### A command fetched and held, and whose turn it is (R126 to R128, R142, R295) -/

/-- The command that a slot holds once one is held at its position. -/
theorem State.holdCommand_held (s : State) (i opcode n : Nat) (waits : Option (List Engine)) :
    ((s.holdCommand i opcode n waits).slot i).held = some { ptr := (s.slot i).streamPtr, opcode, word := n, waits } := by
  simp only [State.holdCommand, State.modSlot_slot_same, Slot.held]
  generalize hothers : (s.slot i).buffer.filter (fun b => b.ptr != (s.slot i).streamPtr) = others
  have none_here : ∀ b ∈ others.drop (others.length - 31), ¬ ((b.ptr == (s.slot i).streamPtr) = true) := by
    intro b hb
    have := hothers ▸ List.mem_of_mem_drop hb
    simpa using (List.mem_filter.mp this).2
  rw [List.drop_append_of_le_length (by omega), List.find?_append, List.find?_eq_none.mpr none_here]
  simp

/-- A command that is held is fetched again only as itself. -/
theorem State.holdCommand_fits (s : State) (i opcode n : Nat) (waits : Option (List Engine)) (op m : Nat) :
    ((s.holdCommand i opcode n waits).slot i).fits op m = true ↔ op = opcode ∧ m = n := by
  rw [Slot.fits, State.holdCommand_held, Option.elim_some, Bool.and_eq_true, beq_iff_eq, beq_iff_eq]
  exact and_congr eq_comm eq_comm

/-- Outside the bodies of its slot's loops, and where a command is held at its position, a fetch holds nothing. -/
theorem State.fetched_of_not_held {s : State} {u : SlotRef} {w : CmdWord} {op : Nat}
    (h : (s.slot (slotIndex u)).loops.all (fun l => !l.holds (s.slot (slotIndex u)).streamPtr) = true ∨ (s.slot (slotIndex u)).held ≠ none) :
    s.fetched u w op = s := by
  refine if_neg fun hc => ?_
  obtain ⟨hloop, hnone⟩ := (Bool.and_eq_true _ _).mp hc
  rcases h with h | h
  · obtain ⟨l, hl, hin⟩ := List.any_eq_true.mp hloop
    have hout := List.all_eq_true.mp h l hl
    simp [hin] at hout
  · exact h (Option.isNone_iff_eq_none.mp hnone)

/-- Within a loop's body a fetch holds its command. -/
theorem State.fetched_of_loop {s : State} {u : SlotRef} {w : CmdWord} {op : Nat}
    (hloop : (s.slot (slotIndex u)).loops.any (fun l => l.holds (s.slot (slotIndex u)).streamPtr) = true)
    (hnone : (s.slot (slotIndex u)).held = none) : s.fetched u w op = s.holdCommand (slotIndex u) op w.toNat none :=
  if_pos (by rw [hloop, hnone]; rfl)

/-- Whose turn it is (R128). -/
theorem State.turn_iff (s : State) (i : Nat) : s.turn i = true ↔ ∀ k, k < 4 → 4 * coreOfSlot i + k ≠ i →
    s.waitingReady (4 * coreOfSlot i + k) = true → s.effPrio (4 * coreOfSlot i + k) < s.effPrio i ∨
      (s.effPrio (4 * coreOfSlot i + k) = s.effPrio i ∧
        (i % 4 + 3 - tabGet s.lastIssued (coreOfSlot i) 3) % 4 < (k + 3 - tabGet s.lastIssued (coreOfSlot i) 3) % 4) := by
  unfold State.turn
  rw [List.all_eq_true]
  refine forall_congr' fun k => ?_
  rw [List.mem_range]
  refine imp_congr_right fun _ => ?_
  rw [Bool.or_eq_true, Bool.or_eq_true, Bool.or_eq_true, Bool.and_eq_true, beq_iff_eq, Bool.not_eq_true',
    decide_eq_true_eq, decide_eq_true_eq, decide_eq_true_eq, ← Bool.not_eq_true]
  tauto

section Issue

variable {s : State} {u : SlotRef} {w : CmdWord} {op : Nat} {form : Form} (engines : Nat → List Engine × Bool)
  (work : State → Nat → Nat → Work)

/-- A command that may request state issues nothing before state is served (R27, R295). -/
theorem issueEngine_of_not_served (h : s.fetches u w op = true) (hq : (s.slot (slotIndex u)).predicate w.toNat = true)
    (hop : 0x60 ≤ op) (hs : (s.fetched u w op).stateServed = false) : s.issueEngine u w op form engines work = s.fetched u w op := by
  obtain ⟨hi, hf, t, hp⟩ := fetches_parts h
  have hshut : (!(s.fetched u w op).tier.journalReplayed || !(s.fetched u w op).up 54) = true := by
    rw [← Bool.not_and]
    exact (Bool.not_eq_true' _).mpr hs
  rw [State.fetched] at hshut ⊢
  simp [State.issueEngine, hi, hf, hp, hq, hop, hshut]

/-- A well-formed engine command whose engine is busy with its slot, or whose turn it is not, waits in the buffer (R127, R128). -/
theorem issueEngine_of_busy {d : Nat} (h : s.fetches u w op = true) (hq : (s.slot (slotIndex u)).predicate w.toNat = true)
    (hform : formOk form w.toNat = true) (hopnd : (s.fetched u w op).opndAllowed (slotIndex u) w.toNat = true)
    (hd : (s.fetched u w op).readDesc (slotIndex u) w.toNat form = .ok d) (hs : op < 0x60 ∨ (s.fetched u w op).stateServed = true)
    (hwait : (s.fetched u w op).slotBusy (slotIndex u) (engines d).1 = true ∨ (s.fetched u w op).turn (slotIndex u) = false) :
    s.issueEngine u w op form engines work = (s.fetched u w op).holdCommand (slotIndex u) op w.toNat (some (engines d).1) := by
  obtain ⟨hi, hf, t, hp⟩ := fetches_parts h
  have hg := stateGate_open hs
  rw [State.fetched] at hg hopnd hd hwait ⊢
  rcases hwait with hwait | hwait <;> simp [State.issueEngine, hi, hf, hp, hq, hg, hform, hopnd, hd, hwait]

end Issue

/-- Settles O20: what a fetch holds, the order of a core's slots, and the commands that wait. -/
theorem busyEnginesHoldIssue : Obligations.BusyEnginesHoldIssue := by
  unfold Obligations.BusyEnginesHoldIssue
  refine ⟨fun u w s op => ?fetch, State.turn_iff, fun s u w opcode form engines work d => ?issue⟩
  case fetch =>
    refine ⟨?_, fun j hj => State.fetched_slot_other s u w op hj, s.fetched_frame u w op, State.fetched_of_not_held,
      fun hloop hnone => ?_⟩
    · obtain ⟨b, hb⟩ := s.fetched_slot u w op
      simp only [hb]
    · rw [State.fetched_of_loop hloop hnone, State.holdCommand_held]
  case issue =>
    exact fun h hq => ⟨issueEngine_of_not_served engines work h hq, fun hform hopnd hd hs hwait =>
      issueEngine_of_busy engines work h hq hform hopnd hd hs hwait, State.holdCommand_fits _ _ _ _ _⟩

/-! ### Gives (R40, R151) -/

/-- What an examination of a peg with no waiters keeps: each peg, and the clusters' overflow counters. -/
structure State.SamePegs (s t : State) : Prop where
  peg : ∀ n k, t.peg n k = s.peg n k
  overflows : ∀ n, t.obj (Key.at Key.pegOverflows n) = s.obj (Key.at Key.pegOverflows n)

theorem State.SamePegs.refl (s : State) : s.SamePegs s := ⟨fun _ _ => rfl, fun _ => rfl⟩

theorem State.SamePegs.trans {s t r : State} (h : s.SamePegs t) (h' : t.SamePegs r) : s.SamePegs r :=
  ⟨fun n k => (h'.peg n k).trans (h.peg n k), fun n => (h'.overflows n).trans (h.overflows n)⟩

theorem State.SamePegs.foldl {α : Type} {f : State → α → State} (h : ∀ (t : State) a, t.SamePegs (f t a)) (l : List α) (s : State) :
    s.SamePegs (l.foldl f s) := by
  induction l generalizing s with
  | nil => exact .refl s
  | cons a l ih => exact (h s a).trans (ih _)

/-- A change of a cluster that leaves its pegs. -/
theorem State.modCluster_samePegs (s : State) (n : Nat) {f : Cluster → Cluster} (h : ∀ c, (f c).pegs = c.pegs) :
    s.SamePegs (s.modCluster n f) := by
  refine ⟨fun m k => ?_, fun m => rfl⟩
  by_cases hm : m = n
  · subst hm; simp [State.peg, h]
  · simp [State.peg, hm]

/-- A donation counts in an object that is no overflow counter. -/
theorem State.bump_donationsReceived_samePegs (s : State) (p : Nat) : s.SamePegs (s.bump (Key.at Key.donationsReceived p)) := by
  refine ⟨fun m k => rfl, fun m => ?_⟩
  have hne : Key.at Key.pegOverflows m ≠ Key.at Key.donationsReceived p := by
    simp only [Key.at, Key.pegOverflows, Key.donationsReceived]
    omega
  rw [State.bump, State.setObj_obj_other _ _ _ _ hne]

theorem State.donate_samePegs (s : State) (n peg i : Nat) : s.SamePegs (s.donate n peg i) := by
  unfold State.donate
  split
  · refine .foldl (fun t h => ?_) _ s
    split
    · refine State.SamePegs.trans ?_ (State.bump_donationsReceived_samePegs _ _)
      exact t.modCluster_samePegs n fun _ => rfl
    · exact .refl t
  · exact .refl s

theorem State.donateAll_samePegs (s : State) (n : Nat) : s.SamePegs (s.donateAll n) := by
  unfold State.donateAll
  refine .foldl (fun t _ => ?_) _ s
  exact .foldl (fun r (w : Waiter) => r.donate_samePegs n w.peg w.slot) _ t

/-- Examining a peg on which nothing waits changes no peg. -/
theorem State.examine_samePegs {s : State} {n k : Nat} (h : (s.cluster n).waiters.all (fun v => v.peg != k) = true) :
    s.SamePegs (s.examine n k) := by
  have nobody : s.orderedWaiters n k = [] := by
    have : (s.cluster n).waiters.filter (·.peg == k) = [] := by
      simpa [List.filter_eq_nil_iff] using h
    rw [State.orderedWaiters, this]
    rfl
  rw [State.examine, nobody, List.foldl_nil]
  refine State.SamePegs.trans ?_ (State.donateAll_samePegs _ n)
  exact s.modCluster_samePegs n fun _ => rfl

/-- An overflow counter stops at 2^32 - 1 (log entry 15). -/
theorem State.bump_pegOverflows (s : State) {n : Nat} (hn : n < 6) : (s.bump (Key.at Key.pegOverflows n)).obj (Key.at Key.pegOverflows n)
    = min (2 ^ 32 - 1) (s.obj (Key.at Key.pegOverflows n) + 1) := by
  have width : (objRow (Key.at Key.pegOverflows n)).elim 64 (·.ty.width) = 32 := by
    decide +revert +kernel
  rw [State.bump, State.setObj_obj_same, width]

/-- What a peg holds after `amount` is given to it (R151). -/
def Peg.given (p : Peg) (amount : Nat) : Peg :=
  if 65535 < p.value.toNat + amount then { p with value := 65535, ovf := true }
  else { p with value := BitVec.ofNat 16 (p.value.toNat + amount) }

theorem Peg.given_value (p : Peg) (amount : Nat) : (p.given amount).value.toNat = min 65535 (p.value.toNat + amount) := by
  unfold Peg.given
  split
  · next h => simp [Nat.min_eq_left h.le]
  · next h => simp [Nat.min_eq_right (Nat.not_lt.mp h), Nat.mod_eq_of_lt (Nat.lt_succ_of_le (Nat.not_lt.mp h))]

theorem Peg.given_ovf (p : Peg) (amount : Nat) : (p.given amount).ovf = (p.ovf || decide (65535 < p.value.toNat + amount)) := by
  unfold Peg.given
  split <;> simp [*]

theorem Peg.given_holders (p : Peg) (amount : Nat) : (p.given amount).holders = p.holders := by
  unfold Peg.given
  split <;> rfl

/-- A give to a peg on which nothing waits: the peg and the cluster's counter are written, and nothing is granted. -/
theorem State.givePeg_samePegs {s : State} {name amount : Nat}
    (h : (s.cluster (name / 1024)).waiters.all (fun v => v.peg != name % 1024) = true) :
    State.SamePegs
      (if 65535 < (s.peg (name / 1024) (name % 1024)).value.toNat + amount then
        (s.setPeg (name / 1024) (name % 1024) ((s.peg (name / 1024) (name % 1024)).given amount)).bump
          (Key.at Key.pegOverflows (name / 1024))
      else s.setPeg (name / 1024) (name % 1024) ((s.peg (name / 1024) (name % 1024)).given amount))
      (s.givePeg name amount none) := by
  refine State.examine_samePegs ?_
  split <;> simpa using h

/-- Settles O17: the peg that is given to, the counter of the cluster, and every other peg. -/
theorem givesStopAtTheTop : Obligations.GivesStopAtTheTop := by
  unfold Obligations.GivesStopAtTheTop
  intro s name amount n k p t hname hwait
  have hsame := State.givePeg_samePegs (amount := amount) hwait
  have hn : n < 6 := by omega
  have hpegs : ∀ j, t.peg n j = (s.setPeg n k (p.given amount)).peg n j := fun j => by
    refine (hsame.peg n j).trans ?_
    split <;> rfl
  have hgiven : t.peg n k = p.given amount := (hpegs k).trans (State.setPeg_peg_same s n k _)
  refine ⟨by rw [hgiven, Peg.given_value], by rw [hgiven, Peg.given_ovf], by rw [hgiven, Peg.given_holders], fun j hj => ?_, ?_⟩
  · rw [hpegs, State.setPeg_peg_other s n k j _ hj]
  · refine (hsame.overflows n).trans ?_
    split
    · exact State.bump_pegOverflows _ hn
    · rfl

/-! ### NUM_FLAGS and NUM_SAT_COUNT (R98, R99), and the memories -/

/-- Settles O36: the two registers that a command's conditions change. -/
theorem numberStatusAccumulates : Obligations.NumberStatusAccumulates := by
  unfold Obligations.NumberStatusAccumulates
  intro s i m
  refine ⟨by simp [State.meet], ?_, by simp [State.meet], fun j hj => by simp [State.meet, hj], rfl⟩
  have hcount : min 0xFFFFFFFF ((s.slot i).satCount.toNat + m.sat) < 2 ^ 32 := by omega
  simp only [State.meet, State.modSlot_slot_same, BitVec.toNat_ofNat, Nat.mod_eq_of_lt hcount]

/-- What is read of a memory after a range was cleared. -/
theorem memByte_memClear (m : Mem) (a n x : Nat) :
    memByte (memClear m a n) x = if a ≤ x ∧ x < a + n then 0 else memByte m x := by
  split
  · refine memByte_of_not_mem fun c hc => ?_
    have hkept := (List.mem_filter.mp hc).2
    simp only [Bool.or_eq_true, decide_eq_true_eq] at hkept
    omega
  · refine memByte_filter fun v => ?_
    simp only [Bool.or_eq_true, decide_eq_true_eq]
    omega

/-- What is read of a memory after a store. -/
theorem memByte_memWrite (m : Mem) (a : Nat) (bs : List Byte) (x : Nat) :
    memByte (memWrite m a bs) x = if a ≤ x ∧ x < a + bs.length then bs.getD (x - a) 0 else memByte m x := by
  split
  · have hx : x = a + (x - a) := by omega
    conv_lhs => rw [hx]
    exact memByte_memWrite_same m a bs (x - a) (by omega)
  · exact memByte_memWrite_other m a bs x (by omega)

/-- Settles O37, from the laws of one store and one clear. -/
theorem memoryReadsAfterWrites : Obligations.MemoryReadsAfterWrites := by
  unfold Obligations.MemoryReadsAfterWrites
  exact fun m a x bs => ⟨memByte_memWrite m a bs x, memWrite_wf m a bs, fun n => ⟨memClear_wf m a n, memByte_memClear m a n x⟩⟩

end Sys2Proof.Machine
end

section
/-! PROOFS. Statements O23 to O29: the rows of the engine commands issue; the places and writes of matrix and vector steps. -/

namespace Sys2Proof.Machine

/-! ### Engine commands issue (chapters 03 to 10) -/

/-- A row whose meaning is the issue of an engine command issues. -/
theorem engineIssues_of_exec {cmd op form engines work}
    (h : ∀ u w s, exec (cmd u w) s = .next (s.issueEngine u w op form engines work)) :
    EngineIssues cmd op form engines work :=
  engineIssues_of fun u w s _ _ _ => h u w s

/-- A slot whose transfer command is ready has none on the transfer engine. -/
theorem jobOf_xfr_of_ready {s : State} {u : SlotRef} {w : CmdWord} {op : Nat} {form : Form} {d : Nat} {es : List Engine}
    {either : Bool} {s1 : State} (h : s.engineReady u w op form xfrOnly = some (d, es, either, s1)) :
    s.jobOf (slotIndex u) .xfr = none := by
  have free : (s.fetched u w op).slotBusy (slotIndex u) [.xfr] = false := by
    by_contra hbusy
    rw [Bool.not_eq_false] at hbusy
    unfold State.engineReady at h
    dsimp only [xfrOnly] at h
    split at h
    · split at h
      · cases h
      · simp [hbusy] at h
    · cases h
  rw [← s.fetched_jobOf u w op, State.jobOf, List.find?_eq_none]
  simpa [State.slotBusy] using free

/-- A row that issues a transfer and forms its first packet issues. -/
theorem engineIssues_of_issueMove {cmd op form work}
    (h : ∀ u w s, exec (cmd u w) s = .next (s.issueMove u w op form work)) :
    EngineIssues cmd op form xfrOnly work (after := firstPacket) := by
  intro u w s d es either s1 hr _ he hs
  rw [h, State.issueMove, issue_of_ready (work := work) hr he hs, if_pos (Option.isNone_iff_eq_none.mpr (jobOf_xfr_of_ready hr))]
  rfl

/-- A fetch leaves what its slot reads as a descriptor. -/
theorem State.fetched_readDesc (s : State) (u : SlotRef) (w : CmdWord) (op n : Nat) (form : Form) :
    (s.fetched u w op).readDesc (slotIndex u) n form = s.readDesc (slotIndex u) n form := by
  have hcore : (s.fetched u w op).core (coreOfSlot (slotIndex u)) = s.core (coreOfSlot (slotIndex u)) := by
    rw [s.fetched_frame]
    rfl
  obtain ⟨b, hb⟩ := s.fetched_slot u w op
  simp only [State.readDesc, State.spPoisonFault, State.readSp, hcore, hb]
  rfl

/-- Of the rows of one opcode, the one that its descriptor names issues. -/
theorem engineIssues_of_shared {cmd op form engines work} {mine : Nat → Bool} {after : State → State}
    {meaning : State → SlotRef → CmdWord → State} (hexec : ∀ u w s, exec (cmd u w) s = .next (meaning s u w))
    (h : ∀ u w s d, s.readDesc (slotIndex u) w.toNat form = .ok d → mine d = true →
      meaning s u w = after (s.issueEngine u w op form engines work)) :
    EngineIssues cmd op form engines work mine (fun _ => after) :=
  engineIssues_of fun u w s d hd hm => by rw [hexec, h u w s d (State.fetched_readDesc .. ▸ hd) hm]

/-- Settles O25: the rows of the transfer commands. -/
theorem transferCommandsIssue : Obligations.TransferCommandsIssue := by
  unfold Obligations.TransferCommandsIssue
  exact ⟨engineIssues_of_issueMove fun _ _ _ => rfl, engineIssues_of_issueMove fun _ _ _ => rfl,
    engineIssues_of_issueMove fun _ _ _ => rfl, engineIssues_of_exec fun _ _ _ => rfl, engineIssues_of_issueMove fun _ _ _ => rfl,
    engineIssues_of_exec fun _ _ _ => rfl, engineIssues_of_issueMove fun _ _ _ => rfl⟩

/-- Settles O26: the rows of the window commands. -/
theorem windowCommandsIssue : Obligations.WindowCommandsIssue := by
  unfold Obligations.WindowCommandsIssue
  exact ⟨engineIssues_of_exec fun _ _ _ => rfl, engineIssues_of_exec fun _ _ _ => rfl, engineIssues_of_issueMove fun _ _ _ => rfl,
    engineIssues_of_issueMove fun _ _ _ => rfl⟩

/-- Settles O27: the rows of the key/value commands. -/
theorem kvCommandsIssue : Obligations.KvCommandsIssue := by
  unfold Obligations.KvCommandsIssue
  and_intros <;> exact engineIssues_of_exec fun _ _ _ => rfl

/-- RSWAP with its row's ACTION issues. -/
theorem rswap_of_action {s : State} {u : SlotRef} {w : CmdWord} {d a : Nat} (hd : s.readDesc (slotIndex u) w.toNat .d64 = .ok d)
    (ha : (field d 33 32 == a) = true) : s.rswap u w a = (s.issueEngine u w 0xA4 .d64 xfrOnly State.rswapWork).grantHandles := by
  simp [State.rswap, hd, bne, ha, State.grantHandles]

/-- FCOLL with its row's COP issues. -/
theorem fcoll_of_cop {s : State} {u : SlotRef} {w : CmdWord} {d c : Nat} (hd : s.readDesc (slotIndex u) w.toNat .d128 = .ok d)
    (hc : (field d 297 295 == c) = true) : s.fcoll u w c = (s.issueEngine u w 0xB3 .d128 xfrOnly State.fcollWork).serveGroups := by
  simp [State.fcoll, hd, bne, hc]

/-- FGLOBAL with its row's GOP issues. -/
theorem fglobal_of_gop {s : State} {u : SlotRef} {w : CmdWord} {d g : Nat} (hd : s.readDesc (slotIndex u) w.toNat .d64 = .ok d)
    (hg : (field d 494 492 == g) = true) : s.fglobal u w g = (s.issueEngine u w 0xB4 .d64 xfrOnly State.fglobalWork).serveGroups := by
  simp [State.fglobal, hd, bne, hg]

/-- Settles O28: the rows of the recurrent commands, those of RSWAP by ACTION. -/
theorem recurrentCommandsIssue : Obligations.RecurrentCommandsIssue := by
  unfold Obligations.RecurrentCommandsIssue
  refine ⟨?rcell, engineIssues_of_exec fun _ _ _ => rfl, ?rscan, ?rckpt, ?out, ?in_, ?revoke⟩
  case rcell => exact engineIssues_of fun _ _ _ _ _ _ => rfl
  case rscan => exact engineIssues_of fun _ _ _ _ _ _ => rfl
  case rckpt => exact engineIssues_of fun _ _ _ _ _ _ => rfl
  all_goals exact engineIssues_of_shared (fun _ _ _ => rfl) fun _ _ _ _ => rswap_of_action

/-- Settles O29: the rows of the fabric commands, those of FCOLL and FGLOBAL by COP and GOP. -/
theorem fabricCommandsIssue : Obligations.FabricCommandsIssue := by
  unfold Obligations.FabricCommandsIssue
  refine ⟨engineIssues_of_exec fun _ _ _ => rfl, engineIssues_of_exec fun _ _ _ => rfl, engineIssues_of_exec fun _ _ _ => rfl,
    ?allreduce, ?reduce, ?broadcast, ?barrier, ?globalBroadcast⟩
  case allreduce => exact engineIssues_of_shared (fun _ _ _ => rfl) fun _ _ _ _ => fcoll_of_cop
  case reduce => exact engineIssues_of_shared (fun _ _ _ => rfl) fun _ _ _ _ => fcoll_of_cop
  case broadcast => exact engineIssues_of_shared (fun _ _ _ => rfl) fun _ _ _ _ => fcoll_of_cop
  case barrier => exact engineIssues_of_shared (fun _ _ _ => rfl) fun _ _ _ _ => fglobal_of_gop
  case globalBroadcast => exact engineIssues_of_shared (fun _ _ _ => rfl) fun _ _ _ _ => fglobal_of_gop

/-! ### The steps of matrix and vector commands (R157, R158, R173) -/

theorem foldl_join_writes (parts : List Step) (x : Step) :
    (parts.foldl Step.join x).writes = x.writes ++ parts.flatMap (fun y => y.writes) := by
  induction parts generalizing x with
  | nil => simp
  | cons y parts ih => simp [ih, Step.join]

theorem foldl_join_on (parts : List Step) (x : Step) : (parts.foldl Step.join x).on = x.on := by
  induction parts generalizing x with
  | nil => rfl
  | cons y parts ih => rw [List.foldl_cons, ih]; rfl

/-- The parts of a list cut at multiples of `p` make its beginning. -/
theorem flatMap_take_drop {α : Type} (l : List α) (p n : Nat) :
    (List.range n).flatMap (fun k => (l.drop (k * p)).take p) = l.take (n * p) := by
  induction n with
  | zero => simp
  | succ n ih => rw [List.range_succ, List.flatMap_append, ih, List.flatMap_singleton, ← List.take_add, Nat.succ_mul]

theorem le_ceilDiv_mul (n : Nat) {p : Nat} (hp : 0 < p) : n ≤ ceilDiv n p * p := by
  have := Nat.lt_div_mul_add (a := n + p - 1) hp
  unfold ceilDiv
  omega

/-- However rows are joined to steps, their writes stay in order, each once. -/
theorem joinSteps_writes (per : Nat) (rows : List Step) :
    (joinSteps per rows).flatMap (fun x => x.writes) = rows.flatMap (fun x => x.writes) := by
  have hp : 0 < max 1 per := by omega
  conv_rhs => rw [← List.take_of_length_le (le_ceilDiv_mul rows.length hp), ← flatMap_take_drop]
  simp [joinSteps, List.flatMap_map, foldl_join_writes, List.flatMap_assoc]

/-- The place of the element `q` of the part `t` in parts of one length. -/
theorem getElem?_flatMap_range {α : Type} (f : Nat → Nat → α) {a b t q : Nat} (ht : t < a) (hq : q < b) :
    ((List.range a).flatMap (fun t => (List.range b).map (f t)))[t * b + q]? = some (f t q) := by
  induction a with
  | zero => omega
  | succ a ih =>
    have hlen : ((List.range a).flatMap (fun t => (List.range b).map (f t))).length = a * b := by simp
    rw [List.range_succ, List.flatMap_append, List.flatMap_singleton]
    rcases Nat.lt_succ_iff_lt_or_eq.mp ht with h | rfl
    · have hin : t * b + q < a * b := by nlinarith
      rw [List.getElem?_append_left (hlen ▸ hin), ih h]
    · rw [List.getElem?_append_right (by omega), hlen, Nat.add_sub_cancel_left]
      simp [hq]

theorem length_packCodes_fp32 (cs : List Nat) : (packCodes .fp32 cs).length = 4 * cs.length := by
  induction cs with
  | nil => rfl
  | cons c cs ih =>
    cases cs with
    | nil => rfl
    | cons d rest => rw [packCodes, List.length_append, ih]; simp [natLe]; omega

/-- The chunk `q` of tile `t` is a tile step's place, its engine and the tile within which it writes. -/
theorem tileSteps_chunk (s : State) (i engine tile m n k : Nat) {t q : Nat} (start : Nat → Nat → Word)
    (operands : Nat → Nat → List (Option (Machine.Num × Machine.Num)))
    (ht : t < ceilDiv m 32 * ceilDiv n 32) (hq : q < ceilDiv k 512) :
    ∃ x, (s.tileSteps i engine tile m n k start operands)[t * ceilDiv k 512 + q]? = some x ∧
      x.on = (if engine = 3 then some (if t % 2 = 0 then .m0 else .m1) else none) ∧
      ∀ w ∈ x.writes, w.1 = true ∧ 4096 * (tile + t) ≤ w.2.1 ∧ w.2.1 + w.2.2.length ≤ 4096 * (tile + t + 1) := by
  refine ⟨_, getElem?_flatMap_range _ ht hq, foldl_join_on _ _, fun w hw => ?_⟩
  simp only [foldl_join_writes, List.nil_append, List.flatMap_map, List.mem_flatMap, List.mem_range, List.mem_singleton] at hw
  obtain ⟨r, hr, rfl⟩ := hw
  simp only [length_packCodes_fp32, List.length_map, List.length_range, true_and]
  omega

/-- Settles O23: the places of the tile steps, and the rows of the matrix commands. -/
theorem matrixCommandsIssue : Obligations.MatrixCommandsIssue := by
  unfold Obligations.MatrixCommandsIssue
  exact ⟨fun s i engine tile m n k t q start operands ht hq => tileSteps_chunk s i engine tile m n k start operands ht hq,
    engineIssues_of_exec fun _ _ _ => rfl, engineIssues_of_exec fun _ _ _ => rfl, engineIssues_of_exec fun _ _ _ => rfl⟩

/-- Settles O24: the writes of joined steps, and the rows of the vector commands, each with its shape and function. -/
theorem vectorCommandsIssue : Obligations.VectorCommandsIssue := by
  unfold Obligations.VectorCommandsIssue
  refine ⟨joinSteps_writes, ?_⟩
  refine ⟨?_, ?_, ?_, ?_, ?_, ?_, ?_, ?_, ?_, ?_, ?_, ?_, ?_, ?_, ?_, ?_, ?_, ?_, ?_, ?_, ?_, ?_, ?_⟩ <;>
    exact vectorIssues_of rfl fun _ _ _ => rfl

end Sys2Proof.Machine
end

section
/-! PROOFS. Statements O32 to O35: NaN and the zeros, comparisons, and narrowing to bf16 and FP8. -/

namespace Sys2Proof.Machine

/-! ### NaN and the signed zeros (R64, R65) -/

theorem f32Value_of_isNan32 {a : Word} (h : isNan32 a = true) : f32Value a = .nan := by
  simp only [isNan32, decide_eq_true_eq] at h
  have hex : field a.toNat (8 + 23 - 1) 23 = 2 ^ 8 - 1 := by
    simp only [field, Nat.shiftRight_eq_div_pow]
    omega
  have hfr : a.toNat % 2 ^ 23 ≠ 0 := by omega
  simp only [f32Value, ieeeValue, hex, hfr, if_true, if_false]

@[simp] theorem Fp.nan_add (b : Fp) : Fp.nan.add b = .nan := by cases b <;> rfl
@[simp] theorem Fp.add_nan (a : Fp) : a.add .nan = .nan := by cases a <;> rfl
@[simp] theorem Fp.nan_mul (b : Fp) : Fp.nan.mul b = .nan := by cases b <;> rfl
@[simp] theorem Fp.mul_nan (a : Fp) : a.mul .nan = .nan := by cases a <;> rfl
@[simp] theorem Fp.nan_div (b : Fp) : Fp.nan.div b = .nan := by cases b <;> rfl
@[simp] theorem Fp.div_nan (a : Fp) : a.div .nan = .nan := by cases a <;> rfl
@[simp] theorem Fp.neg_nan : Fp.nan.neg = .nan := rfl
@[simp] theorem f32Of_nan : f32Of .nan = nan32 := rfl

/-- Settles O32: a NaN operand makes each exact result NaN; the zeros by evaluation. -/
theorem nanAndSignedZeros : Obligations.NanAndSignedZeros := by
  unfold Obligations.NanAndSignedZeros
  refine ⟨fun a b c => ⟨fun h => ?operand, fun h => ?addend⟩, by decide, by decide, by decide, by decide⟩
  case operand =>
    rcases h with h | h <;>
      simp [f32Add, f32Sub, f32Mul, f32Div, f32Max, f32Min, f32Fma, numOf, f32Value_of_isNan32 h, h]
  case addend => simp [f32Fma, numOf, f32Value_of_isNan32 h]

/-! ### Comparisons (R171) -/

/-- Settles O33: each SUBOP's condition, with a NaN operand and without one. -/
theorem vectorComparisons : Obligations.VectorComparisons := by
  unfold Obligations.VectorComparisons
  intro a b subop hsub
  refine ⟨?values, fun hnan => ?unordered, fun ha hb => ?ordered⟩
  case values =>
    simp only [vecCompare, numOf]
    split <;> simp
  case unordered =>
    have hun : f32Eq a b = false ∧ f32Lt a b = false ∧ f32Le a b = false := by
      rcases hnan with h | h <;> simp [f32Eq, f32Lt, f32Le, h]
    obtain ⟨heq, hlt, hle⟩ := hun
    interval_cases subop <;> simp [vecCompare, numOf, heq, hlt, hle]
  case ordered => interval_cases subop <;> simp [vecCompare, numOf, f32Eq, f32Lt, f32Le, ha, hb]

/-! ### Narrowing to bf16 (R54, R67) -/

/-- A bf16 pattern that is no NaN is the upper half of its FP32 pattern, and narrows to itself. -/
theorem toBf16_of_not_nan {h : Nat} (hh : h < 65536) (hn : isNan32 (BitVec.ofNat 32 (h * 65536)) = false) :
    toBf16 (BitVec.ofNat 32 (h * 65536)) = { bits := BitVec.ofNat 32 h, fl := 0 } := by
  have hx : (BitVec.ofNat 32 (h * 65536)).toNat = h * 65536 := by
    rw [BitVec.toNat_ofNat]
    exact Nat.mod_eq_of_lt (by omega)
  have hround : (h * 65536 / 2 ^ 31 * 2 ^ 31 + (h * 65536 % 2 ^ 31 + 0x8000)) / 2 ^ 16 = h := by omega
  have hfl : (isFinite32 (BitVec.ofNat 32 (h * 65536)) && h % 2 ^ 15 == 0x7F80) = false := by
    simp only [isFinite32, hx, Bool.and_eq_false_iff, decide_eq_false_iff_not, beq_eq_false_iff_ne]
    omega
  simp only [toBf16, hn, hx, hround, hfl, condIf, Bool.false_eq_true, if_false]

/-- Settles O34: a NaN becomes the canonical one and narrows to 0x7FC0; any other pattern keeps its upper half. -/
theorem bf16RoundTrip : Obligations.Bf16RoundTrip := by
  unfold Obligations.Bf16RoundTrip
  intro h hh
  have hwide : ofBf16 h = if isNan32 (BitVec.ofNat 32 (h * 65536)) then nan32 else BitVec.ofNat 32 (h * 65536) := by
    simp only [ofBf16, Nat.mod_eq_of_lt (show h < 2 ^ 16 from hh)]
    rfl
  rw [hwide]
  split
  · rfl
  · next hn => exact toBf16_of_not_nan hh (Bool.not_eq_true _ ▸ hn)

/-! ### Narrowing to FP8 (R69) -/

/-- Rounding, ties away, of a value with `k` fraction bits below half the least step. -/
theorem roundMag_of_le_half {fb : Nat} {qmin e : Int} {m k : Nat} (hk : e + k = qmin - 1) (hm : m ≤ 2 ^ k) :
    roundMag true fb qmin m e = if m = 2 ^ k then 1 else 0 := by
  have hpos : 0 < 2 ^ k := Nat.two_pow_pos k
  unfold roundMag
  by_cases h0 : m = 0
  · simp [h0, hpos.ne]
  · have hlog : Nat.log2 m ≤ k := by
      have := (Nat.log2_lt h0 (k := k + 1)).mpr (by rw [pow_succ]; omega)
      omega
    have hq : max qmin ((Nat.log2 m : Int) + e - fb) = qmin := by omega
    have hsh : (qmin - e).toNat = k + 1 := by omega
    have hlt : m < 2 ^ (k + 1) := by rw [pow_succ]; omega
    have hle : ¬ qmin ≤ e := by omega
    simp only [h0, if_false, hq, hle, hsh, Nat.mod_eq_of_lt hlt, Nat.shiftRight_eq_div_pow, Nat.div_eq_of_lt hlt]
    by_cases hhalf : m = 2 ^ k <;> simp [hhalf]
    omega

/-- The sign bit of a pattern. -/
theorem sign_eq (x : Word) : x.toNat / 2 ^ 31 = if x.toNat < 2 ^ 31 then 0 else 1 := by
  have := x.isLt
  split <;> omega

/-- A finite value whose magnitude rounds to a code below the saturating ones narrows to that code with its sign. -/
theorem narrow_e4m3_bits {x : Word} {neg : Bool} {m r : Nat} {e : Int} (hx : f32Value x = .fin neg m e)
    (hr : roundMag true 3 (-9) m e = r) (hlt : r < 0x7F) : (narrow .e4m3 x).bits = BitVec.ofNat 32 (x.toNat / 2 ^ 31 * 128 + r) := by
  simp only [narrow, hx, hr, if_neg (Nat.not_le.mpr hlt)]

theorem narrow_e5m2_bits {x : Word} {neg : Bool} {m r : Nat} {e : Int} (hx : f32Value x = .fin neg m e)
    (hr : roundMag true 2 (-16) m e = r) (hlt : r < 0x7C) : (narrow .e5m2 x).bits = BitVec.ofNat 32 (x.toNat / 2 ^ 31 * 128 + r) := by
  simp only [narrow, hx, hr, if_neg (Nat.not_le.mpr hlt)]

/-- Settles O35: below half the smallest subnormal a magnitude rounds to zero, and from half of it to that subnormal. -/
theorem narrowingBelowSubnormals : Obligations.NarrowingBelowSubnormals := by
  unfold Obligations.NarrowingBelowSubnormals
  intro x neg m e hx
  have signed (c : Nat) : BitVec.ofNat 32 (x.toNat / 2 ^ 31 * 128 + c)
      = if x.toNat < 2 ^ 31 then BitVec.ofNat 32 c else BitVec.ofNat 32 (128 + c) := by
    rw [sign_eq]
    split <;> simp
  simp only [List.forall_mem_cons, List.not_mem_nil, false_implies, implies_true, and_true]
  refine ⟨⟨fun k hk hm => ?_, fun k hk hm => ?_⟩, fun k hk hm => ?_, fun k hk hm => ?_⟩
  · exact (narrow_e4m3_bits hx ((roundMag_of_le_half hk hm.le).trans (if_neg hm.ne)) (by decide)).trans (signed 0)
  · exact (narrow_e4m3_bits hx ((roundMag_of_le_half hk hm.le).trans (if_pos hm)) (by decide)).trans (signed 1)
  · exact (narrow_e5m2_bits hx ((roundMag_of_le_half hk hm.le).trans (if_neg hm.ne)) (by decide)).trans (signed 0)
  · exact (narrow_e5m2_bits hx ((roundMag_of_le_half hk hm.le).trans (if_pos hm)) (by decide)).trans (signed 1)

end Sys2Proof.Machine
end

section
/-! PROOFS. Statements O38 to O44: the ends of engine steps, commands and requests, timers, pulses, chains, teardowns and CORE_MODE. -/

namespace Sys2Proof.Machine

/-! ### The ends of steps, and DIV (R101, R134, R136, R181, R185) -/

/-- A field above a mask's hole is the field written there. -/
theorem field_maskOr {m mask v : Word} {d : Nat} (hmask : field mask.toNat 10 8 = 0) (hv : field v.toNat 10 8 = d) :
    field (m &&& mask ||| v).toNat 10 8 = d := by
  simp only [field] at hmask hv ⊢
  rw [BitVec.toNat_or, BitVec.toNat_and, Nat.shiftRight_or_distrib, Nat.shiftRight_and_distrib, Nat.or_mod_two_pow, Nat.and_mod_two_pow,
    hmask, hv, Nat.and_zero, Nat.zero_or]

/-- What is masked out may be written without a trace under the mask. -/
theorem maskOr_and_mask {m mask v : Word} (hv : v &&& mask = 0) : (m &&& mask ||| v) &&& mask = m &&& mask := by
  rw [BitVec.and_or_distrib_right, BitVec.and_assoc, BitVec.and_self, hv]
  exact BitVec.or_zero

/-- A command's next step is one of those still to do. -/
theorem Job.todo_ne_nil {j : Job} {e : Engine} {r : Step × List Step} (h : j.nextStep e = some r) : j.todo ≠ [] := by
  intro hnil
  simp [Job.nextStep, hnil] at h

/-- A vector or matrix command goes on with its next step. -/
theorem State.goOn_of_nextStep {s : State} {i : Nat} {e : Engine} {j : Job} {r : Step × List Step} (hj : s.jobOf i e = some j)
    (hchunk : j.isChunk = false) (hnext : j.nextStep e = some r) : s.goOn i e = s.laterStep i e := by
  have htodo : j.todo.isEmpty = false := List.isEmpty_eq_false_iff.mpr (Job.todo_ne_nil hnext)
  simp [State.goOn, hj, hchunk, htodo]

/-- DIV_APPLY's write of DIV. -/
theorem divApply_mode (m : Word) (d : Nat) :
    (d < 8 → field (m &&& 0xFFFFF8FF ||| BitVec.ofNat 32 (256 * (d % 8))).toNat 10 8 = d) ∧
    (m &&& 0xFFFFF8FF ||| BitVec.ofNat 32 (256 * (d % 8))) &&& 0xFFFFF8FF = m &&& 0xFFFFF8FF := by
  refine ⟨fun hd => ?_, ?_⟩
  · refine field_maskOr (by decide) ?_
    interval_cases d <;> decide
  · have hlt : d % 8 < 8 := Nat.mod_lt _ (by decide)
    refine maskOr_and_mask ?_
    generalize d % 8 = k at hlt
    interval_cases k <;> decide

/-- Settles O38: the branches of a step's end, the next step, and the write of DIV. -/
theorem engineStepsEnd : Obligations.EngineStepsEnd := by
  unfold Obligations.EngineStepsEnd
  intro cr e cycles s j c s1 s2
  refine ⟨⟨fun hrun htrap hfree => ?goes, fun hrun htrap => ?traps, fun k hrun htrap hwait => ?preempted⟩, ?next, fun d hd => ?div⟩
  case goes => simp [exec, execEngineStepEnd, hrun, htrap, hfree, c, s1, s2]
  case traps =>
    simp only [exec, execEngineStepEnd, c] at hrun ⊢
    rw [hrun]
    exact if_pos (bne_iff_ne.mpr htrap)
  case preempted => simp [exec, execEngineStepEnd, hrun, htrap, hwait, c, s1, s2]
  case next =>
    intro i x rest hj hchunk hformed hnext
    have hlater := State.goOn_of_nextStep hj hchunk hnext
    exact ⟨fun y hy => by simp [hlater, State.laterStep, State.laterStep?, hj, hformed, hnext, hy],
      fun f hf => by simp [hlater, State.laterStep, State.laterStep?, hj, hformed, hnext, hf]⟩
  case div =>
    refine ⟨s.modCore c (fun k => { k with mode := k.mode &&& 0xFFFFF8FF ||| BitVec.ofNat 32 (256 * (d % 8)), newDiv := none }), ?_, ?_⟩
    · simp [exec, execDivApply, hd, c]
    · obtain ⟨hfield, hmask⟩ := divApply_mode (s.core c).mode d
      rw [State.modCore_core_same]
      exact ⟨hfield, hmask, rfl, fun k hk => State.modCore_core_other s c k _ hk, rfl⟩

/-! ### Commands and requests complete (R132, R218, R226); timers and poison (R217, R301, R469, R482) -/

/-- Settles O39: the branch of each answer that completes. -/
theorem commandsAndRequestsComplete : Obligations.CommandsAndRequestsComplete := by
  unfold Obligations.CommandsAndRequestsComplete
  intro s u e j tag line g s1
  refine ⟨fun hactive hj hdone => ?complete, fun hg hj ht => ?commit, fun hg found hunc hpoison hj ht => ?read⟩
  case complete => simp [exec, execCommandComplete, hactive, hj, hdone, s1]
  case commit => simp [exec, execWriteCommitAck, hg, hj, ht]
  case read =>
    have hclean : ¬ (found = .uncorrectable ∨ found = .poison) := not_or.mpr ⟨hunc, hpoison⟩
    simp [exec, execReadResponse, hg, hclean, hj, ht]

theorem timersAndPoisonTearDown : Obligations.TimersAndPoisonTearDown := by
  unfold Obligations.TimersAndPoisonTearDown
  intro s u cluster peg d pitch slot tag code line g j w since i us quantum
  refine ⟨fun hruns hus hlate => ?watchdog, fun hearly => ?watchdogStays,
    fun hd hpeg hheld => ⟨fun hlate => ?donation, fun hearly => ?donationStays⟩,
    fun hw hp hs => ⟨fun hlate => ⟨fun hslot => ?quotaSlot, fun hslot => ?quotaPitch⟩, fun hearly => ?quotaStays⟩,
    fun hg hj => ?poison, fun hg hj => ?uncorrectable⟩
  case watchdog => simp [exec, execWatchdogExpiry, hruns, hus, hlate, i, us]
  case watchdogStays =>
    have hstays : ¬ ((s.watchdogRuns i && us != 0 && decide (1000 * us ≤ (s.slot i).watchRun)) = true) := by
      simp only [Bool.and_eq_true, bne_iff_ne, decide_eq_true_eq]
      rcases hearly with h | h | h
      · simp [h]
      · simp [h]
      · omega
    exact if_neg hstays
  case donation => simp [exec, execDonationQuantumExpiry, hd, hpeg, hheld, hlate, quantum]
  case donationStays => simp [exec, execDonationQuantumExpiry, hd, hpeg, hheld, hearly, quantum]
  case quotaSlot => simp [exec, execQuotaStallTimeout, hw, hp, hs, hlate, hslot]
  case quotaPitch => simp [exec, execQuotaStallTimeout, hw, hp, hs, hlate, hslot]
  case quotaStays => simp [exec, execQuotaStallTimeout, hw, hp, hs, hearly]
  case poison => simp [exec, execReadResponse, hg, hj]
  case uncorrectable => simp [exec, execReadResponse, hg, hj]

/-! ### Pulses and wakes (R26, R42, R144, R153, R192) -/

/-- The oldest pulse on a line is next where no older one of its sender is in flight. -/
theorem Cluster.nextPulse_of_oldest {c : Cluster} {line : Nat} {q : Pulse} (hq : c.pulses.find? (fun p => p.line == line) = some q)
    (hold : c.pulses.find? (fun p => p.src == q.src) = some q) : c.nextPulse line = some q := by
  have hline : q.line = line := by simpa using List.find?_some hq
  simp [Cluster.nextPulse, hq, hold, hline]

theorem Cluster.nextPulse_of_younger {c : Cluster} {line : Nat} {q r : Pulse} (hq : c.pulses.find? (fun p => p.line == line) = some q)
    (hold : c.pulses.find? (fun p => p.src == q.src) = some r) (hr : r.line ≠ line) : c.nextPulse line = none := by
  simp [Cluster.nextPulse, hq, hold, hr]

/-- Settles O41: which pulse is next, its one route, and the two commands that wake a slot and latch the time. -/
theorem pulsesAndWakes : Obligations.PulsesAndWakes := by
  unfold Obligations.PulsesAndWakes
  intro s cluster line core slot q r u
  refine ⟨fun hq => ⟨fun hold honly hroute hfwd => ?arrives, fun hold hr => ?stays⟩, fun hst => ?wake, ⟨_, rfl, rfl⟩⟩
  case arrives =>
    have hnext := Cluster.nextPulse_of_oldest hq hold
    simp [exec, execEventPulseArrive, hnext, honly, hroute, hfwd]
  case stays =>
    have hnext := Cluster.nextPulse_of_younger hq hold hr
    simp [exec, execEventPulseArrive, hnext]
  case wake => simp [exec, execSlotWake, hst]

/-! ### Transfer chains (R220 to R223) -/

/-- Settles O42: what holds a chain back, and the start of its next entry. -/
theorem chainEntriesStart : Obligations.ChainEntriesStart := by
  unfold Obligations.ChainEntriesStart
  intro s u j c
  refine fun hj hc => ⟨fun hbusy => ?waits, fun hslot hwait hmoved hlines hrun =>
    ⟨fun hout => ?outside, fun hin hpoison hop hwaitEn herr => ?starts⟩⟩
  case waits =>
    rw [← Bool.not_eq_true, List.contains_iff_mem] at hbusy
    rcases hbusy with h | h | h | h | h <;> simp [exec, execXchainEntryStart, hj, hc, Job.moved, h]
  all_goals
    have hgoes : exec (.xchainEntryStart u) s = .next (s.startChainEntry { j with cmplLines := [] } c) := by
      simp only [Job.moved, Bool.and_eq_true, List.isEmpty_iff, Option.isNone_iff_eq_none] at hmoved
      obtain ⟨⟨⟨⟨hmove, hflight⟩, hqread⟩, -⟩, htags⟩ := hmoved
      rw [List.contains_iff_mem] at hrun
      simp [exec, execXchainEntryStart, hj, hc, Job.moved, hwait, hlines, State.raiseAll, hmove, hflight, hqread, htags, hrun]
  case outside => simp [hgoes, State.startChainEntry, hslot, hout]
  case starts =>
    have hlisted : ¬ (!([0x60, 0x61, 0x62, 0x64].contains
        (xOp (leNat (s.readSp (slotIndex u) (c.listOff + 64 * c.entry) 64))))) = true := by rw [hop]; decide
    simp only [hgoes, State.startChainEntry, hslot, hin, hpoison, if_neg hlisted, hwaitEn, herr, hwait, Bool.false_eq_true,
      Bool.false_and, if_false]

/-- A fold keeps what each of its steps keeps. -/
theorem foldl_keeps {α β γ : Type} {f : β → α → β} {g : β → γ} (h : ∀ b a, g (f b a) = g b) (l : List α) (b : β) :
    g (l.foldl f b) = g b := by
  induction l generalizing b with
  | nil => rfl
  | cons a l ih => rw [List.foldl_cons, ih, h]

/-! ### The end of a teardown (R486, R490) -/

theorem State.gateCore_slots (s : State) (c : Nat) : (s.gateCore c).slots = s.slots := by
  simp only [State.gateCore]
  split
  · split <;> rfl
  · rfl

theorem State.gateCore_pitches (s : State) (c : Nat) : (s.gateCore c).pitches = s.pitches := by
  simp only [State.gateCore]
  split
  · split <;> rfl
  · rfl

/-- The named slots made IDLE. -/
def State.idleAll (s : State) (is : List Nat) : State :=
  is.foldl (fun (t : State) i => t.modSlot i (fun x => { x with st := .idle })) s

theorem State.idleAll_pitches (s : State) (is : List Nat) : (s.idleAll is).pitches = s.pitches := by
  refine foldl_keeps (g := State.pitches) (fun t i => ?_) is s
  rw [State.modSlot_pitches]

theorem State.idleAll_slot_st (is : List Nat) (s : State) (i : Nat) (h : i ∈ is ∨ (s.slot i).st = .idle) :
    ((s.idleAll is).slot i).st = .idle := by
  induction is generalizing s with
  | nil => exact h.resolve_left List.not_mem_nil
  | cons k is ih =>
    refine ih _ ?_
    by_cases hik : i = k
    · subst hik; simp
    · simpa [hik] using h

/-- The state in which a torn-down pitch's slots are IDLE and its cores gated. -/
def State.slotsIdled (s : State) (is : List Nat) : State :=
  is.foldl (fun (t : State) i => t.gateCore (coreOfSlot i)) (s.idleAll is)

theorem State.slotsIdled_slot_st {s : State} {is : List Nat} {i : Nat} (h : i ∈ is) : ((s.slotsIdled is).slot i).st = .idle := by
  have hslots : (s.slotsIdled is).slots = (s.idleAll is).slots :=
    foldl_keeps (g := State.slots) (fun t (k : Nat) => t.gateCore_slots (coreOfSlot k)) is _
  rw [State.slot, hslots]
  exact State.idleAll_slot_st is s i (.inl h)

theorem State.slotsIdled_pitches (s : State) (is : List Nat) : (s.slotsIdled is).pitches = s.pitches :=
  (foldl_keeps (g := State.pitches) (fun t (k : Nat) => t.gateCore_pitches (coreOfSlot k)) is _).trans
    (s.idleAll_pitches is)

theorem State.endTeardown_slot (s : State) (p i : Nat) (d : Teardown) :
    (s.endTeardown p d).slot i = (s.slotsIdled (s.pitch p).slots).slot i := rfl

theorem State.endTeardown_pitch (s : State) (p q : Nat) (d : Teardown) :
    (s.endTeardown p d).pitch q = ((s.slotsIdled (s.pitch p).slots).setPitch p { s.pitch p with st := .tornDown, down := none }).pitch q :=
  rfl

theorem State.postEvent_teardownLog (s : State) (kind : Nat) (v : List Byte) : (s.postEvent kind v).teardownLog = s.teardownLog := by
  simp only [State.postEvent]
  split <;> rfl

theorem State.recordTeardown_log (s : State) (p : Nat) (d : Teardown) :
    (s.recordTeardown p d).teardownLog = (teardownRecord p (s.pitch p).tenantTag d false :: s.teardownLog).take 256 :=
  State.postEvent_teardownLog ..

/-- Settles O43: the frames of the steps by which a teardown ends. -/
theorem teardownEnds : Obligations.TeardownEnds := by
  unfold Obligations.TeardownEnds
  refine fun s p d => ⟨fun hst hdown hkeep => ?completes, ?st, ?down, fun i hi => ?slots, fun q hq => ?others, ?first, ?length⟩
  case completes => simp [exec, execTeardownComplete, hst, hdown, hkeep]
  case st => rw [State.endTeardown_pitch, State.setPitch_pitch_same]
  case down => rw [State.endTeardown_pitch, State.setPitch_pitch_same]
  case slots => rw [State.endTeardown_slot, State.slotsIdled_slot_st hi]
  case others =>
    rw [State.endTeardown_pitch, State.setPitch_pitch_other _ _ _ _ hq, State.pitch, State.slotsIdled_pitches]
    rfl
  case first =>
    rw [State.recordTeardown_log]
    rfl
  case length =>
    rw [State.recordTeardown_log]
    exact List.length_take_le ..

/-! ### CORE_MODE (R185, R187) -/

/-- Settles O44: whether DIV is asked for and whether MODE is taken are two tests of the value and the core. -/
theorem coreModeWrites : Obligations.CoreModeWrites := by
  unfold Obligations.CoreModeWrites
  intro cr v s c div mode s1 free moded
  have hkept : ∀ hkeep : free = false ∨ mode = 3, ¬ (free && mode != 3) = true := by
    rintro (h | h) <;> simp [h]
  have htaken (hfree : free = true) (hmode : mode ≠ 3) : (free && mode != 3) = true := by simp [hfree, hmode]
  have hbelow (hdiv : div < 3) : exec (.coreModeWrite cr v) s
      = .next (if free && mode != 3 then (if mode = 0 then moded s else (moded s).gateCore c) else s) := by
    simp only [exec, execCoreModeWrite, if_neg (show ¬ 3 ≤ field v.toNat 10 8 from Nat.not_le.mpr hdiv)]
    rfl
  have habove (hdiv : 3 ≤ div) : exec (.coreModeWrite cr v) s
      = .next (if free && mode != 3 then (if mode = 0 then moded s1 else (moded s1).gateCore c) else s1) := by
    simp only [exec, execCoreModeWrite, if_pos (show 3 ≤ field v.toNat 10 8 from hdiv)]
    rfl
  refine ⟨fun hdiv hkeep => ?_, fun hdiv hkeep => ?_, fun hdiv hfree hmode => ?_, fun hdiv hfree hmode => ?_,
    fun hdiv hfree hmode => ?_, fun hdiv hfree hmode => ?_⟩
  · rw [hbelow hdiv, if_neg (hkept hkeep)]
  · rw [habove hdiv, if_neg (hkept hkeep)]
  · rw [hbelow hdiv, if_pos (htaken hfree (by omega)), if_pos hmode]
  · rw [habove hdiv, if_pos (htaken hfree (by omega)), if_pos hmode]
  · rw [hbelow hdiv, if_pos (htaken hfree (by omega)), if_neg (by omega)]
  · rw [habove hdiv, if_pos (htaken hfree (by omega)), if_neg (by omega)]

end Sys2Proof.Machine
end

section
/-! PROOFS. Statements O30 and O31: the bytes that ACC_ZERO, ACC_MOVE and XFILL leave, and their frames. -/

namespace Sys2Proof.Machine

/-! ### Steps that each write a tile of the accumulator file (R169) -/

/-- What steps that write only the accumulator file of a slot's core leave unchanged. -/
structure State.AccFrame (s : State) (i : Nat) (t : State) : Prop where
  cores : ∀ c, c ≠ coreOfSlot i → t.core c = s.core c
  slots : ∀ j, t.slot j = s.slot j
  scratch : (t.core (coreOfSlot i)).scratch = (s.core (coreOfSlot i)).scratch
  rest : t = { s with cores := t.cores, slots := t.slots }

theorem State.AccFrame.refl (s : State) (i : Nat) : s.AccFrame i s := ⟨fun _ _ => rfl, fun _ => rfl, rfl, rfl⟩

theorem State.AccFrame.trans {s t r : State} {i : Nat} (h : s.AccFrame i t) (h' : t.AccFrame i r) : s.AccFrame i r where
  cores c hc := (h'.cores c hc).trans (h.cores c hc)
  slots j := (h'.slots j).trans (h.slots j)
  scratch := h'.scratch.trans h.scratch
  rest := by rw [h'.rest, h.rest]

/-- A step that meets no condition leaves its slot's registers as they were. -/
theorem State.meet_nothing_slot (s : State) (i j : Nat) : (s.meet i {}).slot j = s.slot j := by
  by_cases h : j = i
  · subst h
    have hsat : (s.slot j).satCount.toNat < 2 ^ 32 := (s.slot j).satCount.isLt
    have hsame : BitVec.ofNat 32 (min 0xFFFFFFFF ((s.slot j).satCount.toNat + 0)) = (s.slot j).satCount := by
      rw [Nat.add_zero, Nat.min_eq_right (by omega), BitVec.ofNat_toNat, BitVec.setWidth_eq]
    have hfl : (s.slot j).numFlags ||| ({} : Met).fl = (s.slot j).numFlags := BitVec.or_zero
    simp only [State.meet, State.modSlot_slot_same, hfl, hsame]
  · simp [State.meet, h]

/-- A step that writes one range of the accumulator file. -/
def accStep (off : Nat) (bs : List Byte) : Step := { writes := [(true, off, bs)] }

theorem State.landStep_accStep (s : State) (i off : Nat) (bs : List Byte) : s.landStep i (accStep off bs) = (s.writeAcc i off bs).meet i {} :=
  rfl

theorem State.landStep_accStep_frame (s : State) (i off : Nat) (bs : List Byte) : s.AccFrame i (s.landStep i (accStep off bs)) where
  cores c hc := by simp [State.landStep_accStep, State.meet, State.writeAcc, hc]
  slots j := by rw [State.landStep_accStep, State.meet_nothing_slot]; rfl
  scratch := by simp [State.landStep_accStep, State.meet, State.writeAcc]
  rest := rfl

theorem State.landStep_accStep_byte (s : State) (i off : Nat) (bs : List Byte) (a : Nat) :
    memByte ((s.landStep i (accStep off bs)).core (coreOfSlot i)).acc a =
      if (s.slot i).accBase * 4096 + off ≤ a ∧ a < (s.slot i).accBase * 4096 + off + bs.length then
        bs.getD (a - ((s.slot i).accBase * 4096 + off)) 0 else memByte (s.core (coreOfSlot i)).acc a := by
  simp [State.landStep_accStep, State.meet, State.writeAcc, memByte_memWrite]

/-- The state after steps that write the tiles from `dst` on, tile `dst + t` with the bytes `bs t`. -/
def State.landTiles (s : State) (i dst : Nat) (bs : Nat → List Byte) (n : Nat) : State :=
  ((List.range n).map (fun t => accStep (4096 * (dst + t)) (bs t))).foldl (fun t x => t.landStep i x) s

theorem State.landTiles_succ (s : State) (i dst : Nat) (bs : Nat → List Byte) (n : Nat) :
    s.landTiles i dst bs (n + 1) = (s.landTiles i dst bs n).landStep i (accStep (4096 * (dst + n)) (bs n)) := by
  simp [State.landTiles, List.range_succ]

theorem State.landTiles_frame (s : State) (i dst : Nat) (bs : Nat → List Byte) (n : Nat) : s.AccFrame i (s.landTiles i dst bs n) := by
  induction n with
  | zero => exact .refl s i
  | succ n ih =>
    rw [State.landTiles_succ]
    exact ih.trans (State.landStep_accStep_frame _ _ _ _)

/-- Each byte of the accumulator file after tiles are written: byte `j` of tile `dst + t` is byte `j` of `bs t`. -/
theorem State.landTiles_byte (s : State) (i dst : Nat) {bs : Nat → List Byte} (hbs : ∀ t, (bs t).length = 4096) (n a : Nat) :
    memByte ((s.landTiles i dst bs n).core (coreOfSlot i)).acc a =
      if (s.slot i).accBase * 4096 + 4096 * dst ≤ a ∧ a < (s.slot i).accBase * 4096 + 4096 * (dst + n) then
        (bs ((a - ((s.slot i).accBase * 4096 + 4096 * dst)) / 4096)).getD ((a - ((s.slot i).accBase * 4096 + 4096 * dst)) % 4096) 0
      else memByte (s.core (coreOfSlot i)).acc a := by
  induction n with
  | zero =>
    rw [if_neg (by omega)]
    rfl
  | succ n ih =>
    rw [State.landTiles_succ, State.landStep_accStep_byte, hbs, (s.landTiles_frame i dst bs n).slots]
    generalize (s.slot i).accBase * 4096 = base at ih ⊢
    by_cases hlast : base + 4096 * (dst + n) ≤ a ∧ a < base + 4096 * (dst + n) + 4096
    · have hdiv : (a - (base + 4096 * dst)) / 4096 = n := by omega
      have hmod : (a - (base + 4096 * dst)) % 4096 = a - (base + 4096 * (dst + n)) := by omega
      rw [if_pos hlast, if_pos (by omega), hdiv, hmod]
    · rw [if_neg hlast, ih]
      by_cases hin : base + 4096 * dst ≤ a ∧ a < base + 4096 * (dst + n)
      · rw [if_pos hin, if_pos (by omega)]
      · rw [if_neg hin, if_neg (by omega)]

/-- The work of ACC_ZERO where its tiles are in the slot's share. -/
theorem State.accZeroWork_of_inside {s : State} {i d : Nat} (hform : onlyBits d [(6, 0), (14, 8), (24, 24)] = true)
    (hin : field d 6 0 + (field d 14 8 + 1) ≤ (s.slot i).accTiles) : s.accZeroWork i d =
      { s, todo := (List.range (field d 14 8 + 1)).map (fun t => accStep (4096 * (field d 6 0 + t)) (List.replicate 4096 0)) } := by
  simp only [State.accZeroWork, hform, Bool.not_true, Bool.false_eq_true, if_false, if_neg (Nat.not_lt.mpr hin)]
  rfl

/-- The work of ACC_MOVE where its tiles are in the slot's share and hold no poison. -/
theorem State.accMoveWork_of_inside {s : State} {i d : Nat} (hform : onlyBits d [(6, 0), (14, 8), (22, 16), (24, 24)] = true)
    (hsrc : field d 6 0 + (field d 14 8 + 1) ≤ (s.slot i).accTiles) (hdst : field d 22 16 + (field d 14 8 + 1) ≤ (s.slot i).accTiles)
    (hclean : s.spacePoison i true (4096 * field d 6 0) (4096 * (field d 14 8 + 1)) = none) : s.accMoveWork i d =
      { s, todo := (List.range (field d 14 8 + 1)).map (fun t => accStep (4096 * (field d 22 16 + t))
          (s.readAcc i (4096 * (field d 6 0 + t)) 4096)) } := by
  simp only [State.accMoveWork, hform, Bool.not_true, Bool.false_eq_true, if_false, if_neg (Nat.not_lt.mpr hsrc),
    if_neg (Nat.not_lt.mpr hdst), hclean]
  rfl

/-- A byte of a tile that is read. -/
theorem State.readAcc_getD (s : State) (i off : Nat) {n j : Nat} (hj : j < n) :
    (s.readAcc i off n).getD j 0 = memByte (s.core (coreOfSlot i)).acc ((s.slot i).accBase * 4096 + off + j) := by
  simp [State.readAcc, memRead, hj]

/-- Settles O30: both commands write tiles in order, ACC_ZERO zeros and ACC_MOVE the bytes that were read before any was written. -/
theorem accumulatorTilesMove : Obligations.AccumulatorTilesMove := by
  unfold Obligations.AccumulatorTilesMove
  intro s i d a n first dst base acc ran after rest
  refine ⟨fun hform hin => ?zero, fun hform hsrc hdst hclean => ?move⟩
  case zero =>
    have hwork := State.accZeroWork_of_inside hform hin
    have hran : ran (s.accZeroWork i d) = s.landTiles i first (fun _ => List.replicate 4096 0) n := by rw [hwork]; rfl
    have hframe := s.landTiles_frame i first (fun _ => List.replicate 4096 0) n
    refine ⟨by rw [hwork], by rw [hwork], ?_, ?_⟩
    · dsimp only [after]
      rw [hran, State.landTiles_byte _ _ _ (fun _ => List.length_replicate)]
      exact ite_congr rfl (fun _ => List.getD_replicate _ (Nat.mod_lt _ (by decide))) (fun _ => rfl)
    · dsimp only [rest]
      rw [hran]
      exact ⟨hframe.cores, hframe.slots, hframe.scratch, hframe.rest⟩
  case move =>
    have hwork := State.accMoveWork_of_inside hform hsrc hdst hclean
    let bs : Nat → List Byte := fun t => s.readAcc i (4096 * (first + t)) 4096
    have hran : ran (s.accMoveWork i d) = s.landTiles i dst bs n := by rw [hwork]; rfl
    have hframe := s.landTiles_frame i dst bs n
    refine ⟨by rw [hwork], by rw [hwork], ?_, ?_⟩
    · dsimp only [after]
      rw [hran, State.landTiles_byte _ _ _ (fun t => by simp [bs, State.readAcc, memRead])]
      refine ite_congr rfl (fun hin => ?_) (fun _ => rfl)
      rw [State.readAcc_getD _ _ _ (Nat.mod_lt _ (by decide))]
      congr 1
      dsimp only [base] at hin ⊢
      omega
    · dsimp only [rest]
      rw [hran]
      exact ⟨hframe.cores, hframe.slots, hframe.scratch, hframe.rest⟩

/-! ### XFILL (R196, R208, R210) -/

/-- The packet `k` of XFILL's range of `len` bytes from `off`. -/
def fillRun (off len k : Nat) : Run := { src := none, dst := (off + 4096 * k : Nat), len := min 4096 (len - 4096 * k) }

/-- The movement of an XFILL of the slot's scratchpad share. -/
def fillMove (off len pattern : Nat) : Move :=
  { fill := some pattern, runs := (List.range (ceilDiv len 4096)).map (fillRun off len) }

theorem State.xfillWork_of_scratchpad {s : State} {i d : Nat}
    (hform : onlyBits d [(95, 64), (55, 32), (31, 28), (27, 25), (23, 0)] = true) (hspace : field d 31 28 = 0) (hcl : field d 27 25 = 0) :
    s.xfillWork i d = { s, move := some (fillMove (field d 23 0) (field d 55 32 + 1) (field d 95 64)) } := by
  simp only [State.xfillWork, hform, hspace, hcl]
  rfl

/-- A full packet is taken alone. -/
theorem takePacket_of_full {r q : Run} {rs : List Run} (hr : 4096 ≤ r.len) (hq : 0 < q.len) :
    takePacket [] 0 (r :: q :: rs) = ([r], q :: rs) := by
  have : ¬ 0 + r.len + q.len ≤ 4096 := by omega
  simp [takePacket, show ¬ r.len + q.len ≤ 4096 by omega]

theorem lt_ceilDiv_iff {k n : Nat} : k < ceilDiv n 4096 ↔ 4096 * k < n := by
  unfold ceilDiv
  omega

/-- The first packet of what is left of a fill is its next run. -/
theorem takePacket_fillRuns {off len k : Nat} (hk : k < ceilDiv len 4096) :
    (takePacket [] 0 (((List.range (ceilDiv len 4096)).map (fillRun off len)).drop k)).1 = [fillRun off len k] := by
  have hdrop : ((List.range (ceilDiv len 4096)).map (fillRun off len)).drop k =
      fillRun off len k :: ((List.range (ceilDiv len 4096)).map (fillRun off len)).drop (k + 1) := by
    rw [List.drop_eq_getElem_cons (by simpa using hk)]
    simp
  rw [hdrop]
  by_cases hlast : k + 1 < ceilDiv len 4096
  · rw [List.drop_eq_getElem_cons (by simpa using hlast), takePacket_of_full]
    · have := lt_ceilDiv_iff.mp hlast
      simp only [fillRun]
      omega
    · have := lt_ceilDiv_iff.mp hlast
      simp only [List.getElem_map, List.getElem_range, fillRun]
      omega
  · rw [List.drop_eq_nil_of_le (by simpa using hlast)]
    rfl

/-- The bytes of a fill's run. -/
def fillBytes (pattern n : Nat) : List Byte := (List.range n).map (fun j => nth (natLe 4 pattern) (j % 4) 0)

theorem fillBytes_getD {pattern n j : Nat} (hj : j < n) : (fillBytes pattern n).getD j 0 = BitVec.ofNat 8 (pattern / 256 ^ (j % 4)) := by
  have hlt : j % 4 < 4 := Nat.mod_lt _ (by decide)
  have hget : (fillBytes pattern n).getD j 0 = nth (natLe 4 pattern) (j % 4) 0 := by simp [fillBytes, hj]
  rw [hget]
  generalize j % 4 = m at hlt ⊢
  interval_cases m <;> simp [nth, natLe, Nat.div_div_eq_div_mul]

/-- Whether a range of the slot's scratchpad share can be written. -/
theorem State.locFault_scratchpad {s : State} {i a n : Nat} {l : Loc} (ha : a < 2 ^ 48) (hl : l = { space := 0, cluster := 0, addr := a }) :
    s.locFault i l n true = if (s.slot i).spBytes < a + n then some (fcAddress, a) else none := by
  subst hl
  have hneg : ¬ (a : Int) < 0 := by omega
  have hbig : ¬ (2 ^ 48 : Int) ≤ (a : Int) := by omega
  have haddr : unsigned 48 (a : Int) = a := by
    simp only [unsigned]
    omega
  simp only [State.locFault, addrFault, haddr, hneg, hbig, decide_false, Bool.false_or, Int.toNat_natCast, State.outside, State.spaceBytes]
  change (if decide ((s.slot i).spBytes < _) = true then _ else _) = _
  simp only [decide_eq_true_eq]

/-- A piece within the slot's scratchpad share lands as one store. -/
theorem State.landPieces_scratchpad {s : State} {i a : Nat} (ha : a < 2 ^ 48) {bs : List Byte} (hin : a + bs.length ≤ (s.slot i).spBytes) :
    s.landPieces i [{ space := 0, cluster := 0, addr := (a : Int), bytes := bs }] = { s := s.writeSp i a bs } := by
  have hlow : ¬ 281474976710656 ≤ a := by omega
  have hinside : s.outside i false a bs.length = false := by
    simpa [State.outside, State.spaceBytes] using hin
  have hwrite : s.writeLoc i { space := 0, cluster := 0, addr := (a : Int) } bs = (s.writeSp i a bs, none) := by
    simp [State.writeLoc, hlow, hinside, State.writeSpace]
  simp [State.landPieces, hwrite, Loc.requests]

/-- A movement without an index table reads none. -/
theorem State.refill_of_no_index (s : State) (i fuel : Nat) {m : Move} (h : m.index = none) : s.refill i fuel m = .ok m := by
  cases fuel with
  | zero => rfl
  | succ fuel => simp [State.refill, h]

section FillPacket

variable {s : State} {i off len pattern k : Nat}

/-- The movement that is left of a fill from its packet `k` on. -/
def fillMoveFrom (off len pattern k : Nat) : Move :=
  { fillMove off len pattern with runs := (fillMove off len pattern).runs.drop k }

theorem takePacket_fillMoveFrom (hk : k < ceilDiv len 4096) :
    ∃ rest, takePacket [] 0 (fillMoveFrom off len pattern k).runs = ([fillRun off len k], rest) :=
  ⟨_, Prod.ext (takePacket_fillRuns hk) rfl⟩

theorem State.formPacket_fill_of_outside (hk : k < ceilDiv len 4096) (hoff : off + 4096 * k < 2 ^ 48)
    (hout : (s.slot i).spBytes < off + 4096 * k + min 4096 (len - 4096 * k)) :
    (s.formPacket i (fillMoveFrom off len pattern k)).1.err = some (fcAddress, off + 4096 * k) := by
  obtain ⟨rest, hrest⟩ := takePacket_fillMoveFrom (off := off) (pattern := pattern) hk
  have hfault : s.locFault i ((fillMoveFrom off len pattern k).dst (fillRun off len k).dst) (fillRun off len k).len true
      = some (fcAddress, off + 4096 * k) := (State.locFault_scratchpad hoff rfl).trans (if_pos hout)
  simp only [State.formPacket, State.refill_of_no_index s i 258 (m := fillMoveFrom off len pattern k) rfl, hrest, List.findSome?_cons,
    hfault]
  rfl

theorem State.formPacket_fill_of_inside (hk : k < ceilDiv len 4096) (hoff : off + 4096 * k < 2 ^ 48)
    (hin : off + 4096 * k + min 4096 (len - 4096 * k) ≤ (s.slot i).spBytes) :
    ∃ left, s.formPacket i (fillMoveFrom off len pattern k) =
      ({ s }, left, [{
        space := 0, cluster := 0, addr := ((off + 4096 * k : Nat) : Int),
        bytes := fillBytes pattern (min 4096 (len - 4096 * k)) }]) := by
  obtain ⟨rest, hrest⟩ := takePacket_fillMoveFrom (off := off) (pattern := pattern) hk
  have hfault : s.locFault i ((fillMoveFrom off len pattern k).dst (fillRun off len k).dst) (fillRun off len k).len true
      = none := (State.locFault_scratchpad hoff rfl).trans (if_neg (Nat.not_lt.mpr hin))
  simp only [State.formPacket, State.refill_of_no_index s i 258 (m := fillMoveFrom off len pattern k) rfl, hrest, List.findSome?_cons,
    hfault]
  exact ⟨_, rfl⟩

end FillPacket

/-- Settles O31: each packet is one run of the fill; formed, it holds the pattern, and landed it is one store of the scratchpad. -/
theorem fillWritesThePattern : Obligations.FillWritesThePattern := by
  unfold Obligations.FillWritesThePattern
  intro s i d k a off len w at_ n hform hspace hcl
  have hwork : w = { s, move := some (fillMove off len (field d 95 64)) } := State.xfillWork_of_scratchpad hform hspace hcl
  refine ⟨by rw [hwork], by rw [hwork], by rw [hwork], fillMove off len (field d 95 64), by rw [hwork], by simp [fillMove], fun hk => ?_⟩
  have hlen : len ≤ 2 ^ 24 := Nat.mod_lt (d >>> 32) (by decide)
  have hoffLt : off < 2 ^ 24 := Nat.mod_lt (d >>> 0) (by decide)
  have hkLt : 4096 * k < len := lt_ceilDiv_iff.mp hk
  have hoff : off + 4096 * k < 2 ^ 48 := by omega
  intro f t base
  refine ⟨fun hout => State.formPacket_fill_of_outside hk hoff hout, fun hin => ?_⟩
  obtain ⟨left, hf⟩ := State.formPacket_fill_of_inside (pattern := field d 95 64) hk hoff hin
  have hbytes : (fillBytes (field d 95 64) n).length = n := by simp [fillBytes]
  have hf' : f = _ := hf
  have ht : t = { s := s.writeSp i (off + 4096 * k) (fillBytes (field d 95 64) n) } := by
    dsimp only [t]
    rw [hf']
    exact State.landPieces_scratchpad hoff (hbytes.symm ▸ hin)
  refine ⟨by rw [hf'], by rw [hf'], by rw [ht], by rw [ht], ?_, fun c hc => ?_, ?_⟩
  · rw [ht]
    simp only [State.writeSp, State.modCore_core_same, memByte_memWrite, hbytes]
    refine ite_congr rfl (fun hin => ?_) (fun _ => rfl)
    rw [fillBytes_getD (by omega)]
  · rw [ht]
    simp [State.writeSp, hc]
  · rw [ht]
    rfl

end Sys2Proof.Machine
end

section
/-! PROOFS. Statement O45: the commands of the memory tiers where they are accepted. -/

namespace Sys2Proof.Machine

section TierRequests

variable {s : State} {c : Caller} {v : List Byte}

theorem State.doExtentDefine_of_ok (h : okExtentDefine s c v = true) :
    s.doExtentDefine c v = (s.addExtent (field (leNat v) 4 0) (extentOf v s.sec.extentNonce).2, stOk) := by
  have hp : (extentOf v s.sec.extentNonce).1 = field (leNat v) 4 0 := rfl
  simp only [okExtentDefine, Bool.and_eq_true, decide_eq_true_eq, beq_iff_eq, bne_iff_ne, Bool.not_eq_true', List.all_eq_true] at h
  obtain ⟨⟨⟨⟨⟨⟨⟨⟨⟨⟨⟨⟨hbits, htier⟩, hcode⟩, hlog⟩, hmax⟩, hexcl⟩, hpin⟩, hinit⟩, hbase⟩, hend⟩, hnew⟩, hfree⟩,
    hset⟩ := h
  unfold State.doExtentDefine
  rw [← hp] at *
  generalize extentOf v s.sec.extentNonce = e at *
  obtain ⟨p, x⟩ := e
  have hoverlap : (s.pitch p).extents.any x.overlaps = false := by
    rw [List.any_eq_false]
    exact fun y hy => Bool.eq_false_iff.mp (hnew y hy).1
  have hnumber : (s.pitch p).extents.any (fun y => y.number == x.number) = false := by
    rw [List.any_eq_false]
    exact fun y hy => by simpa using (hnew y hy).2
  have hattached : (x.stateSet != 0 && !s.tier.sets.any (fun t => t.id == x.stateSet && t.tenant == tenantOfTag (s.pitch p).tenantTag)) = false := by
    rcases (Bool.or_eq_true _ _).mp hset with h | h
    · rw [beq_iff_eq.mp h]
      rfl
    · exact (congrArg (fun b => x.stateSet != 0 && !b) h).trans (Bool.and_false _)
  have htop : ¬ 2 ^ 48 < x.base + x.length := Nat.not_lt.mpr hend
  simp only [hbits, hpin, hinit, hoverlap, hattached, hnumber, htop]
  simp [Nat.not_le.mpr htier, hcode, Nat.not_lt.mpr hlog, Nat.not_lt.mpr hmax, hexcl, hbase, hfree]

theorem State.doExtentRemove_of_ok {x : Extent} (hbits : onlyBits (leNat v) [(12, 8), (5, 0)] = true)
    (hx : (s.pitch (field (leNat v) 12 8)).extents.find? (fun y => y.number == field (leNat v) 5 0) = some x) :
    s.doExtentRemove c v = (s.removeExtent (field (leNat v) 12 8) x, stOk) := by
  simp [State.doExtentRemove, hbits, hx]

theorem State.doPagePin_of_ok (h : okPagePin s c v = true) :
    s.doPagePin c v = (s.pinPages (field (leNat v) 4 0) (field (leNat v) 111 64) (field (leNat v) 175 128) (field (leNat v) 177 176)
      (field (leNat v) 180 178), stOk) := by
  simp only [okPagePin, Bool.and_eq_true, beq_iff_eq, bne_iff_ne, Bool.not_eq_true'] at h
  obtain ⟨⟨⟨⟨hbits, hlen⟩, hpin⟩, hexcl⟩, hex⟩ := h
  have hnone : (s.tier.pages.filter (fun g => g.inRange (field (leNat v) 4 0) (field (leNat v) 111 64) (field (leNat v) 175 128))).filter
      (fun g => g.tier != .a && field (leNat v) 177 176 == 1) = [] := by simp [hpin]
  simp only [State.doPagePin, hnone, hbits, hlen, hex]
  simp [hexcl, State.findFrames]

theorem State.doPageFree_of_ok (h : okPageFree s c v = true) :
    s.doPageFree c v = (s.freePages (fun g => g.inRange (field (leNat v) 4 0) (field (leNat v) 111 64) (field (leNat v) 175 128)), stOk) := by
  simp only [okPageFree, Bool.and_eq_true, beq_iff_eq] at h
  simp [State.doPageFree, h]

theorem State.doStateSetCreate_of_ok (h : okStateSetCreate s c v = true) :
    s.doStateSetCreate c v = (s.addSet {
      id := field (leNat v) 31 0, tenant := field (leNat v) 37 32, policy := field (leNat v) 65 64,
      interval := field (leNat v) 127 96, next := s.time / (1000000000 * field (leNat v) 127 96) + 1 }, stOk) := by
  simp only [okStateSetCreate, Bool.and_eq_true, bne_iff_ne, decide_eq_true_eq, List.all_eq_true] at h
  obtain ⟨⟨⟨⟨⟨⟨hrole, hbits⟩, hid⟩, hmin⟩, hmax⟩, hnew⟩, hroom⟩ := h
  have hunused : s.tier.sets.any (fun t => t.id == field (leNat v) 31 0) = false := by simpa using hnew
  simp only [State.doStateSetCreate, hrole, hbits, hunused]
  simp [hid, Nat.not_lt.mpr hmin, Nat.not_lt.mpr hmax, Nat.not_le.mpr hroom]

theorem State.doStateSetDelete_of_ok (h : okSetIdle s c v = true) : s.doStateSetDelete c v = (s.deleteSet (leNat v), stOk) := by
  unfold okSetIdle at h
  split at h
  · cases h
  · next t ht =>
    obtain ⟨hrole, hidle⟩ : c.reaches t.tenant = true ∧ t.inProgress = false := by simpa using h
    have hid : t.id = leNat v := by simpa using List.find?_some ht
    simp [State.doStateSetDelete, ht, hrole, hidle, hid]

theorem State.doCheckpointNow_of_ok (h : okSetIdle s c v = true) :
    s.doCheckpointNow c v = (s.startCheckpoint (leNat v) true, stInProgress) := by
  unfold okSetIdle at h
  split at h
  · cases h
  · next t ht =>
    obtain ⟨hrole, hidle⟩ : c.reaches t.tenant = true ∧ t.inProgress = false := by simpa using h
    have hid : t.id = leNat v := by simpa using List.find?_some ht
    simp [State.doCheckpointNow, ht, hrole, hidle, hid]

theorem State.doStateSetAttach_of_ok {t : StateSet} (h : okStateSetAttach s c v = true)
    (ht : s.tier.sets.find? (fun x => x.id == field (leNat v) 31 0) = some t) :
    s.doStateSetAttach c v = (s.attachSet t (field (leNat v) 36 32), stOk) := by
  simp only [okStateSetAttach, ht, Bool.and_eq_true, bne_iff_ne, beq_iff_eq, List.all_eq_true, Bool.not_eq_true', Option.isNone_iff_eq_none] at h
  obtain ⟨hbits, ⟨⟨⟨⟨⟨hrole, hidle⟩, hfree⟩, hpitch⟩, htenant⟩, hextents⟩, hlayouts⟩ := h
  have hoverlap : t.extents.any (fun x => (s.pitch (field (leNat v) 36 32)).extents.any x.overlaps) = false := by
    simpa using fun x hx y hy => (hextents x hx y hy).1
  have hnumber : t.extents.any (fun x => (s.pitch (field (leNat v) 36 32)).extents.any (fun y => y.number == x.number)) = false := by
    simpa using fun x hx y hy => (hextents x hx y hy).2
  have hlayout : t.layouts.any (fun l => (s.pitch (field (leNat v) 36 32)).layouts.any (fun k => k.number == l.number)) = false := by
    simpa using hlayouts
  simp only [State.doStateSetAttach, hbits, ht, hrole, hidle, hfree, hoverlap, hnumber, hlayout]
  simp [hpitch, htenant]

end TierRequests

/-- Settles O45: each command's checks pass where its value is accepted. -/
theorem tierRequestsComplete : Obligations.TierRequestsComplete := by
  unfold Obligations.TierRequestsComplete
  refine ⟨cmdCompletes_of (fun _ _ _ _ _ => rfl) fun s c v h => ?define, fun x => cmdCompletes_of (fun _ _ _ _ _ => rfl) fun s c v h => ?remove,
    cmdCompletes_of (fun _ _ _ _ _ => rfl) fun s c v h => ?pin, cmdCompletes_of (fun _ _ _ _ _ => rfl) fun s c v h => ?free,
    cmdCompletes_of (fun _ _ _ _ _ => rfl) fun s c v h => ?create, cmdCompletes_of (fun _ _ _ _ _ => rfl) fun s c v h => ?delete,
    fun t => cmdCompletes_of (fun _ _ _ _ _ => rfl) fun s c v h => ?attach, cmdCompletes_of (fun _ _ _ _ _ => rfl) fun s c v h => ?checkpoint⟩
  case define => exact State.doExtentDefine_of_ok h
  case remove =>
    obtain ⟨hbits, hx⟩ := (Bool.and_eq_true _ _).mp h
    exact State.doExtentRemove_of_ok hbits (beq_iff_eq.mp hx)
  case pin => exact State.doPagePin_of_ok h
  case free => exact State.doPageFree_of_ok h
  case create => exact State.doStateSetCreate_of_ok h
  case delete => exact State.doStateSetDelete_of_ok h
  case attach =>
    obtain ⟨hok, ht⟩ := (Bool.and_eq_true _ _).mp h
    exact State.doStateSetAttach_of_ok hok (beq_iff_eq.mp ht)
  case checkpoint => exact State.doCheckpointNow_of_ok h

end Sys2Proof.Machine
end

section
/-! PROOFS. Statement O46: what the memory tier unit and the flash controller do on their own. -/

namespace Sys2Proof.Machine

/-! ### Page tables (R256, R266) -/

theorem pathAddr_tableIndices {a : Nat} (ha : a < 2 ^ 48) : pathAddr (tableIndices a) = a / 4096 * 4096 := by
  simp only [pathAddr, tableIndices, field, List.cons_append, List.nil_append, List.take_succ_cons, List.take_zero, List.foldl_cons,
    List.foldl_nil, Nat.shiftRight_eq_div_pow]
  omega

theorem pathAddr_tableIndices_take_three {a : Nat} (ha : a < 2 ^ 48) : pathAddr ((tableIndices a).take 3) = a / 2097152 * 2097152 := by
  simp only [pathAddr, tableIndices, field, List.cons_append, List.nil_append, List.take_succ_cons, List.take_zero, List.foldl_cons,
    List.foldl_nil, Nat.shiftRight_eq_div_pow]
  omega

/-- The table entry on a path to a page is its leaf at the leaf's level, and not present at another. -/
theorem State.tableEntry_of_pageAt {s : State} {p : Nat} {path : List Nat} {g : Page} (h : s.pageAt p (pathAddr path) = some g) :
    s.tableEntry p path = if g.leafLevel = path.length then g.leafEntry else 0 := by
  simp [State.tableEntry, h]

/-! ### Flash places (R291, R676) -/

/-- While no die is retired the next page goes to the channel that is asked for. -/
theorem State.nextDie_of_none_retired {s : State} (h : s.tier.retiredDies = []) (n channel : Nat) :
    s.nextDie n channel = (channel % 8, Config.flashDie n % 2) := by
  simp [State.nextDie, h, List.range_succ_eq_map]

theorem State.placeTile_of_full {s : State} {g : Page} {tile : Nat} {last : FlashPage} (hdies : s.tier.retiredDies = [])
    (hfull : (s.tier.flash.filter (fun f => f.key == g.stream)).all (fun f => !f.isOpen || decide (4 ≤ f.tiles.length)) = true)
    (hlast : (s.tier.flash.filter (fun f => f.key == g.stream)).getLast? = some last) :
    (s.placeTile g tile).tier.flash = s.tier.flash ++ [{
        number := s.tier.flash.length
        channel := (last.channel + 1) % 8
        die := Config.flashDie s.tier.flash.length % 2
        tag := g.tenantTag
        epoch := g.epoch
        entry := g.keyIndex
        tiles := [{ page := g.id, tile }] }] := by
  have hnone : (s.tier.flash.filter (fun f => f.key == g.stream)).find? (fun f => f.isOpen && decide (f.tiles.length < 4)) = none := by
    rw [List.find?_eq_none]
    intro f hf
    have hf' := List.all_eq_true.mp hfull f hf
    by_cases ho : f.isOpen = true
    · simp only [ho, Bool.not_true, Bool.false_or, decide_eq_true_eq] at hf'
      simp [ho, Nat.not_lt.mpr hf']
    · simp [ho]
  simp [State.placeTile, hnone, hlast, State.nextDie_of_none_retired hdies]

/-! ### Migrations step by step (R274 to R280) -/

section Migrations

variable {s : State} {page : Nat} {g : Page} {m : Migration}

/-- A page that moves between tiers A and B, or within tier B. -/
theorem State.stepMigration_of_within (hpage : s.page page = some g) (hm : g.migration = some m) (hkey : s.keyLive g = true)
    (hmove : (g.tier = .b ∧ m.dest = .a) ∨ (g.tier = .a ∧ m.dest = .b) ∨ (g.tier = .b ∧ m.dest = .b)) :
    s.stepMigration page = s.stepMove g m := by
  rcases hmove with ⟨ht, hd⟩ | ⟨ht, hd⟩ | ⟨ht, hd⟩ <;> simp [State.stepMigration, hpage, hm, hkey, ht, hd]

/-- A page that moves down to flash. -/
theorem State.stepMigration_of_down (hpage : s.page page = some g) (hm : g.migration = some m) (hkey : s.keyLive g = true)
    (htier : g.tier ≠ .c) (hdest : m.dest = .c) : s.stepMigration page = s.stepDown g m := by
  simp [State.stepMigration, hpage, hm, hkey, htier, hdest]

end Migrations

/-- Leaving frames wait for the tags that are out. -/
theorem State.freeTag_leaving_eq_nil {s : State} {l : Leaving} (hl : s.tier.leaving = [l]) (tag : Nat) :
    (s.freeTag tag).tier.leaving = [] ↔ ∀ k ∈ l.tags, k = tag := by
  have hkept : (s.keepTags (fun e => e.tag != tag)).tier.leaving = [l] := hl
  simp [State.freeTag, hkept]

/-- Settles O46: each event on the branch that its conditions select. -/
theorem tierEventsComplete : Obligations.TierEventsComplete := by
  unfold Obligations.TierEventsComplete
  intro s page tile set tag ch die plane block ms readable g m t
  refine ⟨fun p a ha => ⟨fun hg hleaf => ?leaf4, fun hg hleaf => ?leaf3⟩,
    fun last hdies hfull hlast => ⟨_, State.placeTile_of_full hdies hfull hlast⟩,
    fun h => ?heatBC, fun h => ?heatA, fun h => ?heatBCStays, fun h => ?heatAStays,
    fun hw k hleft => ?copies, fun hw hleft hmarked hpasses => ?again, fun hw hleft hmarked hpasses => ?gives,
    fun hw hleft hmarked hout => ?switches, fun hw hleft hmarked hout => ?waits,
    fun hd k ks hun => ⟨fun hmay => ?demotes, fun hmay => ?demoteWaits⟩, fun hd hun hout => ?down,
    fun l hl hne => State.freeTag_leaving_eq_nil hl tag, fun hreads c f => ?release,
    fun hpage hnext harrive => ⟨fun htier => ?arrives, fun htier => ?promoted⟩, fun hpage hnext => ?notNext,
    fun hpage hexp => ?expired, fun hpage hexp => ?live,
    fun hset hperiodic => ⟨fun hdue => ?early, fun hdue hidle hbal => ?checkpoint, fun hdue hskip => ?skipped⟩,
    fun hset hprogress => ⟨fun hroom => ?commits, fun hroom => ?noRoom⟩,
    ⟨fun hday hmc => ?credits, fun hday => ?sameDay, rfl⟩, fun hblock => ?blockFails, fun hreplay => ?replays⟩
  case leaf4 =>
    rw [← pathAddr_tableIndices ha] at hg
    rw [State.tableEntry_of_pageAt hg, hleaf]
    rfl
  case leaf3 =>
    refine ⟨?_, ?_⟩
    · rw [← pathAddr_tableIndices_take_three ha] at hg
      rw [State.tableEntry_of_pageAt hg, hleaf]
      rfl
    · have haligned : a / 2097152 * 2097152 = a / 2097152 * 2097152 / 4096 * 4096 := by omega
      have hlt : a / 2097152 * 2097152 < 2 ^ 48 := by omega
      rw [haligned, ← pathAddr_tableIndices hlt] at hg
      rw [State.tableEntry_of_pageAt hg, hleaf]
      rfl
  case heatBC => simp [exec, execHeatHalving, h]
  case heatA => simp [exec, execHeatHalving, h]
  case heatBCStays => simp [exec, execHeatHalving, h]
  case heatAStays => simp [exec, execHeatHalving, h]
  case copies =>
    obtain ⟨hpage, hm, hkey, hmove⟩ := hw
    simp only [exec, execMigrationSwitch, State.stepMigration_of_within hpage hm hkey hmove, State.stepMove, hleft]
  case again =>
    obtain ⟨hpage, hm, hkey, hmove⟩ := hw
    simp only [exec, execMigrationSwitch, State.stepMigration_of_within hpage hm hkey hmove, State.stepMove, hleft]
    simp [hmarked, Nat.not_le.mpr hpasses]
  case gives =>
    obtain ⟨hpage, hm, hkey, hmove⟩ := hw
    simp only [exec, execMigrationSwitch, State.stepMigration_of_within hpage hm hkey hmove, State.stepMove, hleft]
    simp [hmarked, hpasses]
  case switches =>
    obtain ⟨hpage, hm, hkey, hmove⟩ := hw
    simp only [exec, execMigrationSwitch, State.stepMigration_of_within hpage hm hkey hmove, State.stepMove, hleft]
    simp [hmarked, hout]
  case waits =>
    obtain ⟨hpage, hm, hkey, hmove⟩ := hw
    simp only [exec, execMigrationSwitch, State.stepMigration_of_within hpage hm hkey hmove, State.stepMove, hleft]
    simp [hmarked, hout]
  case demotes =>
    obtain ⟨hpage, hm, hkey, htier, hdest⟩ := hd
    simp only [exec, execMigrationSwitch, State.stepMigration_of_down hpage hm hkey htier hdest, State.stepDown, hun]
    simp [hmay]
  case demoteWaits =>
    obtain ⟨hpage, hm, hkey, htier, hdest⟩ := hd
    simp only [exec, execMigrationSwitch, State.stepMigration_of_down hpage hm hkey htier hdest, State.stepDown, hun]
    simp [hmay]
  case down =>
    obtain ⟨hpage, hm, hkey, htier, hdest⟩ := hd
    simp only [exec, execMigrationSwitch, State.stepMigration_of_down hpage hm hkey htier hdest, State.stepDown, hun]
    simp [hout]
  case release => simp [State.release, hreads]
  case arrives => simp [exec, execPromotionTileArrive, hpage, hnext, harrive, htier]
  case promoted => simp [exec, execPromotionTileArrive, hpage, hnext, harrive, htier]
  case notNext => simp [exec, execPromotionTileArrive, hpage, hnext]
  case expired => simp [exec, execLazyPageFree, hpage, hexp]
  case live => simp [exec, execLazyPageFree, hpage, hexp]
  case early => simp [exec, execPeriodicCheckpoint, hset, hdue]
  case checkpoint => simp [exec, execPeriodicCheckpoint, hset, hperiodic, Nat.not_lt.mpr hdue, hidle, Int.not_le.mpr hbal]
  case skipped =>
    simp only [exec, execPeriodicCheckpoint, hset, hperiodic]
    rcases hskip with h | h <;> simp [Nat.not_lt.mpr hdue, h]
  case commits => simp [exec, execCheckpointCommit, hset, hprogress, hroom]
  case noRoom => simp [exec, execCheckpointCommit, hset, Nat.not_le.mpr hroom]
  case credits =>
    obtain ⟨hon, hup⟩ : (s.power.st == .active || s.power.st == .doze) = true ∧ s.errors.islandsDown.contains 59 = false := by
      simpa [State.mcOn] using hmc
    simp only [exec, execBudgetDayStart, hon, hup]
    simp [Nat.not_le.mpr hday]
  case sameDay =>
    have hoff : (!(s.power.st == .active || s.power.st == .doze) || s.errors.islandsDown.contains 59) = !s.mcOn := by
      simp [State.mcOn, Bool.not_and]
    simp only [exec, execBudgetDayStart, Bool.or_assoc, hoff]
    rcases hday with h | h <;> simp [h]
  case blockFails => exact if_neg (Bool.not_eq_true _ ▸ hblock)
  case replays => simp [exec, execJournalReplay, hreplay]

end Sys2Proof.Machine
end

section
/-! PROOFS. Statement O47: the commands of the KV store and of state handles where they are accepted. -/

namespace Sys2Proof.Machine

section KvAndHandleRequests

variable {s : State} {c : Caller} {v : List Byte}

theorem State.doKvLayoutDefine_of_ok (h : okKvLayoutDefine s c v = true) :
    s.doKvLayoutDefine c v = (s.setPitch ((layoutIn v).get 4 0)
      { s.pitch ((layoutIn v).get 4 0) with layouts := (s.pitch ((layoutIn v).get 4 0)).layouts ++ [layoutIn v] }, stOk) := by
  have hl : ({ number := field (leNat v) 10 8, record := v } : KvLayout) = layoutIn v := rfl
  simp only [okKvLayoutDefine, Bool.and_eq_true] at h
  simp only [State.doKvLayoutDefine, hl]
  obtain ⟨⟨⟨⟨⟨⟨⟨⟨⟨⟨⟨hbits, hcount⟩, hlayer⟩, hscale⟩, hheads⟩, hfmt⟩, hindex⟩, hdistinct⟩, hfree⟩, hnumber⟩, hextent⟩,
    hfits⟩ := h
  have hbelow : ((List.range (layoutIn v).indexCount).map (layoutIn v).indexLayer).any (fun i => decide ((layoutIn v).layers ≤ i)) = false := by
    simpa using hindex
  have hnew : (s.pitch ((layoutIn v).get 4 0)).layouts.any (fun k => k.number == field (leNat v) 10 8) = false := by
    simpa [layoutIn] using hnumber
  have halone : (s.pitch ((layoutIn v).get 4 0)).layouts.any (fun k => k.get 21 16 == (layoutIn v).get 21 16) = false := by
    simpa using hextent
  split at hfits
  · cases hfits
  · next x hx =>
    simp only [bne_iff_ne, beq_iff_eq, decide_eq_true_eq] at hcount hlayer hscale hdistinct hfree hfits
    simp only [hbits, hheads, hfmt, hbelow, hnew, halone, hx]
    simp [Nat.not_lt.mpr hcount, hlayer, hscale, hdistinct, hfree, Nat.not_lt.mpr hfits]

theorem State.doKvLayoutRemove_of_ok (h : okKvLayoutRemove s c v = true) :
    s.doKvLayoutRemove c v = (s.setPitch (field (leNat v) 12 8) { s.pitch (field (leNat v) 12 8) with
      layouts := (s.pitch (field (leNat v) 12 8)).layouts.filter (fun l => l.number != field (leNat v) 2 0) }, stOk) := by
  simp only [okKvLayoutRemove, Bool.and_eq_true] at h
  obtain ⟨⟨hbits, hlayout⟩, hempty⟩ := h
  have hunused : (s.pitch (field (leNat v) 12 8)).seqs.any (fun q => q.layout == field (leNat v) 2 0) = false := by
    simpa using hempty
  simp only [State.doKvLayoutRemove, hbits, hunused, hlayout]
  simp

theorem State.doKvSeqCreate_of_ok {p l n : Nat} (h : okKvSeqCreate s c v = true) (hv : seqNames v = some (p, l, n)) :
    s.doKvSeqCreate c v = (s.modPitch p (fun r => { r with seqs := r.seqs ++ [{ layout := l, number := n }] }), stOk) := by
  simp only [okKvSeqCreate, hv, Bool.and_eq_true, decide_eq_true_eq, Option.isNone_iff_eq_none] at h
  obtain ⟨⟨⟨⟨hrole, hlayout⟩, hnew⟩, hunused⟩, hroom⟩ := h
  have hdefined : (s.layoutOf p l).isNone = false := by simpa using hlayout
  simp only [State.doKvSeqCreate, hv, hrole, hdefined, hunused]
  simp [Nat.not_le.mpr hroom]

theorem State.doKvSeqDrop_of_ok {p l n : Nat} (h : okKvSeqDrop s c v = true) (hv : seqNames v = some (p, l, n)) :
    s.doKvSeqDrop c v = ((s.modSeq p l n (fun q => { q with dropping := true })).finishDrops p, stOk) := by
  simp only [okKvSeqDrop, hv, Bool.and_eq_true] at h
  obtain ⟨hrole, hseq⟩ := h
  have hthere : (s.seqOf p l n).isNone = false := by simpa using hseq
  simp only [State.doKvSeqDrop, hv, hrole, hthere]
  simp

theorem State.doStateHandleBind_of_ok (h : okStateHandleBind s c v = true) :
    s.doStateHandleBind c v = ((s.bindHandle (field (leNat v) 11 0) (handleIn s v)).getD s, stOk) := by
  simp only [okStateHandleBind, Bool.and_eq_true, beq_iff_eq, bne_iff_ne, decide_eq_true_eq] at h
  obtain ⟨⟨⟨⟨⟨⟨⟨⟨hbits, hrole⟩, hfree⟩, hpitch⟩, hvec⟩, hvecMax⟩, helems⟩, helemsMax⟩, hbind⟩ := h
  obtain ⟨t, ht⟩ := Option.isSome_iff_exists.mp hbind
  unfold handleIn at hvec hvecMax helems helemsMax hpitch hrole ht
  unfold State.doStateHandleBind handleIn
  simp only [hbits, hrole, ht]
  simp only [hfree, hpitch, hvec, Nat.not_lt.mpr hvecMax, helems, Nat.not_lt.mpr helemsMax]
  rfl

theorem State.doStateHandleRevoke_of_ok (h : okStateHandleRevoke s c v = true) :
    s.doStateHandleRevoke c v = ((s.revoke (field (leNat v) 11 0) (bit (leNat v) 15)).1, stOk) := by
  simp only [okStateHandleRevoke, Bool.and_eq_true, bne_iff_ne, List.isEmpty_iff] at h
  obtain ⟨⟨⟨hbits, hused⟩, hrole⟩, hjobs⟩ := h
  simp only [State.doStateHandleRevoke, hbits, hrole, hjobs]
  simp [hused]

/-- What a StateHandleSwap value that names OUT is answered. -/
theorem State.doStateHandleSwap_out (h : swapAllowed s c v = true) (hout : bit (leNat v) 12 = false)
    (hbound : (s.handle (field (leNat v) 11 0)).st = .bound) (hidle : (s.handle (field (leNat v) 11 0)).waiting.contains mcEntry = false) :
    s.doStateHandleSwap c v = (swapOutIn s v, if ((swapOutIn s v).handle (field (leNat v) 11 0)).waiting.contains mcEntry then stInProgress
      else if ((swapOutIn s v).handle (field (leNat v) 11 0)).st = .swapped then stOk else stRefused) := by
  simp only [swapAllowed, Bool.and_eq_true] at h
  obtain ⟨⟨⟨hbits, hused⟩, hforce⟩, hrole⟩ := h
  simp only [State.doStateHandleSwap, hbits, hrole, hout, hbound, hidle]
  rfl

theorem State.doStateHandleSwap_in (h : swapAllowed s c v = true) (hin : bit (leNat v) 12 = true)
    (hswapped : (s.handle (field (leNat v) 11 0)).st = .swapped) (hfree : (s.handle (field (leNat v) 11 0)).held.isNone = true)
    (hcopy : (s.copyTo (field (leNat v) 11 0) (s.handle (field (leNat v) 11 0)).backing (field (leNat v) 111 64) .firmware).2.isNone = true) :
    s.doStateHandleSwap c v = ((((s.copyTo (field (leNat v) 11 0) (s.handle (field (leNat v) 11 0)).backing (field (leNat v) 111 64)
      .firmware).1).endSwapIn (field (leNat v) 11 0) (field (leNat v) 111 64)).grant (field (leNat v) 11 0), stOk) := by
  simp only [swapAllowed, Bool.and_eq_true, Bool.not_eq_true', hin, Bool.true_and] at h
  obtain ⟨⟨⟨hbits, hused⟩, hforce⟩, hrole⟩ := h
  have hheld : (s.handle (field (leNat v) 11 0)).held.isSome = false := by simpa using hfree
  rw [Option.isNone_iff_eq_none] at hcopy
  simp only [State.doStateHandleSwap, hbits, hrole, hin, hforce, hswapped, hheld]
  generalize s.copyTo (field (leNat v) 11 0) (s.handle (field (leNat v) 11 0)).backing (field (leNat v) 111 64) .firmware = r at hcopy ⊢
  obtain ⟨s1, stop⟩ := r
  cases hcopy
  rfl

end KvAndHandleRequests

/-- Settles O47: each command's checks pass where its value is accepted; a drop takes effect once nothing names the sequence. -/
theorem kvAndHandleRequestsComplete : Obligations.KvAndHandleRequestsComplete := by
  unfold Obligations.KvAndHandleRequestsComplete
  refine ⟨cmdCompletes_of (fun _ _ _ _ _ => rfl) fun s c v h => ?define, cmdCompletes_of (fun _ _ _ _ _ => rfl) fun s c v h => ?remove,
    fun p l n => cmdCompletes_of (fun _ _ _ _ _ => rfl) fun s c v h => ?create,
    fun p l n => cmdCompletes_of (fun _ _ _ _ _ => rfl) fun s c v h => ?drop, fun s p q hq => ?dropped,
    cmdCompletes_of (fun _ _ _ _ _ => rfl) fun s c v h => ?bind, cmdCompletes_of (fun _ _ _ _ _ => rfl) fun s c v h => ?revoke,
    cmdCompletes_of (act := State.doStateHandleSwap) (fun s r v c h => ?isOut) fun s c v h => ?out,
    cmdCompletes_of (act := State.doStateHandleSwap) (fun s r v c h => ?isOutBusy) fun s c v h => ?outBusy,
    cmdCompletes_of (act := State.doStateHandleSwap) (fun s r v c h => ?isIn) fun s c v h => ?in_⟩
  case define => exact State.doKvLayoutDefine_of_ok h
  case remove => exact State.doKvLayoutRemove_of_ok h
  case create =>
    obtain ⟨hok, hv⟩ := (Bool.and_eq_true _ _).mp h
    exact State.doKvSeqCreate_of_ok hok (beq_iff_eq.mp hv)
  case drop =>
    obtain ⟨hok, hv⟩ := (Bool.and_eq_true _ _).mp h
    exact State.doKvSeqDrop_of_ok hok (beq_iff_eq.mp hv)
  case dropped => exact ⟨fun hbusy => by simp [State.finishDrops, hq, hbusy], fun hfree => by simp [State.finishDrops, hq, hfree]⟩
  case bind => exact State.doStateHandleBind_of_ok h
  case revoke => exact State.doStateHandleRevoke_of_ok h
  case isOut =>
    simp only [Bool.and_eq_true, Bool.not_eq_true'] at h
    obtain ⟨⟨⟨⟨⟨hallowed, hout⟩, hbound⟩, hidle⟩, hgranted⟩, hswapped⟩ := h
    exact funext fun s => congrArg Host.Outcome.next (if_neg (Bool.not_eq_true _ ▸ hout))
  case out =>
    simp only [Bool.and_eq_true, Bool.not_eq_true', beq_iff_eq] at h
    obtain ⟨⟨⟨⟨⟨hallowed, hout⟩, hbound⟩, hidle⟩, hgranted⟩, hswapped⟩ := h
    rw [State.doStateHandleSwap_out hallowed hout hbound hidle, hgranted, hswapped]
    rfl
  case isOutBusy =>
    simp only [Bool.and_eq_true, Bool.not_eq_true'] at h
    obtain ⟨⟨⟨⟨hallowed, hout⟩, hbound⟩, hidle⟩, hwaits⟩ := h
    exact funext fun s => congrArg Host.Outcome.next (if_neg (Bool.not_eq_true _ ▸ hout))
  case outBusy =>
    simp only [Bool.and_eq_true, Bool.not_eq_true', beq_iff_eq] at h
    obtain ⟨⟨⟨⟨hallowed, hout⟩, hbound⟩, hidle⟩, hwaits⟩ := h
    rw [State.doStateHandleSwap_out hallowed hout hbound hidle, hwaits]
    rfl
  case isIn =>
    simp only [Bool.and_eq_true] at h
    obtain ⟨⟨⟨⟨hallowed, hin⟩, hswapped⟩, hfree⟩, hcopy⟩ := h
    exact funext fun s => congrArg Host.Outcome.next (if_pos hin)
  case in_ =>
    simp only [Bool.and_eq_true, beq_iff_eq] at h
    obtain ⟨⟨⟨⟨hallowed, hin⟩, hswapped⟩, hfree⟩, hcopy⟩ := h
    exact State.doStateHandleSwap_in hallowed hin hswapped hfree hcopy

end Sys2Proof.Machine
end

section
/-! PROOFS. Statement O48 fails: a write of a pitch's priority also donates along the pegs on which its slots wait. -/

namespace Sys2Proof.Machine

/-! ### A write of PitchPriority donates (R148, R461) -/

/-- The record of a pitch with pegs 0 to 15 of cluster 0, of which 0 to 3 are lock pegs. -/
def lockPegRecord : List Byte := natLe 16 (2 ^ 32) ++ natLe 16 (16 * 2 ^ 42 + 4 * 2 ^ 53) ++ List.replicate 96 0

/-- A cluster in which slot 1 holds peg 3, and slot 0 waits to take it. -/
def lockPegCluster : Cluster where
  gated := false
  pegs := [(3, { holders := [(1, 1)] })]
  waiters := [{ slot := 0, peg := 3, amount := 1, keep := false }]

/-- Slot 1, of pitch 1, holds lock peg 3 of pitch 0; slot 0, of pitch 0 and of the same priority, waits to take it. -/
def lockPegState : State := { State.reset with
  clusters := [(0, lockPegCluster)]
  pitches := [(0, { st := .running, record := lockPegRecord, slots := [0] }), (1, { st := .running, slots := [1] })]
  slots := [(0, { st := .waiting, pitch := 0, hold := .pegTake 3 1 }), (1, { st := .active, pitch := 1 })] }

/-- A request outside a session on mailbox 0, and its caller while no INTEGRATOR key is installed (R769). -/
def mailboxReq : Req := { path := .mailbox 0 }
def mailboxCaller : Caller := { role := .integrator, path := .mailbox 0 }

/-- How many donations stand in cluster 0 of a next state. -/
def donationsAfter (o : Host.Outcome State Fault Refusal) : Option Nat := (nextOf o).map (fun t => (t.cluster 0).donations.length)

/-- The write of priority 7 to pitch 0 is heard and taken up. -/
theorem lockPegState_hears : lockPegState.hears mailboxReq (writeHead (Key.at Key.pitchPriority 0)) mailboxCaller = true ∧
    (lockPegState.asked mailboxReq).scalarOpen mailboxCaller (Key.at Key.pitchPriority 0) rkOperator [7] = true ∧
    ((lockPegState.asked mailboxReq).pitch 0).st ≠ .free := by decide +kernel

/-- It leaves slot 1 with the donation of slot 0. -/
theorem lockPegState_donates : donationsAfter (exec (.pitchPriorityWrite mailboxReq 0 [7]) lockPegState) = some 1 := by decide +kernel

/-- Writing the object alone donates nothing. -/
theorem lockPegState_object_donates_nothing :
    donationsAfter (.next (((lockPegState.asked mailboxReq).setObj (Key.at Key.pitchPriority 0) 7).answer mailboxReq
      (writeHead (Key.at Key.pitchPriority 0)) stOk [] false)) = some 0 := by decide +kernel

/-- Refutes O48: a write of PitchPriority gives more than the object its value. On `lockPegState` it raises slot 0 above the holder
of the peg for which it waits, and the donation of R148 follows, which the statement's next state lacks. -/
theorem not_pitchRequestsComplete : ¬ Obligations.PitchRequestsComplete := by
  unfold Obligations.PitchRequestsComplete
  rintro ⟨-, -, -, -, -, -, -, -, hpriority, -, -⟩
  obtain ⟨hhears, hopen, hused⟩ := lockPegState_hears
  have hnext := hpriority 0 lockPegState mailboxReq [7] mailboxCaller hhears hopen (bne_iff_ne.mpr hused)
  have hcount := lockPegState_donates
  rw [hnext] at hcount
  exact absurd (lockPegState_object_donates_nothing.symm.trans hcount) (by decide)

end Sys2Proof.Machine
end

section
/-! PROOFS. Statement O49: the queues, the acoustic front end, the cascade, glimpse and playback. -/

namespace Sys2Proof.Machine

/-! ### What the audio path leaves of the sample index -/

@[simp] theorem State.countSat_index (s : State) (n : Nat) : (s.countSat n).listen.index = s.listen.index := by
  unfold State.countSat
  split <;> rfl

@[simp] theorem State.trimChannel_index (s : State) (c : Nat) (v : Int) : (s.trimChannel c v).listen.index = s.listen.index := by
  simp only [State.trimChannel, State.modListen]
  split <;> rfl

@[simp] theorem State.narrowBeam_index (s : State) (x : Word) : (s.narrowBeam x).1.listen.index = s.listen.index := by
  unfold State.narrowBeam
  split <;> rfl

@[simp] theorem State.takeChannels_index (s : State) (samples : List Int) :
    (s.takeChannels samples).1.listen.index = s.listen.index := by
  have hfold : ((List.range 24).foldl (fun (t : State) c => t.trimChannel c (t.channelIn c (samples.getD c 0))) s).listen.index
      = s.listen.index :=
    foldl_keeps (g := fun t : State => t.listen.index) (fun t c => t.trimChannel_index c _) _ s
  rwa [State.takeChannels, State.countSat_index]

@[simp] theorem State.formBeams_index (s : State) : s.formBeams.1.listen.index = s.listen.index := by
  refine foldl_keeps (g := fun acc : State × List Int => acc.1.listen.index) (fun acc b => ?_) _ (s, [])
  split
  · simp
  · rfl

/-- A sample of the audio path moves the index on by one. -/
theorem audioSample_index {s : State} (samples : List Int) (hon : s.lanternOn = true) :
    ∃ t, exec (.audioSample samples) s = .next t ∧ t.listen.index = s.listen.index + 1 := by
  refine ⟨_, by simp only [exec, execAudioSample, hon]; rfl, ?_⟩
  split <;> simp [State.endBlock, State.modListen, Listening.putFrame]

/-! ### When a stale tail is due and a keyword is held -/

theorem State.staleDue_of_oldest {s : State} {q : Nat} {p : QPacket} (h : (s.queue q).oldest = some p) :
    s.staleDue q = decide (max (s.queue q).reference p.commitStamp + s.obj (Key.at Key.staleTailNs q) ≤ s.time) := by
  simp [State.staleDue, h]

theorem State.kwsHeld_eq_true_iff (s : State) :
    s.kwsHeld = true ↔ ∃ t, s.listen.lastTrigger = some t ∧ s.time < t + 1000000 * s.obj Key.kwsHoldMs := by
  cases h : s.listen.lastTrigger <;> simp [State.kwsHeld, h]

/-- The stage timer has run out exactly where it is due. -/
theorem State.stageLate_eq {s : State} {k : Nat} (h2 : 2 ≤ k) (hk : s.obj Key.wakeStage = k)
    (hms : s.obj (Key.wakeTimeoutMs + (k - 2)) ≠ 0) (hd : s.listen.dropTo = none) (hw : s.listen.stageWaking = none) :
    s.stageLate k = decide (s.listen.stageSince + 1000000 * s.obj (Key.wakeTimeoutMs + (k - 2)) ≤ s.time) := by
  simp [State.stageLate, h2, hk, hms, hd, hw]

/-- Settles O49: each event on the branch that its conditions select. -/
theorem listeningComplete : Obligations.ListeningComplete := by
  unfold Obligations.ListeningComplete
  refine ⟨fun s q => ⟨fun hasked hprog => ?flush, fun p hp => ⟨fun hdue hfired hen => ?stale, fun hdue => ?notStale⟩⟩,
    fun s samples hon => audioSample_index samples hon,
    fun s k b hk hon hb hq hholds hreach => ⟨fun hend hlt => ?commit, fun hend hslot => ⟨fun hpass => ?replay, fun hpass => ?noReplay⟩⟩,
    fun s k r rest hk hraw hq hreach => ?raw, fun s scores hon => ⟨fun hlt => ?l0, fun hle => ?l0Done⟩,
    fun s scores beam v hon hmodel htop hnext => ⟨fun hv hheld => ?l1, fun hno => ?l1None⟩,
    fun s k hk hact => ?wake, fun s k h2 hk hms hd hw => ⟨fun hdue => ?late, fun hdue => ?notLate⟩,
    fun s k hk => ⟨fun hdue => ?drop, fun hdue => ?noDrop⟩, fun s => ⟨fun hdue => ?wakeOut, fun hdue => ?noWakeOut⟩,
    fun s hst => ?brownout, fun s stamp luma hst hen hlen hscore => ⟨fun hact => ?glimpse1, fun hact => ?glimpse2⟩,
    fun s hen hon => ⟨fun hready => ?play, fun hready => ?underrun⟩,
    scalarCompletes_of (fun _ _ _ _ _ => rfl) (fun _ _ _ _ => rfl),
    scalarCompletes_of (fun _ _ _ _ _ => rfl) (fun _ _ _ _ => rfl),
    cmdAnswers_of (fun _ _ => rfl) (fun _ _ _ _ => rfl)⟩
  case flush => simp [exec, execQueueFlushEffect, State.packetBoundary, hasked, hprog]
  case stale => simp [exec, execStaleTailNotice, State.staleDue_of_oldest hp, hdue, hfired, hen, State.modQueue]
  case notStale => simp [exec, execStaleTailNotice, State.staleDue_of_oldest hp, Nat.not_le.mpr hdue]
  case commit =>
    have hk' : k ≠ 3 := fun h => hk (congrArg Fin.val h)
    simp only [exec, execAudioBlockCommit, hb, hon, hholds, hreach]
    simp [hk, Nat.not_lt.mpr hend, Nat.not_le.mpr hlt, Nat.not_le.mpr hq]
  case replay =>
    simp only [exec, execReplayBlock, hb, hon, hholds, hreach, hpass]
    simp [hk, Nat.not_le.mpr hend, Nat.not_le.mpr hq, hslot]
  case noReplay => simp [exec, execReplayBlock, hpass]
  case raw =>
    simp only [exec, execAudioBlockCommit, hk, hraw, hreach]
    simp [Nat.not_le.mpr hq]
  case l0 => simp [exec, execL0Frame, hon, Nat.not_le.mpr hlt]
  case l0Done => simp [exec, execL0Frame, hle]
  case l1 =>
    have hkws : s.kwsHeld = false := by
      rw [Bool.eq_false_iff, ne_eq, State.kwsHeld_eq_true_iff]
      rintro ⟨t, ht, hlt⟩
      exact absurd (hheld t ht) (Nat.not_le.mpr hlt)
    simp [exec, execL1Hop, hon, hmodel, Nat.not_le.mpr hnext, htop, Nat.not_lt.mpr hv, hkws]
  case l1None =>
    have hkept : v < s.obj Key.kwsThreshold ∨ s.kwsHeld = true := hno.imp_right s.kwsHeld_eq_true_iff.mpr
    simp [exec, execL1Hop, hon, hmodel, Nat.not_le.mpr hnext, htop, hkept]
  case wake => simp [exec, execStageWake, hk, hact]
  case late => simp [exec, execStageTimeout, State.stageLate_eq h2 hk hms hd hw, hdue]
  case notLate => simp [exec, execStageTimeout, State.stageLate_eq h2 hk hms hd hw, Nat.not_le.mpr hdue]
  case drop => simp [exec, execDropGraceExpiry, hk, hdue]
  case noDrop => simp [exec, execDropGraceExpiry, hk, Nat.not_le.mpr hdue]
  case wakeOut => simp [exec, execWakeOutHoldExpiry, hdue]
  case noWakeOut => simp [exec, execWakeOutHoldExpiry, Nat.not_le.mpr hdue]
  case brownout => simp [exec, execLanternBrownout, hst]
  case glimpse1 =>
    simp only [exec, execGlimpseFrame, hact]
    simp [hst, hen, hlen, Nat.not_lt.mpr hscore]
  case glimpse2 =>
    simp only [exec, execGlimpseFrame, hact]
    simp [hst, hen, hlen, Nat.not_lt.mpr hscore]
  case play => simp [exec, execPlaybackBlockDue, hon, hen, hready]
  case underrun => simp [exec, execPlaybackBlockDue, hon, hen, hready]

end Sys2Proof.Machine
end

section
/-! PROOFS. Statement O50: the receivers, the arbiter, the band writer, frame sync and the camera control buses. -/

namespace Sys2Proof.Machine

/-- A good header changes nothing. -/
@[simp] theorem State.checkHeader_good (s : State) (p : Nat) : s.checkHeader p .good = (s, true) := rfl

/-- A CciTransfer that is accepted begins. -/
theorem State.doCciTransfer_of_ok {s : State} {c : Caller} {v : List Byte} (h : okCciTransfer s c v = true) :
    s.doCciTransfer c v = (s.beginCci v, stOk) := by
  simp only [okCciTransfer, Bool.and_eq_true, decide_eq_true_eq, beq_iff_eq, Option.isNone_iff_eq_none] at h
  obtain ⟨⟨⟨⟨⟨hmin, hzero⟩, hw⟩, hr⟩, hlen⟩, hidle⟩ := h
  simp only [State.doCciTransfer, hidle, hzero, hlen]
  simp [Nat.not_lt.mpr hw, Nat.not_lt.mpr hr]

/-- Settles O50: each event on the branch that its conditions select. -/
theorem camerasComplete : Obligations.CamerasComplete := by
  unfold Obligations.CamerasComplete
  refine ⟨fun s p vc f hserved => ⟨fun hopen hen => ?start, fun hopen hen => ?off, fun hopen hen => ?restart, fun hopen hlt => ?ends,
      fun hopen hle => ?endsLate, fun hopen hover hquiet hrec hbuf payload crcOk => ?line,
      fun hopen hover hquiet hrec hbuf payload crcOk => ?overflow⟩,
    fun s c f hopen => ⟨fun hdue => ?timeout, fun hdue => ?notYet⟩, fun s p hact hport => ?arbitrate,
    fun s c o f lines last hact hframe hband => ?band, fun s hact hperiod => ⟨?rising, ?falling⟩,
    cmdCompletes_of (fun _ _ _ _ _ => rfl) fun s c v h => State.doCciTransfer_of_ok h,
    fun s b data hbusy hpower => ⟨?cciDone, fun st hst => ?cciFailed⟩⟩
  case start => simp [exec, execCsiFrameStart, hserved, hopen, hen]
  case off => simp [exec, execCsiFrameStart, hserved, hopen, hen]
  case restart => simp [exec, execCsiFrameStart, hserved, hopen, hen]
  case ends => simp [exec, execCsiFrameEnd, hserved, hopen, Nat.not_le.mpr hlt]
  case endsLate => simp [exec, execCsiFrameEnd, hserved, hopen, hle]
  case line =>
    simp only [exec, execCsiLongPacket, State.checkHeader_good, hserved, hopen, hover, hquiet]
    simp [Nat.not_le.mpr hrec, Nat.not_le.mpr hbuf]
  case overflow =>
    simp only [exec, execCsiLongPacket, State.checkHeader_good, hserved, hopen, hover, hquiet]
    simp [Nat.not_le.mpr hrec, hbuf]
  case timeout => simp [exec, execFrameTimeout, hopen, hdue]
  case notYet => simp [exec, execFrameTimeout, hopen, Nat.not_le.mpr hdue]
  case arbitrate => simp [exec, execLineArbitration, hact, hport]
  case band => simp only [exec, execBandCommit, State.serveBand, hact, hframe, hband]; simp
  case rising => simp [exec, execFsyncPulse, hact, hperiod]
  case falling => simp [exec, execFsyncPulse, hact, hperiod]
  case cciDone => rcases hpower with hst | hst <;> simp [exec, execCciTransferDone, hbusy, hst]
  case cciFailed => rcases hpower with hpow | hpow <;> simp [exec, execCciTransferDone, hbusy, hpow, hst]

end Sys2Proof.Machine
end

section
/-! PROOFS. Statement O52: packets that reach the module, the answers to its own, and forwarded event lines. -/

namespace Sys2Proof.Machine

/-! ### How a packet is taken (R514, R558) -/

section Arrivals

variable {s : State} {pkt : Packet} {take : Packet → State → Received}

theorem State.arrive_of_not_forHere (h : s.forHere pkt = false) : s.arrive pkt take = s := by
  simp [State.arrive, h]

theorem State.arrive_of_doze (h : s.forHere pkt = true) (hst : s.power.st = .doze) :
    s.arrive pkt take = (s.keep pkt).beginReturn := by
  simp [State.arrive, h, hst]

theorem State.arrive_of_behind (h : s.arrives pkt = true) (hb : s.behind pkt = true) : s.arrive pkt take = s.keep pkt := by
  obtain ⟨hhere, hst⟩ : s.forHere pkt = true ∧ s.power.st = .active := by simpa [State.arrives] using h
  simp [State.arrive, hhere, hst, hb]

/-- A packet that is taken now is what its kind's taking leaves, or it waits. -/
theorem State.arrive_of_takesNow (h : s.takesNow pkt = true) :
    s.arrive pkt take = if (take pkt s).2 then (take pkt s).1 else (take pkt s).1.keep pkt := by
  obtain ⟨⟨hhere, hst⟩, hb⟩ : (s.forHere pkt = true ∧ s.power.st = .active) ∧ s.behind pkt = false := by
    simpa [State.takesNow, State.arrives] using h
  rcases htake : take pkt s with ⟨t, taken⟩
  cases taken <;> simp [State.arrive, hhere, hst, hb, htake]

theorem State.arrive_of_taken {t : State} (h : s.takesNow pkt = true) (ht : take pkt s = (t, true)) : s.arrive pkt take = t := by
  simp [State.arrive_of_takesNow h, ht]

theorem State.arrive_of_waits {t : State} (h : s.takesNow pkt = true) (ht : take pkt s = (t, false)) :
    s.arrive pkt take = t.keep pkt := by
  simp [State.arrive_of_takesNow h, ht]

end Arrivals

/-- A packet command is the arrival of its packet. -/
theorem exec_packetCommand {pkt : Packet} {c : Instr} (hc : c ∈ packetCommands pkt) :
    ∃ take, ∀ s, exec c s = .next (s.arrive pkt take) := by
  simp only [packetCommands, List.mem_cons, List.not_mem_nil, or_false] at hc
  rcases hc with rfl | rfl | rfl | rfl | rfl | rfl | rfl | rfl | rfl | rfl <;> exact ⟨_, fun _ => rfl⟩

/-! ### What the answers to the module's own packets leave (R217, R476 to R480) -/

section Answers

variable {s : State} {pkt : Packet} {o : FabricOp} {j : Job}

theorem State.takeWriteAck_of_op (ht : s.fabricTag pkt.tag = true) (ho : s.opOf pkt = some o)
    (hj : s.jobOfTag o.slot pkt.tag = some j) :
    s.takeWriteAck pkt = let a := (s.closeOp pkt.tag).returnTag j pkt.tag
      if a.tagCurrent (a.pitch (a.slot o.slot).pitch).tenantTag then (a.afterReturn j).afterAnswer
      else (a.checkTenant o.slot j).afterAnswer := by
  simp [State.takeWriteAck, ht, ho, hj]

theorem State.takeNack_of_op (ht : s.fabricTag pkt.tag = true) (ho : s.opOf pkt = some o)
    (hj : s.jobOfTag o.slot pkt.tag = some j) :
    s.takeNack pkt = ((s.closeOp pkt.tag).faultSlot o.slot (pkt.code, nackDetail pkt.code o.send.pkt pkt) j.opcode
      j.cmdPtr).afterAnswer := by
  simp [State.takeNack, ht, ho, hj]

theorem takeReadData_of_poison (ht : s.fabricTag pkt.tag = true) (ho : s.opOf pkt = some o)
    (hj : s.jobOfTag o.slot pkt.tag = some j) (hp : pkt.poison = true) :
    takeReadData pkt s = (((s.closeOp pkt.tag).faultSlot o.slot (pkt.code, o.send.pkt.addr) j.opcode j.cmdPtr).afterAnswer, true) := by
  simp [takeReadData, ht, ho, hj, hp]

theorem takeReadData_of_placed {j1 : Job} (ht : s.fabricTag pkt.tag = true) (ho : s.opOf pkt = some o)
    (hj : s.jobOfTag o.slot pkt.tag = some j) (hp : pkt.poison = false)
    (hc : s.tagCurrent (s.pitch (s.slot o.slot).pitch).tenantTag = true) {m : Moved}
    (hm : s.placeRead o.slot o.send (pkt.payload.take o.send.pkt.len) = m) (herr : m.err = none) (hstall : m.stall = none)
    (hj1 : (m.s.answered o.slot pkt.tag).jobOf o.slot .xfr = some j1) :
    takeReadData pkt s = ((m.s.answered o.slot pkt.tag).writeOn j1 pkt.tag m.writes, true) := by
  simp [takeReadData, ht, ho, hj, hp, hc, hm, herr, hstall, hj1]

end Answers

/-! ### The commands of event forwards and of the encoder's streams -/

theorem State.doEventForwardDefine_of_ok {n : Nat} {s : State} {c : Caller} {v : List Byte} (h : okEventForward n s c v = true) :
    s.doEventForwardDefine n c v = (s.modCluster n (fun c =>
      { c with forwards := c.forwards.filter (fun f => f.line != (forwardIn v).line) ++ [forwardIn v] }), stOk) := by
  simp only [okEventForward, Bool.and_eq_true, decide_eq_true_eq] at h
  obtain ⟨⟨⟨hbits, hcluster⟩, htorus⟩, howner⟩ := h
  cases hp : s.lineOwner n (field (leNat v) 7 0) with
  | none => simp [hp] at howner
  | some p =>
    have hcredit : (s.pitch p).credit 0 ≠ 0 := by simpa [hp] using howner
    simp only [State.doEventForwardDefine, hbits, hp, htorus]
    simp [hcredit, Nat.not_le.mpr hcluster, forwardIn]

theorem State.doEventForwardRemove_of_ok {n : Nat} {s : State} {c : Caller} {v : List Byte}
    (h : (s.cluster n).forwards.any (fun f => f.line == leNat v) = true) :
    s.doEventForwardRemove n c v
      = (s.modCluster n (fun c => { c with forwards := c.forwards.filter (fun f => f.line != leNat v) }), stOk) :=
  if_pos h

theorem State.encStream_of_assign {s : State} {v : List Byte} (hbits : onlyBits (leNat v) [(5, 0), (12, 8), (15, 15)] = true)
    (hpitch : (s.pitch (field (leNat v) 12 8)).st ≠ .free) :
    s.encStream true v = (s.setStream (field (leNat v) 5 0) { owner := field (leNat v) 12 8 }, stOk) := by
  simp [State.encStream, hbits, hpitch]

theorem State.encStream_of_release {s : State} {v : List Byte} (hbits : onlyBits (leNat v) [(5, 0), (12, 8), (15, 15)] = true) :
    s.encStream false v = (s.setStream (field (leNat v) 5 0) (s.stream (field (leNat v) 5 0)).release, stOk) := by
  simp [State.encStream, hbits]

/-- Settles O52: each packet on the branch that its conditions select. -/
theorem packetsComplete : Obligations.PacketsComplete := by
  unfold Obligations.PacketsComplete
  refine ⟨fun s pkt c hc => ?arrivals, fun s p ps hps hst => ?serve, fun s pkt hnow hj => ⟨fun code href => ?writeRefused,
      fun tag s1 s2 href htag hwrite => ?written, fun href htag => ?writeWaits, fun code href => ?readRefused,
      fun tag s1 s2 bs href htag hread => ?read⟩, fun s pkt hnow hj => ⟨?noWrite, ?noRead⟩,
    fun s pkt hnow htag hunit => ⟨fun hfull hlong => ?delivers, fun hno => ?inboxRefuses, fun hov => ?raises, fun hov => ?lineRefused⟩,
    fun s pkt hnow htag hunit => ⟨?staleMsg, ?staleEvent⟩,
    fun s pkt hnow => ⟨fun htag hpeg => ?credit, fun htag => ⟨?oldCredit, ?oldMsg⟩⟩,
    fun s pkt o j hnow ht ho hj => ⟨fun hcur => ?acked, fun hcur => ?ackedStale, ?nacked, fun hp => ?poisoned,
      fun m j1 hp hcur hm herr hstall hj1 => ?placed⟩,
    fun s pkt hnow ht hunit hcode => ?staleNack, fun s n line p f t hf ho hq hcut => ⟨fun hsent => ?sends, fun hwaits => ?holds⟩,
    fun s pitch port vc det p t hroute hall hemit => ⟨fun hlt => ?noCredit, fun hle => ?injects, fun _ => rfl⟩,
    fun n => cmdCompletes_of (fun _ _ _ _ _ => rfl) fun s c v h => State.doEventForwardDefine_of_ok h,
    fun n => cmdCompletes_of (fun _ _ _ _ _ => rfl) fun s c v h => State.doEventForwardRemove_of_ok h,
    cmdCompletes_of (act := State.doEncStream) (fun s r v c h => ?assignRuns) fun s c v h => ?assign,
    cmdCompletes_of (act := State.doEncStream) (fun s r v c h => ?releaseRuns) fun s c v h => ?release,
    cmdCompletes_of (fun _ _ _ _ _ => rfl) fun s c v h => if_neg (Nat.not_le.mpr (of_decide_eq_true h))⟩
  case arrivals =>
    obtain ⟨take, he⟩ := exec_packetCommand hc
    simp only [he]
    exact ⟨fun h => by rw [State.arrive_of_not_forHere h], fun h hst => by rw [State.arrive_of_doze h hst],
      fun h hb => by rw [State.arrive_of_behind h hb]⟩
  case serve => simp [State.serveArrivals, hps, hst]
  case writeRefused => exact congrArg Host.Outcome.next (State.arrive_of_taken hnow (by simp [takeWrite, hj, href]))
  case written => exact congrArg Host.Outcome.next (State.arrive_of_taken hnow (by simp [takeWrite, hj, href, htag, hwrite]))
  case writeWaits => exact congrArg Host.Outcome.next (State.arrive_of_waits hnow (by simp [takeWrite, hj, href, htag]))
  case readRefused => exact congrArg Host.Outcome.next (State.arrive_of_taken hnow (by simp [takeReadReq, hj, href]))
  case read => exact congrArg Host.Outcome.next (State.arrive_of_taken hnow (by simp [takeReadReq, hj, href, htag, hread]))
  case noWrite => exact congrArg Host.Outcome.next (State.arrive_of_waits hnow (by simp [takeWrite, hj]))
  case noRead => exact congrArg Host.Outcome.next (State.arrive_of_waits hnow (by simp [takeReadReq, hj]))
  case delivers =>
    refine congrArg Host.Outcome.next (State.arrive_of_taken hnow (Prod.ext ?_ rfl))
    simp only [State.takeMsg, htag, hunit]
    simp [hfull, hlong]
  case inboxRefuses =>
    refine congrArg Host.Outcome.next (State.arrive_of_taken hnow (Prod.ext ?_ rfl))
    simp only [State.takeMsg, htag, hunit]
    simp [hno]
  case raises => exact congrArg Host.Outcome.next (State.arrive_of_taken hnow (by simp [State.takeEvent, htag, hunit, hov]))
  case lineRefused => exact congrArg Host.Outcome.next (State.arrive_of_taken hnow (by simp [State.takeEvent, htag, hunit, hov]))
  case staleMsg => exact congrArg Host.Outcome.next (State.arrive_of_taken hnow (by simp [State.takeMsg, htag, hunit]))
  case staleEvent => exact congrArg Host.Outcome.next (State.arrive_of_taken hnow (by simp [State.takeEvent, htag, hunit]))
  case credit =>
    have hcluster : ¬ 6 ≤ pkt.creditPeg / 1024 := by omega
    exact congrArg Host.Outcome.next (State.arrive_of_taken hnow (by simp [State.takeMsgCredit, htag, hcluster]))
  case oldCredit => exact congrArg Host.Outcome.next (State.arrive_of_taken hnow (by simp [State.takeMsgCredit, htag]))
  case oldMsg => exact congrArg Host.Outcome.next (State.arrive_of_taken hnow (by simp [State.takeMsg, htag]))
  case acked =>
    exact congrArg Host.Outcome.next (State.arrive_of_taken hnow
      (Prod.ext ((State.takeWriteAck_of_op ht ho hj).trans (if_pos hcur)) rfl))
  case ackedStale =>
    exact congrArg Host.Outcome.next (State.arrive_of_taken hnow
      (Prod.ext ((State.takeWriteAck_of_op ht ho hj).trans (if_neg (Bool.eq_false_iff.mp hcur))) rfl))
  case nacked => exact congrArg Host.Outcome.next (State.arrive_of_taken hnow (Prod.ext (State.takeNack_of_op ht ho hj) rfl))
  case poisoned => exact congrArg Host.Outcome.next (State.arrive_of_taken hnow (takeReadData_of_poison ht ho hj hp))
  case placed =>
    exact congrArg Host.Outcome.next (State.arrive_of_taken hnow (takeReadData_of_placed ht ho hj hp hcur hm herr hstall hj1))
  case staleNack =>
    exact congrArg Host.Outcome.next (State.arrive_of_taken hnow (by simp [State.takeNack, ht, hunit, hcode]))
  case sends =>
    simp only [exec, execEventForwardSend, hf, ho, hcut, hsent]
    simp [hq]
  case holds =>
    simp only [exec, execEventForwardSend, hf, ho, hcut, hwaits]
    simp
  case noCredit => simp [State.inject, hroute, hemit, hall, hlt]
  case injects => simp [State.inject, hroute, hemit, hall, Nat.not_lt.mpr hle]
  case assignRuns =>
    obtain ⟨⟨-, hbit⟩, -⟩ := by simpa only [Bool.and_eq_true] using h
    exact funext fun s => if_neg (by simpa using hbit)
  case assign =>
    simp only [Bool.and_eq_true, bne_iff_ne] at h
    obtain ⟨⟨hbits, hbit⟩, hpitch⟩ := h
    rw [State.doEncStream, hbit, State.encStream_of_assign hbits hpitch]
  case releaseRuns =>
    obtain ⟨-, hbit⟩ := by simpa only [Bool.and_eq_true] using h
    exact funext fun s => if_neg (by simpa using hbit)
  case release =>
    simp only [Bool.and_eq_true] at h
    obtain ⟨hbits, hbit⟩ := h
    rw [State.doEncStream, hbit, Bool.not_true, State.encStream_of_release hbits]

end Sys2Proof.Machine
end

section
/-! PROOFS. Statement O54: the codes of lines, scrubbing, sweeps, the fault log, islands, flash dies and retirement. -/

namespace Sys2Proof.Machine

/-! ### The codes of lines (R646, R647, R656) -/

/-- A division leaves as many check symbols as its generator has. -/
theorem length_checkSymbols {n : Nat} (hn : (generatorTail n).length = n) (data : List Nat) : (checkSymbols n data).length = n := by
  refine List.foldlRecOn (motive := fun rem : List Nat => rem.length = n) data _ (List.length_replicate ..) fun rem hrem d _ => ?_
  simp only [divideStep, List.length_map, List.length_zip, List.length_append, List.length_drop, List.length_singleton, hrem, hn]
  omega

/-- Classes S, A and B have 8, 4 and 1 check symbols. -/
theorem length_lineCheck {cls : Nat} (h : cls ≤ 2) (data : List Nat) : (lineCheck cls data).length = nth [8, 4, 1] cls 0 := by
  interval_cases cls
  · exact length_checkSymbols (by decide) data
  · exact length_checkSymbols (by decide) data
  · rfl

theorem length_codeLine {cls : Nat} (h : cls ≤ 2) {data : List Nat} (hd : data.length = 64) (poisoned : Bool) :
    (codeLine cls data poisoned).length = nth [72, 68, 65] cls 0 := by
  rw [codeLine, List.length_append, List.length_map, length_lineCheck h, hd]
  interval_cases cls <;> rfl

theorem take_codeLine {data : List Nat} (hd : data.length = 64) (cls : Nat) (poisoned : Bool) :
    (codeLine cls data poisoned).take 64 = data := by
  rw [codeLine, ← hd, List.take_left]

/-- The marker changes every check symbol, of which there is one at least. -/
theorem codeLine_marked_ne {cls : Nat} (h : cls ≤ 2) (data : List Nat) : codeLine cls data true ≠ codeLine cls data false := by
  have hlen := length_lineCheck h data
  cases hc : lineCheck cls data with
  | nil => rw [hc] at hlen; interval_cases cls <;> simp [nth] at hlen
  | cons c cs => simp [codeLine, hc]

/-! ### The commands of retirement -/

section Retirement

variable {s : State} {c : Caller} {v : List Byte}

theorem State.doFrameRetire_of_ok (h : (decide (s.firstFrame ≤ leNat v) && decide (leNat v < s.firstFrame + 262144 * s.granuleCount)
    && !s.isRetired Key.frameRetire (leNat v)) = true) : s.doFrameRetire c v = (s.retireFrame (leNat v), stOk) := by
  simp only [Bool.and_eq_true, decide_eq_true_eq, Bool.not_eq_true'] at h
  obtain ⟨⟨hfirst, hlast⟩, hfree⟩ := h
  simp [State.doFrameRetire, Nat.not_le.mpr hlast, Nat.not_lt.mpr hfirst, hfree]

theorem State.doLpddrBankRetire_of_ok (h : okBankRetire s c v = true) :
    s.doLpddrBankRetire c v = (s.retireBank (leNat v), stOk) := by
  simp only [okBankRetire, Bool.and_eq_true, decide_eq_true_eq, Bool.not_eq_true'] at h
  obtain ⟨⟨hrange, hfree⟩, hroom⟩ := h
  simp [State.doLpddrBankRetire, Nat.not_le.mpr hrange, hfree, Nat.not_lt.mpr hroom]

theorem State.doSramBankRetire_of_ok (h : (onlyBits (leNat v) [(5, 0), (10, 8)] && decide (leNat v / 256 < 6)
    && !s.isRetired Key.sramBankRetire (leNat v)) = true) : s.doSramBankRetire c v = (s.retireSram (leNat v), stOk) := by
  simp only [Bool.and_eq_true, decide_eq_true_eq, Bool.not_eq_true'] at h
  obtain ⟨⟨hbits, hrange⟩, hfree⟩ := h
  simp only [State.doSramBankRetire, hbits, hfree]
  simp [Nat.not_le.mpr hrange]

theorem State.doCoreRetire_of_ok (h : (decide (leNat v < 48) && !s.isRetired Key.coreRetire (leNat v)) = true) :
    s.doCoreRetire c v = (s.retireCore (leNat v), stOk) := by
  simp only [Bool.and_eq_true, decide_eq_true_eq, Bool.not_eq_true'] at h
  obtain ⟨hrange, hfree⟩ := h
  simp [State.doCoreRetire, Nat.not_le.mpr hrange, hfree]

theorem State.doFlashDieRetire_of_ok (h : (decide (leNat v < 16) && !s.isRetired Key.flashDieRetire (leNat v)) = true) :
    s.doFlashDieRetire c v = ((s.recordRetire Key.flashDieRetire (leNat v)
      { kind := 5, outcome := 0, location := leNat v * 2 ^ 29 }).loseDie (leNat v), stOk) := by
  simp only [Bool.and_eq_true, decide_eq_true_eq, Bool.not_eq_true'] at h
  obtain ⟨hrange, hfree⟩ := h
  simp [State.doFlashDieRetire, Nat.not_le.mpr hrange, hfree]

end Retirement

/-- Settles O54: the codes by the length of their check symbols, each event on the branch that its conditions select. -/
theorem errorsComplete : Obligations.ErrorsComplete := by
  unfold Obligations.ErrorsComplete
  refine ⟨fun cls data h hd => ⟨?good, ?marked, length_codeLine h hd false, take_codeLine hd cls true⟩,
    fun s cls found hcls => ⟨fun hon hp hn hdue => ?scrub, fun hno => ?noScrub⟩,
    fun s n found hact hgated hup hdue => ?sweep, fun s found hon hdue => ?ground, fun s => ⟨fun hw => ?window, fun hw => ?sameWindow⟩,
    fun s hdirty => ?commit, fun s k hk hup => ?brownout,
    fun s k hdown => ⟨fun hdue => ?away, fun hdue => ⟨fun hk => ?others, fun hlo hhi => ?cluster, fun hk => ?router, fun hk => ?late⟩⟩,
    fun s c hup => ?miss, fun s ch die hdie => ?dieFault,
    cmdCompletes_of (fun _ _ _ _ _ => rfl) (fun _ _ _ _ => rfl),
    cmdCompletes_of (fun _ _ _ _ _ => rfl) fun s c v h => State.doFrameRetire_of_ok h,
    cmdCompletes_of (fun _ _ _ _ _ => rfl) fun s c v h => State.doLpddrBankRetire_of_ok h,
    cmdCompletes_of (fun _ _ _ _ _ => rfl) fun s c v h => State.doSramBankRetire_of_ok h,
    cmdCompletes_of (fun _ _ _ _ _ => rfl) fun s c v h => State.doCoreRetire_of_ok h,
    cmdCompletes_of (fun _ _ _ _ _ => rfl) fun s c v h => State.doFlashDieRetire_of_ok h,
    signedCompletes_of (fun _ _ => rfl) (fun _ _ _ _ => rfl)⟩
  case good => simp only [readLine, take_codeLine hd, if_pos]
  case marked => simp only [readLine, take_codeLine hd, if_neg (codeLine_marked_ne h data), if_pos]
  case scrub =>
    simp only [exec, execScrubSlice, hon]
    simp [Nat.not_lt.mpr hcls, hp, hn, Nat.not_lt.mpr hdue]
  case noScrub =>
    simp only [exec, execScrubSlice]
    rcases hno with hp | hlt
    · simp [hp]
    · simp [hlt]
  case sweep => simp only [exec, execSramSweep, hact, hgated, hup, hdue]; simp
  case ground => simp only [exec, execGroundsheetSweep, hon, hdue]; simp
  case window => exact if_neg (Nat.not_le.mpr hw)
  case sameWindow => exact if_pos hw
  case commit => simp [exec, execFaultLogCommit, hdirty]
  case brownout => simp only [exec, execIslandBrownout, hup]; simp [Nat.not_le.mpr hk]
  case away => simp only [exec, execIslandReturn, hdown, hdue]; simp
  case others =>
    have hcluster : ¬ (48 ≤ k ∧ k < 54) := by omega
    have hrouter : k ≠ 55 := by omega
    have hflash : k ≠ 59 := by omega
    simp only [exec, execIslandReturn, hdown, hdue]
    simp [hcluster, hrouter, hflash]
  case cluster =>
    simp only [exec, execIslandReturn, hdown, hdue]
    simp [hlo, hhi]
  case router =>
    subst hk
    simp only [exec, execIslandReturn, hdown, hdue]
    simp
  case late =>
    subst hk
    simp only [exec, execIslandReturn, hdown, hdue]
    simp
  case miss => simp only [exec, execCoreHeartbeatMiss, hup]; simp
  case dieFault => simp only [exec, execFlashDieFault, hdie]; simp

end Sys2Proof.Machine
end

section
/-! PROOFS. Statement O55: the security island. -/

namespace Sys2Proof.Machine

/-! ### The tweak of a line (R686) -/

section Tweak

variable {nonce tag addr : Nat}

theorem lineTweak_eq (hn : nonce < 2 ^ 32) (ht : tag < 2 ^ 16) (ha : addr < 2 ^ 48) :
    lineTweak nonce tag addr = addr / 64 + tag * 2 ^ 42 + nonce * 2 ^ 96 := by
  simp only [lineTweak]
  omega

theorem field_lineTweak (hn : nonce < 2 ^ 32) (ht : tag < 2 ^ 16) (ha : addr < 2 ^ 48) :
    field (lineTweak nonce tag addr) 41 0 = addr / 64 ∧ field (lineTweak nonce tag addr) 57 42 = tag ∧
    field (lineTweak nonce tag addr) 95 58 = 0 ∧ field (lineTweak nonce tag addr) 127 96 = nonce := by
  simp only [lineTweak_eq hn ht ha, field, Nat.shiftRight_eq_div_pow]
  omega

end Tweak

/-! ### Sessions, tenants and keys: the commands that are accepted -/

section Commands

variable {s : State} {c : Caller} {v : List Byte}

theorem State.doAttestRequest_of_ok (h : (v.length == 32 && !s.sec.attestBusy) = true) :
    s.doAttestRequest c v = (s.modSec (fun k => { k with
      attestNonce := v
      attestTag := match c.role with
        | .tenant t => s.tenantTag t
        | _ => 0xFFFF
      attestBusy := true
      ephemeral := none }), stOk) := by
  simp only [Bool.and_eq_true, beq_iff_eq, Bool.not_eq_true'] at h
  obtain ⟨hlen, hidle⟩ := h
  simp only [State.doAttestRequest, hlen, hidle]
  rfl

/-- A SessionOpen that is offered opens where its signature verifies. -/
theorem State.doSessionOpen_of_offered {key : List Byte} {e : Nat} (h : sessionOffered s v key e = true) :
    s.doSessionOpen c v =
      if Config.pssVerify key (sha256 (s.sec.report ++ (v.drop 4).take 97)) ((v.drop 104).take 384) then
        (s.openSession (leNat (v.take 1)) e ((v.drop 4).take 97) c.path, stOk)
      else (s, stRefused) := by
  simp only [sessionOffered, Bool.and_eq_true, beq_iff_eq, decide_eq_true_eq] at h
  obtain ⟨⟨⟨⟨⟨⟨hlen, hzero⟩, hzero'⟩, hkey⟩, heph⟩, hroom⟩, htime⟩ := h
  simp only [State.doSessionOpen, hlen, hzero, hzero', hkey, heph]
  cases Config.pssVerify key (sha256 (s.sec.report ++ (v.drop 4).take 97)) ((v.drop 104).take 384) <;>
    simp [Nat.not_le.mpr hroom, Nat.not_le.mpr htime]

theorem State.doSessionClose_of_ok (h : ((decide (rkOperator ≤ c.role.rank) || c.session == leNat v) && leNat v != 0
    && s.sec.sessions.any (·.id == leNat v)) = true) :
    s.doSessionClose c v = (s.closeSessions (·.id == leNat v), stOk) := by
  simp only [Bool.and_eq_true, Bool.or_eq_true, decide_eq_true_eq, beq_iff_eq, bne_iff_ne] at h
  obtain ⟨⟨hrole, hid⟩, hopen⟩ := h
  have hown : ¬ (c.role.rank < rkOperator ∧ c.session ≠ leNat v) := fun ⟨hlt, hne⟩ => hrole.elim (Nat.not_le.mpr hlt) hne
  simp only [State.doSessionClose, hopen]
  simp [hown, hid]

theorem State.doTenantCreate_of_ok (h : okTenantCreate s c v = true) : s.doTenantCreate c v = (s.makeTenant v, stOk) := by
  simp only [okTenantCreate, Bool.and_eq_true, Bool.or_eq_true, Bool.not_eq_true', decide_eq_true_eq, beq_iff_eq, bne_iff_ne] at h
  obtain ⟨⟨⟨⟨⟨⟨⟨⟨⟨hlen, hbits⟩, hfree⟩, hconf⟩, hdays⟩, hmax⟩, hoff⟩, hday⟩, hkeys⟩, hcal⟩ := h
  have hconf' : (bit (leNat (v.take 2)) 8 && !s.sec.confidential) = false := by
    rcases hconf with hc | hc <;> simp [hc]
  simp only [State.doTenantCreate, hlen, hbits, hfree, hconf', hoff, hcal]
  simp [hdays, Nat.not_lt.mpr hmax, Nat.not_le.mpr hday, Nat.not_lt.mpr hkeys]

theorem State.doTenantRemove_of_ok {fabric : Bool} (h : (onlyBits (leNat v) [(5, 0), (8, 8)] && bit (leNat v) 8 == fabric
    && (s.tenant (field (leNat v) 5 0)).st == .active) = true) :
    s.doTenantRemove c v = (s.acceptRemoval (field (leNat v) 5 0) fabric, stInProgress) := by
  simp only [Bool.and_eq_true, beq_iff_eq] at h
  obtain ⟨⟨hbits, hfabric⟩, hactive⟩ := h
  simp [State.doTenantRemove, hbits, hfabric, hactive]

theorem State.writeRetention_of_ok {t n : Nat} (h : (c.reaches t && (s.tenant t).st == .active
    && decide ((s.tenant t).retentionDays ≤ n) && decide (s.keyReserve (· != t) + n + 3 ≤ 4032)) = true) :
    s.writeRetention t c n = ((s.setTenant t { s.tenant t with retentionDays := n, retentionNext := none }).modSec (fun k =>
      { k with storeDirty := true }), stOk) := by
  simp only [Bool.and_eq_true, beq_iff_eq, decide_eq_true_eq] at h
  obtain ⟨⟨⟨hreach, hactive⟩, hmore⟩, hkeys⟩ := h
  simp [State.writeRetention, hreach, hactive, hmore, Nat.not_lt.mpr hkeys]

theorem State.doEpochExpire_of_ok {t e i : Nat} {k : KeyEntry} (h : (epochNames v == some (t, e) && c.reaches t
    && ((s.ownRoll t).keysOf t).find? (fun x => x.2.epoch == e && (if e = standingEpoch then x.2.st == .write else x.2.st == .read))
      == some (i, k)) = true) : s.doEpochExpire c v = ((s.ownRoll t).expireEntry i, stOk) := by
  simp only [Bool.and_eq_true, beq_iff_eq] at h
  obtain ⟨⟨hnames, hreach⟩, hfound⟩ := h
  simp only [State.doEpochExpire, hnames, hreach, hfound]
  rfl

theorem State.doRekeyStart_of_ok {t e i : Nat} {k : KeyEntry} (h : (epochNames v == some (t, e) && c.reaches t
    && ((s.ownRoll t).keysOf t).find? (fun x => x.2.epoch == e && (x.2.st == .write || x.2.st == .read)) == some (i, k)
    && (s.ownRoll t).rekeyAllowed t e k && ((s.ownRoll t).startRekey t e i k).isSome) = true) :
    s.doRekeyStart c v = (((s.ownRoll t).startRekey t e i k).getD s, stOk) := by
  simp only [Bool.and_eq_true, beq_iff_eq] at h
  obtain ⟨⟨⟨⟨hnames, hreach⟩, hfound⟩, hallowed⟩, hstarts⟩ := h
  obtain ⟨s1, hs1⟩ := Option.isSome_iff_exists.mp hstarts
  simp only [State.doRekeyStart, hnames, hreach, hfound, hallowed, hs1]
  rfl

theorem State.doDebugUnlock_of_open (hconf : s.sec.confidential = false)
    (htenants : s.sec.tenants.any (fun e => e.2.st == .active) = false) :
    s.doDebugUnlock c v =
      if Config.debugFused then (s, stRefused) else (s.modSec (fun k => { k with debugUnlocked := true }), stOk) := by
  simp [State.doDebugUnlock, hconf, htenants]

end Commands

/-- A vendor-signed command that is heard and taken up answers what its action answers where its envelope verifies, and SIGNATURE where
it does not. -/
theorem State.runSigned_of_open {s : State} {r : Req} {key : Nat} {value env : List Byte} {act : CmdAct} {c : Caller}
    (hh : s.hears r (signedHead key) c = true) (hl : env.length = 448)
    (ho : (s.asked r).redrawNonce.cmdOpen { c with role := .vendor } key rkVendor value = true) :
    s.runSigned r key (value ++ env) act =
      if envelopeOk Config.dieSerial (s.asked r).sec.vendorNonce (key / 256) (key % 256) value env then
        (act (s.asked r).redrawNonce { c with role := .vendor } value).1.answer r (signedHead key)
          (act (s.asked r).redrawNonce { c with role := .vendor } value).2 [] false
      else (s.asked r).answer r (signedHead key) stSignature [] false := by
  have hserve := State.serveCmd_of_open ho act
  simp only [State.runSigned]
  change s.request r (signedHead key) (value ++ env) _ = _
  rw [State.request_of_hears hh]
  simp only [State.serveSigned, State.openSigned, List.length_append, hl, Nat.add_sub_cancel, List.take_left, List.drop_left]
  rw [if_neg (by omega)]
  by_cases hv : envelopeOk Config.dieSerial (s.asked r).sec.vendorNonce (key / 256) (key % 256) value env = true
  · simp only [hv, Bool.not_true, Bool.false_eq_true, if_false, if_true, served]
    rw [← hserve]
  · simp [hv, served]

/-- Settles O55: each command and event on the branch that its conditions select. -/
theorem securityComplete : Obligations.SecurityComplete := by
  unfold Obligations.SecurityComplete
  refine ⟨fun nonce tag addr hn ht ha => field_lineTweak hn ht ha,
    cmdCompletes_of (fun _ _ _ _ _ => rfl) fun s c v h => State.doAttestRequest_of_ok h,
    fun s hbusy hon => ?report, fun s => ⟨fun hdue => ?keyGone, fun hdue => ?keyStays⟩,
    fun key e => cmdAnswers_of (fun _ _ => rfl) fun s c v h => State.doSessionOpen_of_offered h,
    cmdCompletes_of (fun _ _ _ _ _ => rfl) fun s c v h => State.doSessionClose_of_ok h, fun _ _ => rfl,
    fun s r value env c hh hl ho hconf htenants => ?debug, signedCompletes_of (fun _ _ => rfl) (fun _ _ _ _ => rfl),
    fun s hstow hoff => ⟨fun hdue => ?advance, fun hdue => ?noAdvance⟩,
    cmdCompletes_of (fun _ _ _ _ _ => rfl) fun s c v h => State.doTenantCreate_of_ok h,
    fun fabric => cmdCompletes_of (act := State.doTenantRemove) (fun s r v c h => ?removeRuns)
      fun s c v h => State.doTenantRemove_of_ok h,
    fun t => scalarCompletes_of (fun _ _ _ _ _ => rfl) fun s c n h => State.writeRetention_of_ok h,
    fun t e i k => cmdCompletes_of (fun _ _ _ _ _ => rfl) fun s c v h => State.doEpochExpire_of_ok h,
    fun t e i k => cmdCompletes_of (fun _ _ _ _ _ => rfl) fun s c v h => State.doRekeyStart_of_ok h,
    fun s t i k hfind hon hactive => ?sweep, fun s t i k hactive hon => ⟨fun hlate => ?late, fun hlate hnone hkey => ?pending⟩,
    fun s t hst => congrArg Host.Outcome.next (if_pos hst), fun s e hfence hhead hactive hon => ?fence,
    fun s e hfence hes hon => ⟨fun hopen => ?drained, fun hopen => ?notDrained, fun hcut => ?cut, fun hcut => ?notCut⟩,
    fun s hdirty hon => ?commit⟩
  case report => simp [exec, execAttestReportReady, hbusy, hon]
  case keyGone => exact if_neg (Nat.not_lt.mpr hdue)
  case keyStays => exact if_pos hdue
  case debug =>
    refine congrArg Host.Outcome.next ((State.runSigned_of_open hh hl ho).trans ?_)
    rw [State.doDebugUnlock_of_open hconf htenants]
    cases Config.debugFused <;> rfl
  case advance => simp [exec, execRollbackAdvance, hstow, hoff, Nat.not_lt.mpr hdue]
  case noAdvance => simp [exec, execRollbackAdvance, hdue]
  case removeRuns =>
    obtain ⟨⟨-, hbit⟩, -⟩ := by simpa only [Bool.and_eq_true, beq_iff_eq] using h
    cases fabric <;> exact funext fun s => if_neg (by simp [hbit])
  case sweep => simp only [exec, execRekeySweepDone, hfind, hon, hactive]; rfl
  case late => simp only [exec, execPendingKeyCreate, hactive, hon, hlate]; rfl
  case pending => simp only [exec, execPendingKeyCreate, hactive, hon, hlate, hnone, hkey]; rfl
  case fence => simp [exec, execExpiryFence, hfence, hhead, hactive, hon]
  case drained => simp [exec, execExpiryDrainDone, hfence, hes, hopen, hon]
  case notDrained => simp [exec, execExpiryDrainDone, hopen]
  case cut => simp [exec, execExpiryDrainCut, hfence, hes, Nat.not_lt.mpr hcut, hon]
  case notCut => simp [exec, execExpiryDrainCut, hcut]
  case commit => simp [exec, execKeyStoreCommit, hdirty, hon]

end Sys2Proof.Machine
end

section
/-! PROOFS. Statement O56: states of power, wakes, the core rail, the cap, temperature, the supplies and resets. -/

namespace Sys2Proof.Machine

/-! ### The rail of a cluster's cores (R754) -/

/-- What is no greater than the rest, and is among it or first so far, stands first after sorting in. -/
theorem head?_foldl_insertBy {c : Nat} (xs acc : List Nat) (hmem : acc.head? = some c ∨ c ∈ xs) (hacc : ∀ a ∈ acc.head?, c ≤ a)
    (hmin : ∀ x ∈ xs, c ≤ x) : (xs.foldl (fun acc x => insertBy id x acc) acc).head? = some c := by
  induction xs generalizing acc with
  | nil => simpa using hmem
  | cons x xs ih =>
    have hx : c ≤ x := hmin x List.mem_cons_self
    refine ih (insertBy id x acc) ?_ ?_ fun y hy => hmin y (List.mem_cons_of_mem x hy)
    · rw [List.mem_cons] at hmem
      cases acc with
      | nil => exact hmem.elim (fun h => nomatch h) (Or.imp_left fun h => h ▸ rfl)
      | cons a acc =>
        have ha : c ≤ a := hacc a rfl
        rcases hmem with hm | rfl | hm
        · obtain rfl : a = c := Option.some.inj hm
          simp [insertBy, Nat.not_lt.mpr hx]
        · rcases Nat.lt_or_eq_of_le ha with hlt | rfl <;> simp [insertBy, *]
        · exact .inr hm
    · cases acc with
      | nil => simpa [insertBy] using hx
      | cons a acc =>
        have ha : c ≤ a := hacc a rfl
        by_cases hlt : x < a <;> simp [insertBy, hlt, hx, ha]

/-- The rail of a cluster is that of the running core with the least DIV. -/
theorem State.coreRail_of_least {s : State} {n c : Nat} (hc : c / 8 = n) (hruns : s.coreRuns c = true)
    (hmin : ∀ k, k / 8 = n → s.coreRuns k = true → field (s.core c).mode.toNat 10 8 ≤ field (s.core k).mode.toNat 10 8) :
    s.coreRail n = some (railMv (field (s.core c).mode.toNat 10 8)) := by
  have hhead : (sortBy id ((((List.range 8).map (8 * n + ·)).filter s.coreRuns).map (fun c => field (s.core c).mode.toNat 10 8))).head?
      = some (field (s.core c).mode.toNat 10 8) := by
    refine head?_foldl_insertBy _ [] (.inr (List.mem_map.mpr ⟨c, List.mem_filter.mpr ⟨?_, hruns⟩, rfl⟩)) (fun _ h => nomatch h) ?_
    · exact List.mem_map.mpr ⟨c % 8, List.mem_range.mpr (by omega), by omega⟩
    · simp only [List.mem_map, List.mem_filter, List.mem_range]
      rintro _ ⟨k, ⟨⟨m, hm, rfl⟩, hk⟩, rfl⟩
      exact hmin (8 * n + m) (by omega) hk
  rw [State.coreRail, hhead]
  rfl

/-! ### Requests, entries and returns -/

theorem State.doPowerState_of_floor {s : State} {c : Caller} {v : List Byte} (h : (decide (1 ≤ leNat v) && decide (leNat v ≤ 3)
    && !(leNat v == 3 && s.obj Key.powerEntryMethod == 1)) = true) :
    s.doPowerState c v = (if leNat v = 1 ∧ s.power.st = .doze then (s.setObj Key.powerFloor 1).beginReturn
      else s.setObj Key.powerFloor (leNat v), stOk) := by
  simp only [Bool.and_eq_true, decide_eq_true_eq, Bool.not_eq_true'] at h
  obtain ⟨⟨hlo, hhi⟩, hmethod⟩ := h
  have h4 : leNat v ≠ 4 := by omega
  have h5 : leNat v ≠ 5 := by omega
  have hle : ¬ 5 < leNat v := by omega
  simp only [State.doPowerState, hmethod]
  by_cases h1 : leNat v = 1
  · by_cases hdoze : s.power.st = .doze <;> simp [h1, hdoze]
  · simp [h4, h5, hle, h1, Nat.ne_of_gt hlo]

/-- A request for STOWED or OFF begins the entry. -/
theorem State.doPowerState_of_entry {s : State} {c : Caller} {v : List Byte} {k : Nat} (hk : k = 4 ∨ k = 5)
    (h : okEntryRequest k s c v = true) : s.doPowerState c v = (s.startEntry (if k = 4 then .stowed else .off), stOk) := by
  simp only [okEntryRequest, Bool.and_eq_true, beq_iff_eq, Option.isNone_iff_eq_none] at h
  obtain ⟨rfl, hidle⟩ := h
  rcases hk with rfl | rfl <;> simp [State.doPowerState, leNat, hidle]

theorem execLanternEntry_of_ready {s : State} (h : s.lanternReady = true) : execLanternEntry s = .next (s.startEntry .lantern) := by
  simp only [State.lanternReady, Bool.and_eq_true, Bool.or_eq_true, beq_iff_eq, decide_eq_true_eq, Option.isNone_iff_eq_none] at h
  obtain ⟨⟨⟨⟨⟨⟨hst, hidle⟩, hfloor⟩, hstage⟩, hwaking⟩, hdrop⟩, hslots⟩ := h
  exact if_pos ⟨hst, hidle, hfloor, hstage, hwaking, hdrop, hslots⟩

section Returns

variable {s : State} {k : PowerState}

theorem execPowerReturnStep_of_passed (h : s.passed tmReturn (returnDelay s.power.returnStep) = true) :
    execPowerReturnStep s = (s.mark tmReturn).stepReturn := if_pos h

/-- From step 6 on the clusters return, one a step. -/
theorem State.stepReturn_of_cluster (hk : s.power.returning = some k) (hstep : 6 ≤ s.power.returnStep) {n : Nat}
    (hn : s.nextReturning = some n) : s.stepReturn = .next (s.returnCluster n) := by
  obtain ⟨m, hm⟩ := Nat.exists_eq_add_of_le' hstep
  simp only [State.stepReturn, hk, hm, hn]

/-- With no cluster left the return is over. -/
theorem State.stepReturn_of_no_cluster (hk : s.power.returning = some k) (hstep : 6 ≤ s.power.returnStep)
    (hn : s.nextReturning = none) : s.stepReturn = .next (s.modPower (fun p => { p with returning := none, returnStep := 0 })) := by
  obtain ⟨m, hm⟩ := Nat.exists_eq_add_of_le' hstep
  simp only [State.stepReturn, hk, hm, hn]

end Returns

/-- Settles O56: each request and event on the branch that its conditions select. -/
theorem powerComplete : Obligations.PowerComplete := by
  unfold Obligations.PowerComplete
  refine ⟨cmdCompletes_of (fun _ _ _ _ _ => rfl) fun s c v h => State.doPowerState_of_floor h,
    cmdCompletes_of (act := State.doPowerState) (fun s r v c h => ?stowedRuns) fun s c v h => State.doPowerState_of_entry (.inl rfl) h,
    cmdCompletes_of (act := State.doPowerState) (fun s r v c h => ?offRuns) fun s c v h => State.doPowerState_of_entry (.inr rfl) h,
    fun s hready => ?doze, fun s hready => execLanternEntry_of_ready hready,
    fun s dest hdest => ⟨fun hstep => ?entry1, fun hstep => ?entry2, fun hstep hdown => ?entry3, fun hstep => ?entry4,
      fun hstep hl => ?entry5Lantern, fun hstep hl => ?entry5, fun hstep hs hw => ?entry6, fun hstep => ?entry7⟩,
    fun s n hact hparked => ?gate,
    fun s => ⟨fun hst n => ?wakeActive, fun hst n => ?wakeDoze, fun hst hwarm => ?wakeSupply, fun hst hdue => ?wakeFence,
      fun hst c hc => ?wakeOthers, fun hwake => ?wakeTrigger⟩,
    fun s k hk hpass => ⟨fun hstep hvin => ?return1, fun hstep => ?return2, fun hstep => ?return3, fun hstep => ?return4,
      fun hstep => ?return5, fun n hstep hn => ?return6, fun hstep hn => ?returned⟩,
    fun s hpass => if_neg (Bool.eq_false_iff.mp hpass), rfl, fun s n c hc hruns hmin => State.coreRail_of_least hc hruns hmin,
    fun s hat => ⟨fun hst hnow => ?alarmLantern, fun hst hlt hsupply hidle => ?alarmStowed⟩,
    fun s mw => ⟨fun hw => ?capNo, fun hw => ⟨fun hlt => ?capAbove, fun hlt => ?capBelow, fun hle hge => ?capWithin⟩⟩,
    fun s temps hstow hoff => ⟨fun hw => ?noReading, fun hw ht => ?reading, fun hw ht => ?readingTen⟩,
    fun s k hst => if_pos hst, fun s hst hup => ⟨fun hw => ?life, fun hw => ?noLife⟩,
    fun s hvin => ⟨fun hst => ?vinLantern, fun hst => ?vinStarts⟩, fun s hvin => ⟨fun hst => ?vinOff, fun hoff hstow => ?vinLost⟩,
    fun s straps hv hreset hclk => ⟨fun hst => ?vlntStowed, fun hst hvin => ?vlntOff, fun hstow hoff => ?vlntOther⟩,
    fun s hv => ⟨fun hvin => ?vlntGone, fun hvin hst => ?vlntLost⟩, fun s hv => ?vcal, fun s hclk => ?clockLost,
    fun s straps hclk => ?clockBack, fun s => rfl, fun s straps hboot hclk => ?release⟩
  case stowedRuns =>
    obtain ⟨rfl, -⟩ := by simpa only [okEntryRequest, Bool.and_eq_true, beq_iff_eq] using h
    rfl
  case offRuns =>
    obtain ⟨rfl, -⟩ := by simpa only [okEntryRequest, Bool.and_eq_true, beq_iff_eq] using h
    rfl
  case doze => simp [exec, execDozeEntry, hready]
  case entry1 => simp only [exec, execPowerEntryStep, hdest, hstep]
  case entry2 => simp only [exec, execPowerEntryStep, hdest, hstep]
  case entry3 => simp only [exec, execPowerEntryStep, hdest, hstep, hdown]; rfl
  case entry4 => simp only [exec, execPowerEntryStep, hdest, hstep]
  case entry5Lantern => simp only [exec, execPowerEntryStep, hdest, hstep, if_pos hl]
  case entry5 => simp only [exec, execPowerEntryStep, hdest, hstep, if_neg hl]
  case entry6 => simp only [exec, execPowerEntryStep, hdest, hstep, if_pos hs, hw]; rfl
  case entry7 => simp only [exec, execPowerEntryStep, hdest, hstep]
  case gate =>
    simp only [State.clusterParked, Bool.and_eq_true, Bool.not_eq_true'] at hparked
    obtain ⟨hasked, hcores⟩ := hparked
    simp only [exec, execClusterGate, hact, hcores, hasked]
    rfl
  case wakeActive => simp [exec, execWakeSource, hst]
  case wakeDoze => simp [exec, execWakeSource, hst]
  case wakeSupply => simp [exec, execWakeSource, hst, hwarm]
  case wakeFence => simp [exec, execWakeSource, hst, hdue]
  case wakeOthers => rcases hc with rfl | rfl | rfl <;> simp [exec, execWakeSource, hst]
  case wakeTrigger => exact congrArg Host.Outcome.next (if_pos hwake)
  case return1 =>
    refine (execPowerReturnStep_of_passed hpass).trans ?_
    simp [State.stepReturn, State.mark, hk, hstep, hvin]
  case return2 =>
    refine (execPowerReturnStep_of_passed hpass).trans ?_
    simp [State.stepReturn, State.mark, hk, hstep]
  case return3 =>
    refine (execPowerReturnStep_of_passed hpass).trans ?_
    simp [State.stepReturn, State.mark, hk, hstep]
  case return4 =>
    refine (execPowerReturnStep_of_passed hpass).trans ?_
    simp [State.stepReturn, State.mark, hk, hstep]
  case return5 =>
    refine (execPowerReturnStep_of_passed hpass).trans ?_
    simp [State.stepReturn, State.mark, hk, hstep]
  case return6 =>
    have hnext : (s.mark tmReturn).nextReturning = some n := hn
    exact (execPowerReturnStep_of_passed hpass).trans (State.stepReturn_of_cluster (s := s.mark tmReturn) hk hstep hnext)
  case returned =>
    have hnext : (s.mark tmReturn).nextReturning = none := hn
    exact (execPowerReturnStep_of_passed hpass).trans (State.stepReturn_of_no_cluster (s := s.mark tmReturn) hk hstep hnext)
  case alarmLantern => simp [exec, execWakeAtAlarm, hat, hst, hnow]
  case alarmStowed =>
    simp only [exec, execWakeAtAlarm, hst, hsupply, hidle]
    simp [hat, hlt]
  case capNo => simp [exec, execPowerCapWindow, hw]
  case capAbove => simp [exec, execPowerCapWindow, hw, hlt]
  case capBelow =>
    have hle : ¬ s.obj Key.powerCapMw < mw := by omega
    simp [exec, execPowerCapWindow, hw, hle, hlt]
  case capWithin => simp [exec, execPowerCapWindow, hw, Nat.not_lt.mpr hle, Nat.not_lt.mpr hge]
  case noReading => simp [exec, execThermalInterval, hw]
  case reading => simp [exec, execThermalInterval, hstow, hoff, hw, ht]
  case readingTen => simp [exec, execThermalInterval, hstow, hoff, hw, ht]
  case life => simp only [exec, execLifetimeCommit, hup, hw]; simp [hst]
  case noLife => simp [exec, execLifetimeCommit, hw]
  case vinLantern => simp [exec, execVinApply, hvin, hst]
  case vinStarts =>
    simp only [exec, execVinApply, hvin, Bool.false_eq_true, if_false]
  case vinOff => rcases hst with hst | hst <;> simp [exec, execVinRemove, hvin, hst]
  case vinLost =>
    simp only [exec, execVinRemove, hvin, Bool.not_true, Bool.false_eq_true, if_false]
    cases s.power.vlnt <;> rfl
  case vlntStowed => simp [exec, execVlntApply, hv, hreset, hclk, hst]
  case vlntOff => simp [exec, execVlntApply, hv, hreset, hclk, hst, hvin]
  case vlntOther =>
    simp only [exec, execVlntApply, hv, hreset, hclk, Bool.not_true, Bool.or_self, Bool.false_eq_true, if_false]
  case vlntGone => simp [exec, execVlntRemove, hv, hvin]
  case vlntLost => simp [exec, execVlntRemove, hv, hvin, hst]
  case vcal => simp [exec, execVcalLoss, hv]
  case clockLost => simp [exec, execRefclkLoss, hclk, State.modPower]
  case clockBack => simp [exec, execRefclkReturn, hclk, State.modPower]
  case release => simp [exec, execResetRelease, hboot, hclk, State.modPower]

end Sys2Proof.Machine
end

section
/-! PROOFS. Statement O57: the operations of the object dictionary. -/

namespace Sys2Proof.Machine

/-! ### Writes that come in one piece (R786) -/

/-- A value in one piece is whole, and nothing of its object stays staged. -/
theorem State.takeSegment_of_onePiece {s : State} {r : Req} {key offset : Nat} {more : Bool} {data : List Byte}
    (h : s.onePiece r key offset more data = true) (domain : Bool) :
    s.takeSegment r key offset more domain data = (s.unstage r key, .whole data) := by
  simp only [State.onePiece, Bool.and_eq_true, decide_eq_true_eq, beq_iff_eq, Bool.not_eq_true', Option.isNone_iff_eq_none] at h
  obtain ⟨⟨⟨hlen, hoff⟩, hmore⟩, hnone⟩ := h
  simp [State.takeSegment, Nat.not_lt.mpr hlen, hoff, hmore, hnone]

/-- Unstaging changes nothing of what a scalar write must meet. -/
theorem State.scalarOpen_unstage (s : State) (r : Req) (k : Nat) (c : Caller) (key min : Nat) (v : List Byte) :
    (s.unstage r k).scalarOpen c key min v = s.scalarOpen c key min v := rfl

/-- A plain setting takes the value that its status permits. -/
theorem State.writeSetting_of_plain {s : State} {c : Caller} {row : ObjRow} {key v : Nat} (hplain : plainSetting row key = true)
    (hst : s.settingStatus row key v = stOk) : s.writeSetting row key c v = (s.setObj key v, stOk) := by
  simp only [plainSetting, Bool.and_eq_true, Bool.not_eq_true', List.contains_cons, List.contains_nil, Bool.or_false,
    Bool.or_eq_false_iff, beq_eq_false_iff_ne] at hplain
  obtain ⟨hsel, hq, hport, hpri, hret, hgl, hpb, hdiv, hwin, hdma⟩ := hplain
  simp only [State.writeSetting, hsel, hst]
  simp [hq, hport, hpri, hret, hgl, hpb, hdiv, hwin, hdma]

theorem State.serveWriteFrame_of_plain {s : State} {c : Caller} {r : Req} {index sub offset : Nat} {more : Bool} {data : List Byte}
    {row : ObjRow} (h : okPlainWrite r index sub offset more data row s c = true) :
    s.serveWriteFrame c r index sub offset more data
      = ((s.unstage r (256 * index + sub)).setObj (256 * index + sub) (leNat data), stOk) := by
  simp only [okPlainWrite, Bool.and_eq_true, Bool.not_eq_true', beq_iff_eq, bne_iff_ne] at h
  obtain ⟨⟨⟨⟨⟨⟨⟨⟨⟨hgate, hpiece⟩, hrow⟩, hacc⟩, hbytes⟩, hupdate⟩, himage⟩, hplain⟩, hopen⟩, hst⟩ := h
  have hdomain : row.ty ≠ .domain := fun ht => by simp [ht, ObjType.isBytes] at hbytes
  have hserve : (s.unstage r (256 * index + sub)).serveWrite c (256 * index + sub) 0 data
      = ((s.unstage r (256 * index + sub)).setObj (256 * index + sub) (leNat data), stOk) := by
    simp only [State.serveWrite, hrow, hacc, if_neg himage, if_neg hdomain]
    rw [State.serveScalar_of_open ((s.scalarOpen_unstage r _ c _ _ _).trans hopen), State.writeSetting_of_plain hplain hst]
  simp only [State.serveWriteFrame, hgate, State.takeSegment_of_onePiece hpiece, hserve, hrow, if_neg hupdate]
  simp [hacc]

/-- TagsHighWater is a 32-bit number that is only read, but for the write of 0 (R227). -/
theorem objRow_tagsHighWater : ∃ row, objRow Key.tagsHighWater = some row ∧ rowAt 0x3A00 2 = some row ∧ row.acc = .ro ∧
    row.key = Key.tagsHighWater ∧ row.ty.width = 32 ∧ row.ty ≠ .bool ∧ row.permits 0 = true :=
  ⟨(objRow Key.tagsHighWater).get (by decide +kernel), by decide +kernel⟩

theorem State.writeGate_tagsHighWater {s : State} {c : Caller} (hc : rkOperator ≤ c.role.rank) : s.writeGate c 0x3A00 2 = stOk := by
  obtain ⟨row, -, hat, hacc, hkey, -⟩ := objRow_tagsHighWater
  have hmay : s.mayWrite c row (256 * 0x3A00 + 2) = true := by
    cases hr : c.role with
    | none => simp [hr, Role.rank, rkOperator] at hc
    | tenant t => simp [hr, Role.rank, rkOperator] at hc
    | operator => simp [State.mayWrite, hr, hacc, Key.nvImage]
    | integrator => simp [State.mayWrite, hr]
    | vendor => simp [State.mayWrite, hr]
  simp [State.writeGate, hat, hmay, hkey]

theorem State.serveWrite_tagsHighWater {s : State} {c : Caller} (hc : rkOperator ≤ c.role.rank) :
    s.serveWrite c Key.tagsHighWater 0 [0, 0, 0, 0] = (s.setObj Key.tagsHighWater 0, stOk) := by
  obtain ⟨row, hrow, -, hacc, -, hwidth, -, hpermits⟩ := objRow_tagsHighWater
  have hopen : s.scalarOpen c Key.tagsHighWater rkOperator [0, 0, 0, 0] = true := by
    simp only [State.scalarOpen, hrow, hwidth]
    simp [hc, State.permits, leNat, hpermits]
  simp only [State.serveWrite, hrow, hacc, if_pos]
  rw [State.serveScalar_of_open hopen]
  rfl

theorem State.serveWriteFrame_tagsHighWater {s : State} {c : Caller} {r : Req} (hc : rkOperator ≤ c.role.rank)
    (hpiece : s.onePiece r Key.tagsHighWater 0 false [0, 0, 0, 0] = true) :
    s.serveWriteFrame c r 0x3A00 2 0 false [0, 0, 0, 0] = ((s.unstage r Key.tagsHighWater).setObj Key.tagsHighWater 0, stOk) := by
  obtain ⟨row, hrow, -, hacc, -⟩ := objRow_tagsHighWater
  have hkey : 256 * 0x3A00 + 2 = Key.tagsHighWater := rfl
  have hupdate : Key.tagsHighWater ≠ Key.updatePiece := by decide
  simp only [State.serveWriteFrame, State.writeGate_tagsHighWater hc, hkey, State.takeSegment_of_onePiece hpiece,
    State.serveWrite_tagsHighWater hc, hrow, if_neg hupdate]
  simp [hacc]

theorem State.serveWriteNv_of_ok {s : State} {c : Caller} {r : Req} {index sub param offset sec : Nat} {more : Bool}
    {data : List Byte} {row : ObjRow} (h : okNvWrite r index sub param offset more data row sec s c = true) :
    s.serveWriteNv c r index sub param offset more data =
      let t := s.unstage r (256 * index + sub)
      ((t.nvWaitToo sec (256 * index + sub) data).nvCommit (nvSet t.nvRecs sec (256 * index + sub) data), stOk) := by
  simp only [okNvWrite, Bool.and_eq_true, beq_iff_eq, decide_eq_true_eq] at h
  obtain ⟨⟨⟨⟨⟨hgate, hpiece⟩, hrow⟩, hparam⟩, hst⟩, hroom⟩ := h
  simp only [State.serveWriteNv, hgate, hrow, hparam, State.takeSegment_of_onePiece hpiece, hst]
  simp [State.nvStore, Nat.not_lt.mpr hroom]

theorem State.serveWriteSigned_of_gate {s : State} {c : Caller} {r : Req} {index sub : Nat} {value env : List Byte}
    (hlen : env.length = 448) (hgate : s.redrawNonce.writeGate { c with role := .vendor } index sub = stOk) :
    s.serveWriteSigned c r index sub (value ++ env) =
      if envelopeOk Config.dieSerial s.sec.vendorNonce ((256 * index + sub) / 256) ((256 * index + sub) % 256) value env then
        let x := s.redrawNonce.serveWrite { c with role := .vendor } (256 * index + sub) 0 value
        (x.1.noteProgress r (256 * index + sub) x.2, x.2)
      else (s, stSignature) := by
  simp only [State.serveWriteSigned, State.openSigned, List.length_append, hlen, Nat.add_sub_cancel, List.take_left, List.drop_left]
  rw [if_neg (by omega)]
  cases envelopeOk Config.dieSerial s.sec.vendorNonce ((256 * index + sub) / 256) ((256 * index + sub) % 256) value env
  · rfl
  · simp [hgate]

/-! ### Reads, enumerations and subscriptions -/

theorem State.serveRead_of_value {s : State} {c : Caller} {index sub layer offset : Nat} {v : List Byte}
    (hv : s.readValue c index sub layer = .ok v) (hoff : offset ≤ v.length) :
    s.serveRead c index sub layer offset = (s.fresh.2, stOk, (v.drop offset).take 1024, decide (offset + 1024 < v.length)) := by
  simp [State.serveRead, hv, Nat.not_lt.mpr hoff]

theorem State.serveEnumerate_of_operator {s : State} {c : Caller} {index : Nat} (first : Nat) (hc : rkOperator ≤ c.role.rank)
    (hrows : (rowsOf index).isEmpty = false) :
    s.serveEnumerate c index first = (s, stOk,
      ((List.range 256).filterMap (fun k => if k < first then none else (rowAt index k).map (fun w => (k, w)))).flatMap
        (fun e => [BitVec.ofNat 8 e.1, BitVec.ofNat 8 e.2.ty.code, BitVec.ofNat 8 e.2.acc.code, 0]), false) := by
  cases hr : c.role with
  | none => simp [hr, Role.rank, rkOperator] at hc
  | tenant t => simp [hr, Role.rank, rkOperator] at hc
  | operator => simp only [State.serveEnumerate, hr, hrows]; rfl
  | integrator => simp only [State.serveEnumerate, hr, hrows]; rfl
  | vendor => simp only [State.serveEnumerate, hr, hrows]; rfl

theorem State.serveSubscribe_of_ok {s : State} {c : Caller} {data : List Byte} {keys : List Nat} {vs : List (List Byte)}
    (h : okSubscribe data keys vs s c = true) :
    s.serveSubscribe c data
      = (s.addSubscription c (leNat (data.take 4)) keys, stOk, [BitVec.ofNat 8 (freeNumber s.mgmt.subs)], false) := by
  simp only [okSubscribe, Bool.and_eq_true, beq_iff_eq, bne_iff_ne, decide_eq_true_eq] at h
  obtain ⟨⟨⟨⟨⟨⟨⟨⟨⟨⟨hrole, hmin⟩, hmax⟩, hmod⟩, hlo⟩, hhi⟩, hkeys⟩, hvals⟩, hsmall⟩, htotal⟩, hroom⟩ := h
  have hvs : s.entryValues c keys = .ok vs := by
    cases he : s.entryValues c keys with
    | error st => simp [he] at hvals
    | ok ws => simp only [he, beq_iff_eq] at hvals; rw [hvals]
  have hnone : vs.any (fun v => decide (64 < v.length)) = false := by simpa using hsmall
  simp only [State.serveSubscribe, hkeys, hvs, hnone, hmod]
  simp [hrole, Nat.not_lt.mpr hmin, Nat.not_lt.mpr hmax, Nat.not_lt.mpr hlo, Nat.not_lt.mpr hhi, Nat.not_lt.mpr htotal,
    Nat.not_le.mpr hroom]

/-- Settles O57: each operation by what its serving gives. -/
theorem dictionaryComplete : Obligations.DictionaryComplete := by
  unfold Obligations.DictionaryComplete
  refine ⟨fun r index sub param offset v => serves_of (fun _ => rfl) fun s c h => ?read,
    fun r index sub offset more data row => serves_of (fun _ => rfl) fun s c h => ?write,
    fun r => serves_of (fun _ => rfl) fun s c h => ?clears,
    fun r index sub param offset more data row sec => serves_of (fun _ => rfl) fun s c h => ?writeNv,
    fun r index sub value env hlen => serves_of (fun _ => rfl) fun s c h => ?signed,
    fun r index first => serves_of (fun _ => rfl) fun s c h => ?enumerate,
    fun r data keys vs => serves_of (fun _ => rfl) fun s c h => State.serveSubscribe_of_ok h,
    fun r n => serves_of (fun _ => rfl) fun s c h => ?unsubscribe, fun r => serves_of (fun _ => rfl) fun s c h => ?abort,
    fun r => serves_of (fun _ => rfl) fun _ _ _ => rfl,
    fun s r index sub param offset k hon hprox => ⟨fun hkept => ?repeats, fun hkept hcaller => ?closed⟩⟩
  case read =>
    simp only [Bool.and_eq_true, decide_eq_true_eq] at h
    obtain ⟨hval, hoff⟩ := h
    cases hv : s.readValue c index sub param with
    | error st => simp [hv] at hval
    | ok w =>
      obtain rfl : w = v := by simpa [hv] using hval
      exact State.serveRead_of_value hv hoff
  case write => simp only [State.serveWriteFrame_of_plain h]
  case clears =>
    simp only [Bool.and_eq_true, decide_eq_true_eq] at h
    obtain ⟨hrole, hpiece⟩ := h
    simp only [State.serveWriteFrame_tagsHighWater hrole hpiece]
  case writeNv => simp only [State.serveWriteNv_of_ok h]
  case signed =>
    simp only [State.serveWriteSigned_of_gate hlen (beq_iff_eq.mp h)]
    split <;> rfl
  case enumerate =>
    simp only [Bool.and_eq_true, decide_eq_true_eq, Bool.not_eq_true'] at h
    obtain ⟨hrole, hrows⟩ := h
    exact State.serveEnumerate_of_operator first hrole hrows
  case unsubscribe =>
    simp only [Bool.and_eq_true, bne_iff_ne] at h
    obtain ⟨hrole, hmine⟩ := h
    simp only [State.serveUnsubscribe, hmine, if_neg hrole, if_pos]
  case abort => simp only [State.serveAbort, if_neg (bne_iff_ne.mp h)]
  case repeats => simp only [exec, execUoaRead, State.request, hon, hprox, hkept]; rfl
  case closed => simp only [exec, execUoaRead, State.request, hon, hprox, hkept, hcaller]; rfl

end Sys2Proof.Machine
end

section
/-! PROOFS. Statement O58: carried frames, heartbeats, proxied requests, telemetry and the ends of commands that run on. -/

namespace Sys2Proof.Machine

/-- Only the 10BASE-T1S segment counts its frames. -/
@[simp] theorem State.countSegment_guyline (s : State) (module : Nat) : s.countSegment (.guyline module) = s := rfl

/-- A frame of a request that another module carries goes to its worker, or is opened here. -/
theorem State.frameIn_guyline_of_request {s : State} {module : Nat} {frame : List Byte} (hon : s.mcOn = true)
    (hmin : 24 ≤ frame.length) (hflag : bit (frameHead frame).flags 0 = false) (hnotify : (frameHead frame).op ≠ 0x10)
    (hbeat : (frameHead frame).op ≠ 0x11) (hlen : (frameHead frame).length = frame.length) (hmax : frame.length ≤ 1452) :
    s.frameIn (.guyline module) frame =
      if s.isProxied ((frameHead frame).req (.guyline module)) then
        s.proxy ((frameHead frame).req (.guyline module)) (frameHead frame).head frame
      else s.openRequest (.guyline module) (frameHead frame) frame := by
  simp [State.frameIn, hon, Nat.not_lt.mpr hmin, hflag, hnotify, hbeat, hlen, Nat.not_lt.mpr hmax]

/-- A frame that answers a request goes back the request's path. -/
theorem State.frameIn_guyline_of_response {s : State} {module : Nat} {frame : List Byte} (hon : s.mcOn = true)
    (hmin : 24 ≤ frame.length) (hflag : bit (frameHead frame).flags 0 = true) :
    s.frameIn (.guyline module) frame = s.proxyBack module (frameHead frame).requestId frame := by
  simp [State.frameIn, hon, Nat.not_lt.mpr hmin, hflag, pathModule]

/-- Settles O58: each frame and event on the branch that its conditions select. -/
theorem segmentsComplete : Obligations.SegmentsComplete := by
  unfold Obligations.SegmentsComplete
  refine ⟨fun s r index sub => ⟨fun hdue => if_pos hdue, fun hdue => if_neg (Bool.eq_false_iff.mp hdue)⟩,
    fun s index sub st e he hst => ⟨fun hsession => ?notified, fun hsession hgone => ?gone⟩,
    fun s n x hon hx hdue => ⟨?snapshot, ?dropped⟩,
    fun s hon => ⟨fun hdue => ?noBeat, fun hdue hman => ?manager, fun hdue hman hworker hup => ?worker,
      fun hdue hman hworker hup => ?workerDown, fun segment fromManager module node up => ?hears, fun peer hman => ?memberDown,
      fun peer hman hworker hup => ?segmentDown⟩,
    fun s worker id frame x hx => ⟨fun hon hseg => ?response, fun hdue => ?timeout, fun hdue => ?waits⟩,
    fun s module frame hon hmin => ⟨fun hflag => ?back, fun hflag hnotify hbeat hlen hmax => ⟨fun hprox => ?proxied, fun hprox => ?opened⟩⟩⟩
  case notified => simp [exec, execCmdInProgressDone, he, hst, hsession]
  case gone => simp only [exec, execCmdInProgressDone, he, hgone]; simp [hst, hsession]
  case snapshot => simp [exec, execTelemetrySnapshot, hx, hon, Nat.not_lt.mpr hdue]
  case dropped => simp [exec, execTelemetrySnapshot, hx, hon, Nat.not_lt.mpr hdue]
  case noBeat => simp [exec, execHeartbeatSend, hdue]
  case manager => simp [exec, execHeartbeatSend, hon, hdue, hman]
  case worker => simp [exec, execHeartbeatSend, hon, hdue, hman, hworker, hup]
  case workerDown => simp [exec, execHeartbeatSend, hon, hdue, hman, hworker, hup]
  case hears => simp [exec, execUoaHeartbeat, hon]
  case memberDown => simp [exec, execSegmentDown, hon, hman]
  case segmentDown => simp only [exec, execSegmentDown, hon, hman, hworker, hup]; rfl
  case response => simp [exec, execProxyResponse, State.proxyBack, hon, hx, hseg]
  case timeout => simp [exec, execProxyTimeout, hx, Nat.not_lt.mpr hdue]
  case waits => simp [exec, execProxyTimeout, hx, hdue]
  case back => exact congrArg Host.Outcome.next (State.frameIn_guyline_of_response hon hmin hflag)
  case proxied =>
    exact congrArg Host.Outcome.next
      ((State.frameIn_guyline_of_request hon hmin hflag hnotify hbeat hlen hmax).trans (if_pos hprox))
  case opened =>
    exact congrArg Host.Outcome.next
      ((State.frameIn_guyline_of_request hon hmin hflag hnotify hbeat hlen hmax).trans (if_neg (Bool.eq_false_iff.mp hprox)))

end Sys2Proof.Machine
end

section
/-! PROOFS. Statement O59: role keys, the NV image, the calendar, and the commands of an update. -/

namespace Sys2Proof.Machine

section Commands

variable {s : State} {c : Caller} {v : List Byte}

theorem State.doUpdateBegin_of_ok (h : okUpdateBegin s c v = true) :
    s.doUpdateBegin c v = (if s.update.packageLen = leNat (v.take 4) ∧ s.update.target = v.drop 8 then
        s.modUpdate (fun u => { u with st := if u.complete then 2 else 1 })
      else s.modUpdate (fun u => { u with st := 1, packageLen := leNat (v.take 4), target := v.drop 8, pieces := [] }), stOk) := by
  simp only [okUpdateBegin, Bool.and_eq_true, decide_eq_true_eq, beq_iff_eq, bne_iff_ne] at h
  obtain ⟨⟨⟨⟨hmin, hmax⟩, hzero⟩, harmed⟩, htrial⟩ := h
  have hform : (decide (leNat (v.take 4) < 129) || decide (16777216 < leNat (v.take 4)) || leNat ((v.drop 4).take 4) != 0) = false := by
    simp [hzero, Nat.not_lt.mpr hmin, Nat.not_lt.mpr hmax]
  have hidle : (decide (s.update.st = 3) || decide (s.update.st = 4)) = false := by simp [harmed, htrial]
  simp only [State.doUpdateBegin, hform, hidle, Bool.false_eq_true, if_false]
  split <;> rfl

/-- A piece that is in order is taken where it is new, and counted where it is not. -/
theorem State.writePiece_of_ok {offset : Nat} {data : List Byte} (h : (decide (rkOperator ≤ c.role.rank)
    && (s.update.st == 1 || s.update.st == 2) && offset % 1024 == 0 && decide (offset < s.update.packageLen)
    && data.length == s.update.pieceLen (offset / 1024)) = true) :
    s.writePiece offset data = if (tabFind s.update.pieces (offset / 1024)).isSome then (s.bump Key.updateDuplicatePieces, stOk)
      else (((s.modUpdate (fun u =>
        let u1 : Update := { u with pieces := tabSet u.pieces (offset / 1024) data }
        { u1 with st := if u1.complete then 2 else u1.st })).chargeFlash data.length).chargeFlash 2048, stOk) := by
  simp only [Bool.and_eq_true, Bool.or_eq_true, decide_eq_true_eq, beq_iff_eq] at h
  obtain ⟨⟨⟨⟨-, hst⟩, halign⟩, hrange⟩, hlen⟩ := h
  have hst' : ¬ (s.update.st ≠ 1 ∧ s.update.st ≠ 2) := by omega
  simp only [State.writePiece, halign, hlen]
  simp [hst', Nat.not_le.mpr hrange]

/-- UpdateActivate of 1 arms the package, of 2 schedules the reset too. -/
theorem State.doUpdateActivate_of_ready {b : Byte} (hb : b = 1 ∨ b = 2) (hst : s.update.st = 2) :
    s.doUpdateActivate c [b] = (if b = 2 then
        ((s.modUpdate (fun u => { u with st := 3 })).modMgmt (fun m => { m with resetScheduled := true })).mark tmActivate
      else s.modUpdate (fun u => { u with st := 3 }), stOk) := by
  rcases hb with rfl | rfl <;> simp [State.doUpdateActivate, leNat, hst, State.modMgmt]

theorem State.doUpdateCancel_of_ok (h : ([1, 2, 3] : List Nat).contains s.update.st = true) :
    s.doUpdateCancel c v = (s.modUpdate Update.cleared, stOk) :=
  if_pos (by simpa [or_assoc] using h)

theorem State.doRoleKeyInstall_of_ok (h : ((leNat (v.take 1) == 0x80 || leNat (v.take 1) == 0x81)
    && leNat ((v.drop 1).take 3) == 0) = true) :
    s.doRoleKeyInstall c v
      = (s.modSec (fun k => { k with roleKeys := tabSet k.roleKeys (leNat (v.take 1)) (v.drop 4) }), stOk) := by
  simp only [Bool.and_eq_true, Bool.or_eq_true, beq_iff_eq] at h
  obtain ⟨hrole, hzero⟩ := h
  simp only [State.doRoleKeyInstall, hzero]
  rcases hrole with hr | hr <;> simp [hr]

theorem State.writeNvImage_of_ok {rs : List NvRecord} (hparse : nvParse v = some rs)
    (hstore : rs.all (fun x => storable x.key x.section_) = true) (hlen : v.length ≤ 262144) :
    s.writeNvImage v = (s.nvWait v, stOk) := by
  have hall : rs.any (fun r => !storable r.key r.section_) = false := by simpa using hstore
  simp only [State.writeNvImage, hparse, hall]
  simp [Nat.not_lt.mpr hlen]

theorem State.doCalendarSet_of_ok (h : okCalendarSet s c v = true) :
    s.doCalendarSet c v = (s.takeCalendar (leNat v), stOk) := by
  simp only [okCalendarSet, Bool.and_eq_true, Bool.or_eq_true, Bool.not_eq_true', decide_eq_true_eq, beq_iff_eq] at h
  obtain ⟨⟨hparent, hback⟩, hrange⟩ := h
  have hback' : (s.mgmt.calendarValid && decide (leNat v + s.obj Key.calendarMaxBackS < s.calendarNow)) = false := by
    rcases hback with hb | hb
    · simp [hb]
    · simp [Nat.not_lt.mpr hb]
  simp only [State.doCalendarSet, hparent, hback', if_neg (Nat.not_le.mpr hrange)]
  simp

end Commands

/-- Settles O59: each command by what its action does where it is accepted. -/
theorem updateAndManagementComplete : Obligations.UpdateAndManagementComplete := by
  unfold Obligations.UpdateAndManagementComplete
  refine ⟨cmdCompletes_of (fun _ _ _ _ _ => rfl) fun s c v h => State.doUpdateBegin_of_ok h,
    fun r offset data => ⟨serves_of (fun _ => rfl) fun s c h => ?newPiece, serves_of (fun _ => rfl) fun s c h => ?oldPiece⟩,
    cmdCompletes_of (act := State.doUpdateActivate) (fun s r v c h => ?armRuns) fun s c v h => ?arms,
    cmdCompletes_of (act := State.doUpdateActivate) (fun s r v c h => ?resetRuns) fun s c v h => ?resets,
    fun s straps hsched => ⟨fun hdue => ?reset, fun hdue => ?noReset⟩,
    cmdCompletes_of (fun _ _ _ _ _ => rfl) fun s c v h => State.doUpdateCancel_of_ok h,
    fun s hst hon => ⟨fun hdue => ?confirm, fun hdue => ?trial⟩,
    cmdCompletes_of (fun _ _ _ _ _ => rfl) fun s c v h => State.doRoleKeyInstall_of_ok h,
    signedCompletes_of (fun _ _ => rfl) (fun _ _ _ _ => rfl),
    fun r v rs => serves_of (fun _ => rfl) fun s c h => ?image,
    cmdCompletes_of (fun _ _ _ _ _ => rfl) fun s c v h => if_neg (Nat.not_lt.mpr (of_decide_eq_true h)),
    cmdCompletes_of (fun _ _ _ _ _ => rfl) fun s c v h => State.doCalendarSet_of_ok h⟩
  case newPiece =>
    rw [Bool.and_eq_true, Option.isNone_iff_eq_none] at h
    obtain ⟨hok, hnew⟩ := h
    have hrole : rkOperator ≤ c.role.rank := by simp only [Bool.and_eq_true, decide_eq_true_eq] at hok; exact hok.1.1.1.1
    simp only [if_neg (Nat.not_lt.mpr hrole), State.writePiece_of_ok hok, hnew]
    rfl
  case oldPiece =>
    rw [Bool.and_eq_true] at h
    obtain ⟨hok, hold⟩ := h
    have hrole : rkOperator ≤ c.role.rank := by simp only [Bool.and_eq_true, decide_eq_true_eq] at hok; exact hok.1.1.1.1
    simp only [if_neg (Nat.not_lt.mpr hrole), State.writePiece_of_ok hok, if_pos hold]
  case armRuns =>
    obtain ⟨rfl, -⟩ := by simpa only [Bool.and_eq_true, beq_iff_eq] using h
    rfl
  case arms =>
    simp only [Bool.and_eq_true, beq_iff_eq] at h
    obtain ⟨rfl, hst⟩ := h
    exact State.doUpdateActivate_of_ready (.inl rfl) hst
  case resetRuns =>
    obtain ⟨rfl, -⟩ := by simpa only [Bool.and_eq_true, beq_iff_eq] using h
    rfl
  case resets =>
    simp only [Bool.and_eq_true, beq_iff_eq] at h
    obtain ⟨rfl, hst⟩ := h
    exact State.doUpdateActivate_of_ready (.inr rfl) hst
  case reset => simp [exec, execActivateReset, hsched, hdue]
  case noReset => simp [exec, execActivateReset, hdue]
  case confirm => simp [exec, execTrialConfirm, hst, hon, Nat.not_lt.mpr hdue]
  case trial => simp [exec, execTrialConfirm, hdue]
  case image =>
    simp only [Bool.and_eq_true, beq_iff_eq, decide_eq_true_eq] at h
    obtain ⟨⟨⟨hrole, hparse⟩, hstore⟩, hlen⟩ := h
    simp only [if_neg (Nat.not_lt.mpr hrole), State.writeNvImage_of_ok hparse hstore hlen]

end Sys2Proof.Machine
end

section
/-! PROOFS. Statement O60: the host link, doorbells, mailboxes, the window, transfers and registers. -/

namespace Sys2Proof.Machine

/-! ### What the host asks (R828 to R835) -/

section Asks

variable {s : State} {a : HostAsk}

/-- Behind what waits at the crossing the next waits too. -/
theorem State.ask_of_waiting (h : s.host.asks ≠ []) : s.ask a = s.holdAsk a := by
  simp [State.ask, h]

theorem State.ask_of_served {t : State} (h : s.host.asks = []) (ha : s.serveAsk a = (t, true)) : s.ask a = t := by
  simp [State.ask, h, ha]

theorem State.ask_of_held (h : s.host.asks = []) (ha : s.serveAsk a = (s, false)) : s.ask a = s.holdAsk a := by
  simp [State.ask, h, ha]

/-- While the gate holds, requests of the window wait. -/
theorem State.ask_of_hold {base offset len : Nat} {data : List Byte} (h : s.hostGate = .hold ∨ s.host.asks ≠ []) :
    s.ask (.read base offset len) = s.holdAsk (.read base offset len) ∧
    s.ask (.write base offset data) = s.holdAsk (.write base offset data) := by
  by_cases hasks : s.host.asks = []
  · have hgate : s.hostGate = .hold := h.resolve_right (not_not_intro hasks)
    exact ⟨State.ask_of_held hasks (by simp [State.serveAsk, hgate]), State.ask_of_held hasks (by simp [State.serveAsk, hgate])⟩
  · exact ⟨State.ask_of_waiting hasks, State.ask_of_waiting hasks⟩

/-- While the gate refuses, or no pitch is in the window, its requests are refused. -/
theorem State.ask_of_refuse {base offset len : Nat} {data : List Byte} (hasks : s.host.asks = [])
    (h : s.hostGate = .refuse ∨ (s.hostGate = .serve ∧ s.host.winPitch = none)) :
    s.ask (.read base offset len) = s.refuseRead ∧ s.ask (.write base offset data) = s.windowError := by
  rcases h with hgate | ⟨hgate, hpitch⟩
  · exact ⟨State.ask_of_served hasks (by simp [State.serveAsk, hgate]), State.ask_of_served hasks (by simp [State.serveAsk, hgate])⟩
  · exact ⟨State.ask_of_served hasks (by simp [State.serveAsk, hgate, State.serveWindowRead, hpitch]),
      State.ask_of_served hasks (by simp [State.serveAsk, hgate, State.serveWindowWrite, hpitch])⟩

variable {base offset p : Nat} {data : List Byte} {t : State}

theorem State.ask_read_of_served (hgate : s.hostGate = .serve) (hasks : s.host.asks = []) (hp : s.host.winPitch = some p)
    (hcheck : s.hostCheck p s.host.winTenant (base + offset) data.length = none)
    (hread : (s.passTag .hostLink).readState p (base + offset) data.length .host = (t, data, none)) :
    s.ask (.read base offset data.length) = t.completeRead (.data data) :=
  State.ask_of_served hasks (by simp [State.serveAsk, hgate, State.serveWindowRead, hp, hcheck, hread])

theorem State.ask_write_of_served (hgate : s.hostGate = .serve) (hasks : s.host.asks = []) (hp : s.host.winPitch = some p)
    (hcheck : s.hostCheck p s.host.winTenant (base + offset) data.length = none)
    (hwrite : (s.passTag .hostLink).writeState p (base + offset) data .host = (t, none)) :
    s.ask (.write base offset data) = t :=
  State.ask_of_served hasks (by simp [State.serveAsk, hgate, State.serveWindowWrite, hp, hcheck, hwrite])

end Asks

/-- The power doorbell of 4 or 5 begins the entry to STOWED or OFF. -/
theorem State.doPowerState_of_bell {s : State} {c : Caller} {n : Nat} (hn : n = 4 ∨ n = 5) (hidle : s.power.entry = none) :
    (s.doPowerState c (natLe 4 n)).1 = s.startEntry (if n = 4 then .stowed else .off) := by
  rcases hn with rfl | rfl <;> simp [State.doPowerState, natLe, leNat, hidle]

/-- A pitch that its caller may open the window to. -/
theorem State.writeWindowPitch_of_ok {s : State} {c : Caller} {n : Nat} (h : (decide (n < 32) && (if s.sec.confidential then
    c.role == .tenant (tenantOfTag (s.pitch n).tenantTag) && (s.pitch n).st != .free else decide (rkOperator ≤ c.role.rank))) = true) :
    s.writeWindowPitch c n = ((s.setObj Key.windowPitch n).modHost (fun h => { h with
      winStatus := BitVec.ofNat 32 (2 ^ 31 + n)
      winTenant := (s.pitch n).tenantTag }), stOk) := by
  rw [Bool.and_eq_true, decide_eq_true_eq] at h
  obtain ⟨hn, hmay⟩ := h
  have hlive : n ≠ 0xFF := by omega
  simp only [rkOperator] at hmay
  cases hconf : s.sec.confidential with
  | false =>
    simp only [hconf, Bool.false_eq_true, if_false] at hmay
    have hrole : ¬ c.role.rank ≤ 1 := Nat.not_le.mpr (of_decide_eq_true hmay)
    simp [State.writeWindowPitch, hlive, hconf, hrole]
  | true =>
    simp only [hconf, if_true] at hmay
    simp [State.writeWindowPitch, hlive, hconf, hmay]

/-! ### The registers of a core (R180 to R182, R188) -/

/-- The address of a core's register names the cluster, the core and the register. -/
theorem coreAddress (c : CoreRef) {off : Nat} (hoff : off < 0x1000) :
    (0x2000000 + 0x10000 * c.cluster.val + 0x1000 * c.core.val + off - 0x2000000) / 0x10000 = c.cluster.val ∧
    (0x2000000 + 0x10000 * c.cluster.val + 0x1000 * c.core.val + off - 0x2000000) / 0x1000 % 16 = c.core.val ∧
    (0x2000000 + 0x10000 * c.cluster.val + 0x1000 * c.core.val + off) % 0x1000 = off := by
  have hcluster := c.cluster.isLt
  have hcore := c.core.isLt
  omega

theorem State.readDie_core (s : State) (c : CoreRef) {off : Nat} (hoff : off < 0x100) :
    s.readDie (0x2000000 + 0x10000 * c.cluster.val + 0x1000 * c.core.val + off) = s.readCore (coreIndex c) off := by
  obtain ⟨hcluster, hcore, hreg⟩ := coreAddress c (Nat.lt_trans hoff (by decide))
  simp only [State.readDie, hcluster, hcore, hreg, if_pos hoff]
  rfl

theorem State.writeDie_busyM0 (s : State) (c : CoreRef) (v : Word) :
    s.writeDie (0x2000000 + 0x10000 * c.cluster.val + 0x1000 * c.core.val + 0x10) v
      = .next (s.modCore (coreIndex c) (fun k => { k with busyM0 := 0 })) := by
  obtain ⟨hcluster, hcore, hreg⟩ := coreAddress c (off := 0x10) (by decide)
  have hrange : ¬ (0x2000000 + 0x10000 * c.cluster.val + 0x1000 * c.core.val + 0x10 < 0x2000000 ∨ 6 ≤ c.cluster.val
      ∨ 8 ≤ c.core.val) := by
    have := c.cluster.isLt
    have := c.core.isLt
    omega
  simp only [State.writeDie, hcluster, hcore, hreg, if_neg hrange]
  rfl

/-- A bit of eight flags, of which the first four stand at 0 to 3 and the others at 4 to 7. -/
theorem testBit_flags (a0 a1 a2 a3 p0 p1 p2 p3 : Bool) {n : Nat} (hn : n < 4) :
    (0 + flag a0 * 2 ^ 0 + flag p0 * 2 ^ (0 + 4) + flag a1 * 2 ^ 1 + flag p1 * 2 ^ (1 + 4) + flag a2 * 2 ^ 2 + flag p2 * 2 ^ (2 + 4)
      + flag a3 * 2 ^ 3 + flag p3 * 2 ^ (3 + 4)).testBit n = [a0, a1, a2, a3].getD n false := by
  revert a0 a1 a2 a3 p0 p1 p2 p3
  interval_cases n <;> decide

/-- The low four bits of a core's slot register say which slots are assigned. -/
theorem State.testBit_coreSlots (s : State) (c : Nat) {n : Nat} (hn : n < 4) :
    (s.coreSlots c).testBit n = (s.slot (4 * c + n)).assigned := by
  refine (testBit_flags _ _ _ _ _ _ _ _ hn).trans ?_
  interval_cases n <;> rfl

/-- After reset no slot is assigned, and all are free. -/
theorem State.reset_coreSlots (c : Nat) : State.reset.coreSlots c = 0xF0 := by
  have hslot : ∀ i, State.reset.slot i = {} := fun _ => rfl
  simp only [State.coreSlots, hslot]
  rfl

/-! ### The host's registers (R824 to R827) -/

/-- The mailboxes have no other meaning. -/
theorem State.writeBar0_mailbox {s : State} (hlink : s.host.connected = true) {off : Nat} (hlo : 0x10000 ≤ off) (hhi : off < 0x20000)
    (halign : off % 4 = 0) (v : Word) : s.writeBar0 off v = .next (s.writeMailbox (off - 0x10000) v) := by
  have hfault : ¬ 0x4000000 ≤ off := by omega
  have hcontrol : ∀ k, k < 0x10000 → off ≠ k := by omega
  have hbelow : ∀ k, k ≤ 0x10000 → ¬ off < k := by omega
  simp [State.writeBar0, hfault, hlink, halign, hcontrol, hbelow, hhi]

theorem State.readBar0_reserved (s : State) {off : Nat} (hlo : 0x480 ≤ off) (hhi : off < 0x10000) : s.readBar0 off = 0 := by
  have hne : ∀ k, k < 0x480 → off ≠ k := by omega
  have hbelow : ∀ k, k ≤ 0x480 → ¬ off < k := by omega
  simp [State.readBar0, hhi, State.readControl, hne, hbelow]

/-- Settles O60: each access and event on the branch that its conditions select. -/
theorem hostLinkComplete : Obligations.HostLinkComplete := by
  unfold Obligations.HostLinkComplete
  refine ⟨fun s level => ?usb4En, fun s a b hen hisland hlink => ?connects, fun s hst hlink => ?cl2,
    fun s frame hisland => congrArg Host.Outcome.next (if_pos hisland),
    fun s hlink => ⟨fun m len => ⟨fun hmin hmax => ?frame, fun hlen => ?lenError⟩, fun m hq => ?ackEmpty, fun m f rest hq => ?ackNext,
      fun v hv hidle => ?power, fun d => ⟨fun hasks => ?bell, fun hasks => ?bellHeld⟩, fun v => ⟨fun hbase => ?winLo, fun hbase => ?winHi⟩,
      fun offset p data t hgate hasks hp hrange hcheck => ⟨fun hread => ?winRead, fun hwrite => ?winWrite⟩,
      fun offset data hasks hrange hno => ⟨?readRefused, ?writeRefused⟩, fun offset data hheld hrange => ⟨?readHeld, ?writeHeld⟩,
      fun c v => ?prod, fun c bs hostData t hwaits hgate hok hcheck => ⟨fun out hdir hread => ?toHost, fun hdir hlen hwrite => ?fromHost⟩,
      fun off v hlo hhi halign => State.writeBar0_mailbox hlink hlo hhi halign v, fun v => ?evtCons⟩,
    scalarCompletes_of (fun _ _ _ _ _ => rfl) fun s c n h => State.writeWindowPitch_of_ok h,
    fun s c v => s.writeDie_busyM0 c v, fun s v => ⟨rfl, rfl, rfl, rfl, fun off hlo hhi => s.readBar0_reserved hlo hhi⟩,
    fun s c n => ⟨s.readDie_core c (by decide), s.readDie_core c (by decide), s.readDie_core c (by decide), s.readDie_core c (by decide),
      s.readDie_core c (by decide), fun hn => s.testBit_coreSlots _ hn, ?resetSlots⟩,
    fun s off v hoff => if_pos hoff⟩
  case usb4En => cases level <;> rfl
  case connects => simp [exec, execUsb4LinkConnect, hen, hisland, hlink]
  case cl2 => simp [exec, execLinkCl2Request, hst, hlink]
  case frame => simp [exec, execMbReqLen, hlink, Nat.not_lt.mpr hmin, Nat.not_lt.mpr hmax]
  case lenError => simp [exec, execMbReqLen, hlink, hlen]
  case ackEmpty => simp [exec, execMbRespAck, hlink, hq]
  case ackNext => simp [exec, execMbRespAck, hlink, hq]
  case power => simp only [exec, execPwrDoorbell, if_pos hlink, State.doPowerState_of_bell hv hidle]
  case bell => simp only [exec, execDoorbell, if_pos hlink, State.ask_of_served (a := .bell d.val) hasks rfl]; rfl
  case bellHeld => simp only [exec, execDoorbell, if_pos hlink, State.ask_of_waiting hasks]
  case winLo => exact congrArg Host.Outcome.next (if_pos ⟨hlink, hbase⟩)
  case winHi => exact congrArg Host.Outcome.next (if_pos ⟨hlink, hbase⟩)
  case winRead =>
    simp only [exec, execBar2Read, hlink, hrange, Bool.and_self, if_pos, State.ask_read_of_served hgate hasks hp hcheck hread]
  case winWrite =>
    simp only [exec, execBar2Write, hlink, hrange, Bool.and_self, if_pos, State.ask_write_of_served hgate hasks hp hcheck hwrite]
  case readRefused =>
    simp only [exec, execBar2Read, hlink, hrange, Bool.and_self, if_pos, (State.ask_of_refuse (data := data) hasks hno).1]
  case writeRefused =>
    simp only [exec, execBar2Write, hlink, hrange, Bool.and_self, if_pos, (State.ask_of_refuse (len := 0) hasks hno).2]
  case readHeld =>
    simp only [exec, execBar2Read, hlink, hrange, Bool.and_self, if_pos, (State.ask_of_hold (data := data) hheld).1]
  case writeHeld =>
    simp only [exec, execBar2Write, hlink, hrange, Bool.and_self, if_pos, (State.ask_of_hold (len := 0) hheld).2]
  case prod => simp [exec, execDmaProd, hlink]
  case toHost =>
    simp only [exec, execDmaDescriptorDone, hlink, hwaits, hgate, hok, hcheck, hdir, State.runDma, hread]
    simp
  case fromHost =>
    simp only [exec, execDmaDescriptorDone, hlink, hwaits, hgate, hok, hcheck, hdir, State.runDma, hwrite]
    simp [hlen]
  case evtCons =>
    simp [exec, execRegisterWrite, State.writeBar0, hlink, State.writeControl]
  case resetSlots => exact State.reset_coreSlots _

end Sys2Proof.Machine
end

section
/-! PROOFS. Statements O3, O4 and O7: what waits in the command queue. A step takes the front command off the queue before it runs it, and
no operation of the model reads or writes the queue: for each operation one lemma says that it keeps `State.pending`, proved from the
lemmas of the operations it is made of, and for each command that it gives a next state which keeps it (`Goes`). -/

namespace Sys2Proof.Machine

variable {α β : Type}

/-! ### What keeps the queue -/

@[simp] theorem State.ite_pending (c : Prop) [Decidable c] (a b : State) :
    (if c then a else b).pending = if c then a.pending else b.pending := apply_ite State.pending c a b

@[simp] theorem fst_ite_pending (c : Prop) [Decidable c] (a b : State × β) :
    (if c then a else b).1.pending = if c then a.1.pending else b.1.pending := apply_ite (fun p => p.1.pending) c a b

@[simp] theorem work_ite_pending (c : Prop) [Decidable c] (a b : Work) :
    (if c then a else b).s.pending = if c then a.s.pending else b.s.pending := apply_ite (fun p => p.s.pending) c a b

@[simp] theorem foldl_pending {f : State → α → State} (h : ∀ s a, (f s a).pending = s.pending) (l : List α) (s : State) :
    (l.foldl f s).pending = s.pending := foldl_keeps (g := State.pending) h l s

@[simp] theorem foldl_fst_pending {f : State × β → α → State × β} (h : ∀ p a, (f p a).1.pending = p.1.pending) (l : List α)
    (p : State × β) : (l.foldl f p).1.pending = p.1.pending := foldl_keeps (g := fun p => p.1.pending) h l p

/-- What follows from an optional next state that keeps the queue. -/
theorem getD_pending {o : Option State} {s : State} (h : ∀ t, o = some t → t.pending = s.pending) : (o.getD s).pending = s.pending := by
  cases o with
  | none => rfl
  | some t => exact h t rfl

theorem elim_pending {o : Option α} {s : State} {f : α → State} (h : ∀ a, (f a).pending = s.pending) : (o.elim s f).pending = s.pending := by
  cases o with
  | none => rfl
  | some a => exact h a

theorem ite_keeps {c : Prop} [Decidable c] {a b x : α} (ha : a = x) (hb : b = x) : (if c then a else b) = x := by
  split
  · exact ha
  · exact hb

/-- What the state in a result keeps, the state that is read off the result keeps too. -/
theorem fst_pending_of_eq {s t : State} {p : State × β} {b : β} (h : p = (t, b)) (hp : p.1.pending = s.pending) :
    t.pending = s.pending := by rwa [h] at hp

/-- What holds whatever stands in a place holds of what stands there. With it a proof forgets what the decoders of a command compute (its
fields, its operands, its first fault): the command keeps the queue whatever they answer, and the kernel need not evaluate them. -/
theorem for_any {α : Sort*} {motive : α → Prop} (any : ∀ x, motive x) (a : α) : motive a := any a

/-- A command gives a next state in which the same commands wait. -/
def Goes (s : State) (o : Host.Outcome State Fault Refusal) : Prop := ∃ t, o = .next t ∧ t.pending = s.pending

@[simp] theorem goes_next {s t : State} : Goes s (.next t) ↔ t.pending = s.pending :=
  ⟨fun ⟨_, h, ht⟩ => by cases h; exact ht, fun h => ⟨t, rfl, h⟩⟩

@[simp] theorem goes_ite {s : State} (c : Prop) [Decidable c] (a b : Host.Outcome State Fault Refusal) :
    Goes s (if c then a else b) ↔ if c then Goes s a else Goes s b := by split <;> rfl

/-! ### Access -/

@[simp] theorem State.fresh_pending (s : State) : s.fresh.2.pending = s.pending := by simp [State.fresh]

/-! ### Dictionary objects -/

@[simp] theorem State.bump_pending (s : State) (key n : Nat) : (s.bump key n).pending = s.pending := by simp [State.bump]

/-! ### Pegs (R146 to R151, R463 to R468) -/

@[simp] theorem State.setPeg_pending (s : State) (n peg : Nat) (v : Peg) : (s.setPeg n peg v).pending = s.pending := by
  simp [State.setPeg]

@[simp] theorem State.takePeg_pending (s : State) (n peg i amount : Nat) : (s.takePeg n peg i amount).pending = s.pending := by
  simp [State.takePeg]

@[simp] theorem State.donate_pending (s : State) (n peg i : Nat) : (s.donate n peg i).pending = s.pending := by
  simp [State.donate]

@[simp] theorem State.donateAll_pending (s : State) (n : Nat) : (s.donateAll n).pending = s.pending := by simp [State.donateAll]

@[simp] theorem State.endDonations_pending (s : State) (n : Nat) : (s.endDonations n).pending = s.pending := by
  simp [State.endDonations]

@[simp] theorem State.creditTaken_pending (s : State) (i : Nat) : (s.creditTaken i).pending = s.pending := by
  simp [State.creditTaken]

@[simp] theorem State.examine_pending (s : State) (n peg : Nat) : (s.examine n peg).pending = s.pending := by simp [State.examine]

@[simp] theorem State.givePeg_pending (s : State) (name amount : Nat) (by_ : Option Nat) :
    (s.givePeg name amount by_).pending = s.pending := by
  simp [State.givePeg]

@[simp] theorem State.waitPeg_pending (s : State) (n peg i amount : Nat) (keep job : Bool) :
    (s.waitPeg n peg i amount keep job).pending = s.pending := by
  simp [State.waitPeg]

@[simp] theorem State.mark_pending (s : State) (k : Nat) : (s.mark k).pending = s.pending := by simp [State.mark]

@[simp] theorem State.modPower_pending (s : State) (f : Power → Power) : (s.modPower f).pending = s.pending := by
  simp [State.modPower]

@[simp] theorem State.beginReturn_pending (s : State) : s.beginReturn.pending = s.pending := by
  unfold State.beginReturn
  repeat' split
  all_goals simp

@[simp] theorem State.callCluster_pending (s : State) (n : Nat) : (s.callCluster n).pending = s.pending := by
  simp [State.callCluster]

/-! ### Event lines (R41, R42, R153 to R155) -/

@[simp] theorem State.pulse_pending (s : State) (n line : Nat) (only : Option (List Nat)) (src : Nat) :
    (s.pulse n line only src).pending = s.pending := by
  simp [State.pulse]

@[simp] theorem State.systemPulse_pending (s : State) (line : Nat) (pitches : List Nat) :
    (s.systemPulse line pitches).pending = s.pending := by
  simp [State.systemPulse]

/-! ### Shares of a slot (R44, R111, R113, R190) -/

@[simp] theorem State.writeSp_pending (s : State) (i off : Nat) (bs : List Byte) : (s.writeSp i off bs).pending = s.pending := by
  simp [State.writeSp]

@[simp] theorem State.writeAcc_pending (s : State) (i off : Nat) (bs : List Byte) :
    (s.writeAcc i off bs).pending = s.pending := by
  simp [State.writeAcc]

@[simp] theorem State.writeSram_pending (s : State) (n a : Nat) (bs : List Byte) : (s.writeSram n a bs).pending = s.pending := by
  simp [State.writeSram]

/-! ### Engines: claims, pre-emption, completion (R125 to R138) -/

@[simp] theorem State.reassign_pending (s : State) (c : Nat) : (s.reassign c).pending = s.pending := by simp [State.reassign]

@[simp] theorem State.addJob_pending (s : State) (j : Job) : (s.addJob j).pending = s.pending := by simp [State.addJob]

@[simp] theorem State.modJob_pending (s : State) (i : Nat) (e : Engine) (f : Job → Job) :
    (s.modJob i e f).pending = s.pending := by
  simp [State.modJob]

/-! ### Number status (R97 to R99) -/

@[simp] theorem State.meet_pending (s : State) (i : Nat) (m : Met) : (s.meet i m).pending = s.pending := by simp [State.meet]

/-! ### Event records to the host (R830, R831) -/

@[simp] theorem State.tick_pending (s : State) : s.tick.pending = s.pending := by simp [State.tick]

@[simp] theorem State.postNow_pending (s : State) (kind : Nat) (payload : List Byte) :
    (s.postNow kind payload).pending = s.pending := by
  simp [State.postNow]

@[simp] theorem State.postEvent_pending (s : State) (kind : Nat) (payload : List Byte) :
    (s.postEvent kind payload).pending = s.pending := by
  simp [State.postEvent]

@[simp] theorem State.postLate_pending (s : State) : s.postLate.pending = s.pending := by simp [State.postLate]

/-! ### The fault log and the corrected-event windows -/

@[simp] theorem State.logEvent_pending (s : State) (ev : FaultEntry) : (s.logEvent ev).pending = s.pending := by
  simp [State.logEvent]

@[simp] theorem State.countCorrected_pending (s : State) (source location stamp : Nat) :
    (s.countCorrected source location stamp).pending = s.pending := by
  simp [State.countCorrected]

@[simp] theorem State.lpddrFound_pending (s : State) (source cls frame location stamp : Nat) (f : Finding) (pitch : Option Nat) :
    (s.lpddrFound source cls frame location stamp f pitch).pending = s.pending := by
  unfold State.lpddrFound
  split <;> simp

@[simp] theorem State.sramFound_pending (s : State) (kind location source : Nat) (f : Finding) (pitch : Option Nat) (frame : Nat) :
    (s.sramFound kind location source f pitch frame).pending = s.pending := by
  simp only [State.sramFound]
  split <;> simp

@[simp] theorem State.sramPoisonRead_pending (s : State) (n a len pitch : Nat) :
    (s.sramPoisonRead n a len pitch).1.pending = s.pending := by
  unfold State.sramPoisonRead
  split <;> simp

/-! ### Request tags (R38, R224 to R227) -/

theorem State.takeTag_pending {s t : State} {hd : TagHolder} {write flash : Bool} {pitch slot addr n : Nat}
    (h : s.takeTag hd write flash pitch slot addr = some (n, t)) : t.pending = s.pending := by
  simp only [State.takeTag] at h
  split at h <;> cases h
  rfl

@[simp] theorem State.keepTags_pending (s : State) (keep : TagEntry → Bool) : (s.keepTags keep).pending = s.pending := by
  simp [State.keepTags]

@[simp] theorem State.freeTag_pending (s : State) (tag : Nat) : (s.freeTag tag).pending = s.pending := by simp [State.freeTag]

@[simp] theorem State.passTag_pending (s : State) (h : TagHolder) : (s.passTag h).pending = s.pending := by
  unfold State.passTag
  split
  · rfl
  · next h => simpa using State.takeTag_pending h

/-! ### The flash budget (R297, R870) -/

@[simp] theorem State.chargeFlash_pending (s : State) (bytes : Nat) : (s.chargeFlash bytes).pending = s.pending := by
  simp [State.chargeFlash]

@[simp] theorem State.chargeTiles_pending (s : State) (n : Nat) : (s.chargeTiles n).pending = s.pending := by
  simp [State.chargeTiles]

@[simp] theorem State.chargeRecord_pending (s : State) : s.chargeRecord.pending = s.pending := by simp [State.chargeRecord]

/-! ### Flash pages and write streams (R290 to R292) -/

@[simp] theorem State.openStream_pending (s : State) (k : Nat) : (s.openStream k).pending = s.pending := by
  simp [State.openStream]

@[simp] theorem State.placeTile_pending (s : State) (g : Page) (tile : Nat) : (s.placeTile g tile).pending = s.pending := by
  simp only [State.placeTile]
  split <;> simp

@[simp] theorem State.placeTiles_pending (s : State) (g : Page) (tiles : List Nat) :
    (s.placeTiles g tiles).pending = s.pending := by
  simp [State.placeTiles]

@[simp] theorem State.programTile_pending (s : State) (g : Page) (tile : Nat) : (s.programTile g tile).pending = s.pending := by
  simp [State.programTile]

@[simp] theorem State.dropPlaces_pending (s : State) (pages : Nat → Bool) : (s.dropPlaces pages).pending = s.pending := by
  simp [State.dropPlaces]

@[simp] theorem State.programTiles_pending (s : State) (g : Page) (tiles : List Nat) :
    (s.programTiles g tiles).pending = s.pending := by
  simp [State.programTiles]

/-! ### What an access of a page's line found (R646, R650 to R657) -/

@[simp] theorem State.lineFound_pending (s : State) (g : Page) (off source stamp : Nat) (f : Finding) (pitch : Option Nat) :
    (s.lineFound g off source stamp f pitch).pending = s.pending := by
  simp [State.lineFound]

@[simp] theorem State.pagePoisonRead_pending (s : State) (g : Page) (off : Nat) (pitch : Option Nat) (source : Nat) :
    (s.pagePoisonRead g off pitch source).pending = s.pending := by
  simp [State.pagePoisonRead]

@[simp] theorem State.flashRetries_pending (s : State) (g : Page) (tile source : Nat) (readable : Bool) (pitch : Option Nat) :
    (s.flashRetries g tile source readable pitch).pending = s.pending := by
  simp [State.flashRetries]

/-! ### State memory as every requester sees it -/

@[simp] theorem State.modPage_pending (s : State) (id : Nat) (f : Page → Page) : (s.modPage id f).pending = s.pending := by
  simp [State.modPage]

/-! ### KV spans as the tier unit sees them (R323, R328, R338, R374) -/

@[simp] theorem State.loseKv_pending (s : State) (g : Page) : (s.loseKv g).pending = s.pending := by
  unfold State.loseKv
  split <;> simp

/-! ### Migrations (R267 to R281) -/

@[simp] theorem State.startMigration_pending (s : State) (id : Nat) (dest : Tier) (cluster frame : Nat)
    (rekey : Option (Nat × Nat)) : (s.startMigration id dest cluster frame rekey).pending = s.pending := by
  unfold State.startMigration
  split
  · rfl
  · split
    · rfl
    · split
      · rfl
      · next h =>
        have := State.takeTag_pending h
        split
        · split <;> simp_all
        · simpa using this

@[simp] theorem State.countAborts_pending (s : State) (hit : Page → Bool) : (s.countAborts hit).pending = s.pending := by
  simp [State.countAborts]

@[simp] theorem State.abandon_pending (s : State) (id : Nat) : (s.abandon id).pending = s.pending := by simp [State.abandon]

@[simp] theorem State.freePages_pending (s : State) (gone : Page → Bool) : (s.freePages gone).pending = s.pending := by
  simp [State.freePages]

@[simp] theorem State.dropSeq_pending (s : State) (p : Nat) (q : KvSeq) : (s.dropSeq p q).pending = s.pending := by
  simp [State.dropSeq]

@[simp] theorem State.finishDrops_pending (s : State) (p : Nat) : (s.finishDrops p).pending = s.pending := by
  simp [State.finishDrops]

@[simp] theorem State.freePage_pending (s : State) (id : Nat) : (s.freePage id).pending = s.pending := by simp [State.freePage]

@[simp] theorem State.demoteAFor_pending (s : State) (ns : List Nat) (need : Nat) :
    (s.demoteAFor ns need).pending = s.pending := by
  simp [State.demoteAFor]

@[simp] theorem State.drainA_pending (s : State) : s.drainA.pending = s.pending := by simp [State.drainA]

@[simp] theorem State.demoteB_pending (s : State) : s.demoteB.pending = s.pending := by simp [State.demoteB]

@[simp] theorem State.setWantsA_pending (s : State) (id : Nat) (w : Option Requester) :
    (s.setWantsA id w).pending = s.pending := by
  simp [State.setWantsA]

@[simp] theorem State.tryPromoteA_pending (s : State) (g : Page) (rq : Requester) : (s.tryPromoteA g rq).pending = s.pending := by
  unfold State.tryPromoteA
  repeat' split
  all_goals simp

@[simp] theorem State.resumeA_pending (s : State) : s.resumeA.pending = s.pending := by
  refine foldl_pending (fun t o => ?_) _ _
  split
  · exact elim_pending fun _ => by simp
  · rfl

@[simp] theorem State.tryPromoteB_pending (s : State) (g : Page) : (s.tryPromoteB g).pending = s.pending := by
  simp [State.tryPromoteB]

@[simp] theorem State.touch_pending (s : State) (id : Nat) (rq : Requester) : (s.touch id rq).pending = s.pending := by
  simp only [State.touch]
  split <;> simp

/-! ### Moves that pins and exclusions require (R271, R281) -/

@[simp] theorem State.enforcePin_pending (s : State) (id : Nat) : (s.enforcePin id).pending = s.pending := by
  unfold State.enforcePin
  repeat' split
  all_goals simp

@[simp] theorem State.enforceAll_pending (s : State) : s.enforceAll.pending = s.pending := by simp [State.enforceAll]

/-! ### Allocation and free (R252 to R255, R300, R301) -/

@[simp] theorem State.makePage_pending (s : State) (p a sizeLog2 : Nat) (x : Extent) (rq : Requester) (mark : Page → Page) :
    (s.makePage p a sizeLog2 x rq mark).pending = s.pending := by
  simp [State.makePage]

@[simp] theorem State.allocAt_pending (s : State) (p a : Nat) (x : Extent) (rq : Requester) :
    (s.allocAt p a x rq).1.pending = s.pending := by
  simp only [State.allocAt]
  split <;> simp

@[simp] theorem State.allocPage_pending (s : State) (p a sizeLog2 : Nat) (rq : Requester) (mark : Page → Page) :
    (s.allocPage p a sizeLog2 rq mark).1.pending = s.pending := by
  simp only [State.allocPage]
  repeat' split
  all_goals simp [*]

/-! ### Requests (R196, R252, R262, R263, R275, R293, R656 to R659, R706, R714) -/

@[simp] theorem State.readTile_pending (s : State) (p a n : Nat) (rq : Requester) :
    (s.readTile p a n rq).1.pending = s.pending := by
  unfold State.readTile
  repeat' split
  all_goals simp

@[simp] theorem State.readState_pending (s : State) (p a n : Nat) (rq : Requester) :
    (s.readState p a n rq).1.pending = s.pending := by
  refine foldl_fst_pending (fun acc c => ?_) _ _
  split <;> simp

@[simp] theorem State.coverFor_pending (s : State) (p a : Nat) (x : Extent) (rq : Requester) :
    (s.coverFor p a x rq).1.pending = s.pending := by
  simp only [State.coverFor]
  repeat' split
  all_goals simp [*]

@[simp] theorem State.unstall_pending (s : State) (p a : Nat) : (s.unstall p a).pending = s.pending := by simp [State.unstall]

@[simp] theorem State.meetCheckpoint_pending (s : State) (g : Page) (off n : Nat) :
    (s.meetCheckpoint g off n).pending = s.pending := by
  unfold State.meetCheckpoint
  split <;> simp

@[simp] theorem State.commitTile_pending (s : State) (p a : Nat) (g : Page) (bs : List Byte) (rq : Requester) :
    (s.commitTile p a g bs rq).pending = s.pending := by
  simp [State.commitTile]

@[simp] theorem State.writeTile_pending (s : State) (p a : Nat) (bs : List Byte) (rq : Requester) :
    (s.writeTile p a bs rq).1.pending = s.pending := by
  unfold State.writeTile
  split
  · rfl
  · split
    · rfl
    · split
      · rfl
      · next x _ _ =>
        rw [← State.coverFor_pending s p a x rq]
        split
        · simp [*]
        · next h => 
          simp only [h]
          repeat' split
          all_goals simp

@[simp] theorem State.writeState_pending (s : State) (p a : Nat) (bs : List Byte) (rq : Requester) :
    (s.writeState p a bs rq).1.pending = s.pending := by
  refine foldl_fst_pending (fun acc c => ?_) _ _
  split
  · rfl
  · rw [State.writeTile_pending]

@[simp] theorem State.prepare_pending (s : State) (p a : Nat) : (s.prepare p a).pending = s.pending := by
  grind [State.prepare, State.abandon_pending, State.modPage_pending, State.startMigration_pending]

@[simp] theorem State.stallQuota_pending (s : State) (p : Nat) (w : Nat × Waits) : (s.stallQuota p w).pending = s.pending := by
  simp [State.stallQuota]

/-! ### Sending packets -/

@[simp] theorem State.setPort_pending (s : State) (p : Nat) (v : Port) : (s.setPort p v).pending = s.pending := by
  simp [State.setPort]

theorem State.emit?_pending (s : State) (p : Packet) {r : State} (h : s.emit? p = some r) : r.pending = s.pending := by
  grind [State.emit?, State.bump_pending]

/-! ### Injection (R472 to R474, R511) -/

theorem State.inject_pending {s : State} {pitch : Nat} {p : Packet} {t : State} (h : s.inject pitch p = .sent t) :
    t.pending = s.pending := by
  grind [State.inject, State.emit?_pending]

@[simp] theorem State.freeFlits_pending (s : State) : s.freeFlits.pending = s.pending := by simp [State.freeFlits]

@[simp] theorem State.emit_pending (s : State) (p : Packet) : (s.emit p).pending = s.pending := by
  exact getD_pending fun _ h => State.emit?_pending _ _ h

/-! ### Teardown of a pitch -/

@[simp] theorem State.detachFrom_pending (s : State) (id p : Nat) : (s.detachFrom id p).pending = s.pending := by
  simp [State.detachFrom]

@[simp] theorem State.detachSet_pending (s : State) (id : Nat) : (s.detachSet id).pending = s.pending := by simp [State.detachSet]

@[simp] theorem State.detachSets_pending (s : State) (p : Nat) : (s.detachSets p).pending = s.pending := by
  simp [State.detachSets]

@[simp] theorem State.freeDiscard_pending (s : State) (p : Nat) : (s.freeDiscard p).1.pending = s.pending := by
  simp [State.freeDiscard]

@[simp] theorem State.unstallPitch_pending (s : State) (p : Nat) : (s.unstallPitch p).pending = s.pending := by
  simp [State.unstallPitch]

@[simp] theorem State.abandonPegs_pending (s : State) (slots : List Nat) : (s.abandonPegs slots).pending = s.pending := by
  simp [State.abandonPegs]

@[simp] theorem State.scrubShares_pending (s : State) (i : Nat) : (s.scrubShares i).pending = s.pending := by
  simp [State.scrubShares]

@[simp] theorem State.cancelSlots_pending (s : State) (slots : List Nat) : (s.cancelSlots slots).pending = s.pending := by
  refine (foldl_pending (fun t n => ?_) _ _).trans ((foldl_pending (fun t i => ?_) _ _).trans (foldl_pending (fun t i => ?_) _ _))
  · simp
  · simp
  · rfl

@[simp] theorem State.logCoreLine_pending (s : State) (p code detail : Nat) :
    (s.logCoreLine p code detail).pending = s.pending := by
  simp [State.logCoreLine]

@[simp] theorem State.faultPitch_pending (s : State) (p code detail : Nat) (site : FaultSite) :
    (s.faultPitch p code detail site).pending = s.pending := by
  simp only [State.faultPitch]
  split
  · simp
  · split
    · rw [State.detachSets_pending, State.unstallPitch_pending, foldl_pending (fun t i => ?_), State.abandonPegs_pending,
        foldl_pending (fun t i => ?_)]
      · simp
      · rfl
      · simp
    · simp

@[simp] theorem State.faultSlot_pending (s : State) (i : Nat) (f : PitchFault) (opcode cmdPtr : Nat) :
    (s.faultSlot i f opcode cmdPtr).pending = s.pending := by
  simp [State.faultSlot]

/-! ### Raising an event line, with the functions of the module that watch lines -/

@[simp] theorem State.assertWakeOut_pending (s : State) (stage : Nat) : (s.assertWakeOut stage).pending = s.pending := by
  simp [State.assertWakeOut]

@[simp] theorem State.wakeStage_pending (s : State) (stage : Nat) : (s.wakeStage stage).pending = s.pending := by
  simp [State.wakeStage]

@[simp] theorem State.stageAdvance_pending (s : State) (stage : Nat) : (s.stageAdvance stage).pending = s.pending := by
  unfold State.stageAdvance
  split
  · simp
  · split <;> simp

@[simp] theorem State.cascadeTrigger_pending (s : State) (t : Nat) : (s.cascadeTrigger t).pending = s.pending := by
  simp [State.cascadeTrigger]

@[simp] theorem State.endDrop_pending (s : State) (k : Nat) : (s.endDrop k).pending = s.pending := by simp [State.endDrop]

@[simp] theorem State.finishDrop_pending (s : State) (k : Nat) : (s.finishDrop k).pending = s.pending := by
  simp only [State.finishDrop]
  split <;> simp

@[simp] theorem State.settleDrop_pending (s : State) : s.settleDrop.pending = s.pending := by
  unfold State.settleDrop
  split <;> simp

@[simp] theorem State.abandonStage_pending (s : State) (stage : Nat) : (s.abandonStage stage).pending = s.pending := by
  simp [State.abandonStage]

@[simp] theorem State.hostPost_pending (s : State) (p n : Nat) : (s.hostPost p n).pending = s.pending := by simp [State.hostPost]

@[simp] theorem State.releaseInbox_pending (s : State) (i : Nat) : (s.releaseInbox i).pending = s.pending := by
  simp only [State.releaseInbox]
  split <;> simp

@[simp] theorem State.watch_pending (s : State) (n line : Nat) : (s.watch n line).pending = s.pending := by simp [State.watch]

@[simp] theorem State.raiseLine_pending (s : State) (n line src : Nat) : (s.raiseLine n line src).pending = s.pending := by
  simp [State.raiseLine]

@[simp] theorem State.applyOperand_pending (s : State) (i : Nat) (op : Operand) : (s.applyOperand i op).pending = s.pending := by
  simp only [State.applyOperand]
  repeat' split
  all_goals simp [*]

/-! ### Position in the stream (R126, R142) -/

@[simp] theorem State.markIssued_pending (s : State) (i : Nat) : (s.markIssued i).pending = s.pending := by
  simp [State.markIssued]

@[simp] theorem State.advance_pending (s : State) (i : Nat) : (s.advance i).pending = s.pending := by simp [State.advance]

/-! ### The command buffer and the choice among slots (R126 to R128, R142) -/

@[simp] theorem State.holdCommand_pending (s : State) (i opcode n : Nat) (waits : Option (List Engine)) :
    (s.holdCommand i opcode n waits).pending = s.pending := by
  simp [State.holdCommand]

@[simp] theorem State.fetch_pending (s : State) (i opcode n : Nat) : (s.fetch i opcode n).pending = s.pending := by
  simp [State.fetch]

/-! ### Request tags (R38, R224 to R227) -/

@[simp] theorem State.takeTags_pending (s : State) (h : TagHolder) (pitch slot : Nat) (acc : List Nat) (ws : List (Bool × Nat)) :
    (s.takeTags h pitch slot acc ws).2.2.pending = s.pending := by
  induction ws generalizing s acc with
  | nil => rfl
  | cons w ws ih =>
    rw [State.takeTags]
    split
    · rfl
    · next h => rw [ih]; exact State.takeTag_pending h

/-! ### Engine commands -/

@[simp] theorem State.preWait_pending (s : State) (i n : Nat) : (s.preWait i n).1.pending = s.pending := by
  unfold State.preWait
  split <;> simp

@[simp] theorem State.startJob_pending (s : State) (i opcode : Nat) (engines : List Engine) (either : Bool) (n : Nat) (w : Work) :
    (s.startJob i opcode engines either n w).pending = s.pending := by
  simp [State.startJob]

@[simp] theorem State.sendList_pending (s : State) (i : Nat) (xs : List Send) : (s.sendList i xs).1.pending = s.pending := by
  induction xs generalizing s with
  | nil => rfl
  | cons x xs ih =>
    rw [State.sendList]
    split
    · split
      · simp
      · next h =>
        have ht := State.takeTag_pending h
        dsimp only
        split
        · exact ht
        · rfl
        · next hs => exact (ih _).trans ((State.inject_pending hs).trans ht)
    · dsimp only
      split
      · rfl
      · rfl
      · next hs => exact (ih _).trans (State.inject_pending hs)

@[simp] theorem State.pushSends_pending (s : State) (i : Nat) : (s.pushSends i).pending = s.pending := by
  simp only [State.pushSends]
  repeat' split
  all_goals simp [*]

/-! ### Steps (R101, R136, R157, R179) -/

@[simp] theorem State.landStep_pending (s : State) (i : Nat) (t : Step) : (s.landStep i t).pending = s.pending := by
  simp [State.landStep]

theorem State.beginStep?_pending (s : State) (i : Nat) (e : Engine) {r : State} (h : s.beginStep? i e = some r) :
    r.pending = s.pending := by
  simp only [State.beginStep?, Option.bind_eq_some_iff] at h
  obtain ⟨j, -, hj⟩ := h
  split at hj
  · cases hj
  · obtain ⟨r, -, rfl⟩ := Option.map_eq_some_iff.mp hj
    simp

@[simp] theorem State.beginStep_pending (s : State) (i : Nat) (e : Engine) : (s.beginStep i e).pending = s.pending :=
  getD_pending fun _ => State.beginStep?_pending s i e

@[simp] theorem State.beginAll_pending (s : State) (i : Nat) (es : List Engine) : (s.beginAll i es).pending = s.pending := by
  simp [State.beginAll]

@[simp] theorem State.enter_pending (i n opcode : Nat) (engines : List Engine) (either : Bool) (k : Work) :
    (State.enter i n opcode engines either k).pending = k.s.pending := by
  simp [State.enter]

@[simp] theorem State.settleHold_pending (s : State) (p : Nat) (h : Hold) : (s.settleHold p h).pending = s.pending := by
  unfold State.settleHold
  split <;> simp

@[simp] theorem State.fetchPoison_pending (s : State) (i : Nat) : (s.fetchPoison i).1.pending = s.pending := by
  simp [State.fetchPoison]

@[simp] theorem State.issueEngine_pending (s : State) (u : SlotRef) (w : CmdWord) (opcode : Nat) (form : Form)
    (engines : Nat → List Engine × Bool) (work : State → Nat → Nat → Work)
    (hw : ∀ s i d, (work s i d).s.pending = s.pending) : (s.issueEngine u w opcode form engines work).pending = s.pending := by
  simp only [State.issueEngine]
  split
  · rfl
  · split
    · next h => rw [State.faultSlot_pending]; exact fst_pending_of_eq h (s.fetchPoison_pending _)
    · split
      · split <;> simp
      · split
        · simp
        · split
          · simp
          · split
            · simp
            · split
              · simp
              · split
                · simp
                · split
                  · next h => rw [State.holdCommand_pending]; exact fst_pending_of_eq h (by simp)
                  · next s1 h =>
                    have hpre : s1.pending = s.pending := fst_pending_of_eq h (by simp)
                    split
                    · simp [hpre]
                    · split
                      · simp [hw, hpre]
                      · split <;> simp [hw, hpre]

/-! ### Completion (R132, R141, R145, R186, R216) -/

@[simp] theorem State.gateCore_pending (s : State) (c : Nat) : (s.gateCore c).pending = s.pending := by simp [State.gateCore]

@[simp] theorem State.checkComplete_pending (s : State) (p : Nat) : (s.checkComplete p).pending = s.pending := by
  simp [State.checkComplete]

@[simp] theorem State.settle_pending (s : State) (i : Nat) : (s.settle i).pending = s.pending := by
  simp only [State.settle]
  split <;> simp

/-! ### Control commands -/

@[simp] theorem State.control_pending (s : State) (u : SlotRef) (w : CmdWord) (opcode : Nat) (kind : Nat → Bool)
    (fields : List (Nat × Nat)) (act : State → Nat → Nat → State) (hact : ∀ s i n, (act s i n).pending = s.pending) :
    (s.control u w opcode kind fields act).pending = s.pending := by
  grind [State.control, State.fetchPoison_pending, State.faultSlot_pending, State.fetch_pending, State.holdCommand_pending,
    State.advance_pending]

@[simp] theorem State.rejectReserved_pending (s : State) (i : Nat) : (s.rejectReserved i).pending = s.pending := by
  unfold State.rejectReserved
  split <;> simp

@[simp] theorem execNop_goes (u : SlotRef) (w : CmdWord) (s : State) : Goes s (execNop u w s) := by simp [execNop]

@[simp] theorem execWait_goes (u : SlotRef) (w : CmdWord) (s : State) : Goes s (execWait u w s) := by simp [execWait]

@[simp] theorem execSignal_goes (u : SlotRef) (w : CmdWord) (s : State) : Goes s (execSignal u w s) := by simp [execSignal]

@[simp] theorem execPegTake_goes (u : SlotRef) (w : CmdWord) (s : State) : Goes s (execPegTake u w s) := by simp [execPegTake]

@[simp] theorem execPegGive_goes (u : SlotRef) (w : CmdWord) (s : State) : Goes s (execPegGive u w s) := by simp [execPegGive]

@[simp] theorem execPark_goes (u : SlotRef) (w : CmdWord) (s : State) : Goes s (execPark u w s) := by simp [execPark]

@[simp] theorem execLoop_goes (u : SlotRef) (w : CmdWord) (s : State) : Goes s (execLoop u w s) := by simp [execLoop]

@[simp] theorem execBranch_goes (u : SlotRef) (w : CmdWord) (s : State) : Goes s (execBranch u w s) := by simp [execBranch]

@[simp] theorem execFence_goes (u : SlotRef) (w : CmdWord) (s : State) : Goes s (execFence u w s) := by simp [execFence]

@[simp] theorem execEvent_goes (u : SlotRef) (w : CmdWord) (s : State) : Goes s (execEvent u w s) := by simp [execEvent]

@[simp] theorem execSetreg_goes (u : SlotRef) (w : CmdWord) (s : State) : Goes s (execSetreg u w s) := by simp [execSetreg]

@[simp] theorem execAddreg_goes (u : SlotRef) (w : CmdWord) (s : State) : Goes s (execAddreg u w s) := by simp [execAddreg]

@[simp] theorem execPset_goes (u : SlotRef) (w : CmdWord) (s : State) : Goes s (execPset u w s) := by
  simp only [execPset, goes_next]
  refine State.control_pending _ _ _ _ _ _ _ fun t i n => ?_
  split
  · simp
  · split <;> simp

@[simp] theorem State.latchTime_pending (s : State) (i : Nat) : (s.latchTime i).pending = s.pending := by simp [State.latchTime]

@[simp] theorem execSlotRd_goes (u : SlotRef) (w : CmdWord) (s : State) : Goes s (execSlotRd u w s) := by simp [execSlotRd]

@[simp] theorem execSlotWr_goes (u : SlotRef) (w : CmdWord) (s : State) : Goes s (execSlotWr u w s) := by simp [execSlotWr]

@[simp] theorem execStop_goes (u : SlotRef) (w : CmdWord) (s : State) : Goes s (execStop u w s) := by simp [execStop]

/-! ### Steps of engines and cluster controllers -/

@[simp] theorem execDivApply_goes (cr : CoreRef) (s : State) : Goes s (execDivApply cr s) := by
  simp only [execDivApply]
  split <;> simp

@[simp] theorem execDonationQuantumExpiry_goes (cluster : Fin 6) (peg : Nat) (s : State) :
    Goes s (execDonationQuantumExpiry cluster peg s) := by
  simp [execDonationQuantumExpiry]

@[simp] theorem State.pulseSlot_pending (s : State) (i line : Nat) : (s.pulseSlot i line).pending = s.pending := by
  simp only [State.pulseSlot]
  repeat' split
  all_goals simp [*]

@[simp] theorem State.pulseChain_pending (s : State) (i line : Nat) : (s.pulseChain i line).pending = s.pending := by
  simp [State.pulseChain]

@[simp] theorem State.pulseForward_pending (s : State) (n line : Nat) : (s.pulseForward n line).pending = s.pending := by
  simp only [State.pulseForward]
  split <;> simp

@[simp] theorem execEventPulseArrive_goes (cluster : Fin 6) (line : Nat) (s : State) :
    Goes s (execEventPulseArrive cluster line s) := by
  simp only [execEventPulseArrive]
  split
  · simp
  · split
    · simp
    · rw [goes_next, State.ite_pending, State.bump_pending, ite_self, State.ite_pending, State.pulseForward_pending, ite_self,
        foldl_pending (fun t r => ?_)]
      · rfl
      · split <;> simp

@[simp] theorem execSlotWake_goes (u : SlotRef) (s : State) : Goes s (execSlotWake u s) := by simp [execSlotWake]

@[simp] theorem State.runWatchdogs_pending (s : State) (ns : Nat) : (s.runWatchdogs ns).pending = s.pending := by
  simp [State.runWatchdogs]

@[simp] theorem execWatchdogExpiry_goes (u : SlotRef) (s : State) : Goes s (execWatchdogExpiry u s) := by
  simp [execWatchdogExpiry]

/-! ### Registers (R180 to R192) -/

@[simp] theorem State.requestDiv_pending (s : State) (c : Nat) : (s.requestDiv c).pending = s.pending := by
  simp [State.requestDiv]

@[simp] theorem execCoreModeWrite_goes (cr : CoreRef) (value : Word) (s : State) : Goes s (execCoreModeWrite cr value s) := by
  simp [execCoreModeWrite]

@[simp] theorem execFtimeLoRead_goes (u : SlotRef) (s : State) : Goes s (execFtimeLoRead u s) := by simp [execFtimeLoRead]

/-! ### Operand, stride and scale words, and the reads and writes of operands in a slot's shares -/

@[simp] theorem State.writeSpace_pending (s : State) (i : Nat) (inAcc : Bool) (off : Nat) (bs : List Byte) :
    (s.writeSpace i inAcc off bs).pending = s.pending := by
  simp [State.writeSpace]

@[simp] theorem State.storeRow_pending (s : State) (i : Nat) (o : Opnd) (r : Nat) (xs : List Word) :
    (s.storeRow i o r xs).1.pending = s.pending := by
  simp [State.storeRow]

/-! ### Locations (R194 to R196) -/

@[simp] theorem State.readLoc_pending (s : State) (i : Nat) (l : Loc) (n : Nat) : (s.readLoc i l n).1.pending = s.pending := by
  grind [State.readLoc, State.sramPoisonRead_pending, State.callCluster_pending, State.readState_pending]

@[simp] theorem State.writeLoc_pending (s : State) (i : Nat) (l : Loc) (bs : List Byte) :
    (s.writeLoc i l bs).1.pending = s.pending := by
  unfold State.writeLoc
  split
  · simp
  · split <;> simp

/-! ### Packets (R206, R210, R211) -/

@[simp] theorem State.formPacket_pending (s : State) (i : Nat) (m : Move) : (s.formPacket i m).1.s.pending = s.pending := by
  simp only [State.formPacket]
  split
  · rfl
  · split
    · rfl
    · refine foldl_keeps (g := fun p : Moved × List Piece => p.1.s.pending) (fun acc r => ?_) _ _
      split
      · rfl
      · split <;> simp

@[simp] theorem State.landPieces_pending (s : State) (i : Nat) (ps : List Piece) : (s.landPieces i ps).s.pending = s.pending := by
  simp only [State.landPieces]
  split
  · rfl
  · refine foldl_keeps (g := fun m : Moved => m.s.pending) (fun m d => ?_) _ _
    split
    · rfl
    · split
      · next h => exact fst_pending_of_eq h (by simp)
      · rfl
      · rfl

/-! ### Descriptors (R197 to R203) -/

@[simp] theorem State.xPlan_pending (s : State) (i d op : Nat) (srcStep dstStep : Int) :
    (s.xPlan i d op srcStep dstStep).s.pending = s.pending := by
  unfold State.xPlan
  split <;> simp

@[simp] theorem State.xWork_pending (op : Nat) (s : State) (i d : Nat) : (State.xWork op s i d).s.pending = s.pending := by
  simp [State.xWork]

@[simp] theorem State.xfillWork_pending (s : State) (i d : Nat) : (s.xfillWork i d).s.pending = s.pending := by
  simp [State.xfillWork]

/-! ### Sensor queue reads (R235 to R239) -/

@[simp] theorem State.claimPacket_pending (s : State) (i q : Nat) (p : QPacket) : (s.claimPacket i q p).pending = s.pending := by
  simp [State.claimPacket]

@[simp] theorem State.freePacket_pending (s : State) (q seq : Nat) : (s.freePacket q seq).pending = s.pending := by
  simp [State.freePacket]

@[simp] theorem State.qreadWork_pending (s : State) (i d : Nat) (dstStep : Int) :
    (s.qreadWork i d dstStep).s.pending = s.pending := by
  simp only [State.qreadWork]
  split <;> simp

@[simp] theorem State.xqreadWork_pending (s : State) (i d : Nat) : (s.xqreadWork i d).s.pending = s.pending := by
  simp [State.xqreadWork]

@[simp] theorem State.jobRequests_pending (s : State) (j : Job) (reads writes : List Nat) :
    (s.jobRequests j reads writes).1.pending = s.pending := by
  simp [State.jobRequests]

@[simp] theorem State.putXfr_pending (s : State) (j : Job) : (s.putXfr j).pending = s.pending := by simp [State.putXfr]

@[simp] theorem State.wakeReader_pending (s : State) (q i : Nat) : (s.wakeReader q i).pending = s.pending := by
  simp [State.wakeReader]

@[simp] theorem State.serveQueue_pending (s : State) (q : Nat) : (s.serveQueue q).pending = s.pending := by
  simp [State.serveQueue]

/-! ### A command's packets, one by one (R134, R210, R211, R217) -/

@[simp] theorem State.raiseAll_pending (s : State) (i : Nat) (lines : List Nat) : (s.raiseAll i lines).pending = s.pending := by
  simp [State.raiseAll]

@[simp] theorem State.endChainEntry_pending (s : State) (i : Nat) : (s.endChainEntry i).pending = s.pending := by
  unfold State.endChainEntry
  split <;> simp

@[simp] theorem State.endClaim_pending (s : State) (j : Job) : (s.endClaim j).pending = s.pending := by
  unfold State.endClaim
  repeat' split
  all_goals simp

@[simp] theorem State.landFlight_pending (s : State) (j : Job) : (s.landFlight j).pending = s.pending := by
  simp only [State.landFlight]
  split <;> simp

@[simp] theorem State.formNext_pending (s : State) (j : Job) (m : Move) : (s.formNext j m).pending = s.pending := by
  simp only [State.formNext]
  split <;> simp

@[simp] theorem State.claimNext_pending (s : State) (j : Job) (r : QRead) : (s.claimNext j r).pending = s.pending := by
  simp only [State.claimNext]
  split <;> simp

theorem State.pushMove?_pending (s : State) (i : Nat) {r : State} (h : s.pushMove? i = some r) : r.pending = s.pending := by
  simp only [State.pushMove?, Option.bind_eq_some_iff] at h
  obtain ⟨j, -, hj⟩ := h
  repeat' split at hj
  all_goals cases hj
  all_goals simp

@[simp] theorem State.pushMove_pending (s : State) (i : Nat) : (s.pushMove i).pending = s.pending :=
  getD_pending fun _ => State.pushMove?_pending s i

@[simp] theorem State.runMoves_pending (i n : Nat) (s : State) : (State.runMoves i n s).pending = s.pending := by
  induction n generalizing s with
  | zero => rfl
  | succ n ih =>
    rw [State.runMoves]
    split
    · rfl
    · next t ht =>
      split
      · rfl
      · exact (ih t).trans (State.pushMove?_pending s i ht)

@[simp] theorem State.issueMove_pending (s : State) (u : SlotRef) (w : CmdWord) (opcode : Nat) (form : Form)
    (work : State → Nat → Nat → Work) (hw : ∀ s i d, (work s i d).s.pending = s.pending) :
    (s.issueMove u w opcode form work).pending = s.pending := by
  simp only [State.issueMove]
  repeat' split
  all_goals simp [*]

@[simp] theorem execXcopy_goes (u : SlotRef) (w : CmdWord) (s : State) : Goes s (execXcopy u w s) := by simp [execXcopy]

@[simp] theorem execXgather_goes (u : SlotRef) (w : CmdWord) (s : State) : Goes s (execXgather u w s) := by simp [execXgather]

@[simp] theorem execXscatter_goes (u : SlotRef) (w : CmdWord) (s : State) : Goes s (execXscatter u w s) := by simp [execXscatter]

@[simp] theorem execXfill_goes (u : SlotRef) (w : CmdWord) (s : State) : Goes s (execXfill u w s) := by simp [execXfill]

@[simp] theorem execXqread_goes (u : SlotRef) (w : CmdWord) (s : State) : Goes s (execXqread u w s) := by simp [execXqread]

@[simp] theorem State.flushQueue_pending (s : State) (q : Nat) : (s.flushQueue q).pending = s.pending := by
  simp [State.flushQueue]

@[simp] theorem State.xqflushWork_pending (s : State) (i d : Nat) : (s.xqflushWork i d).s.pending = s.pending := by
  simp [State.xqflushWork]

@[simp] theorem execXqflush_goes (u : SlotRef) (w : CmdWord) (s : State) : Goes s (execXqflush u w s) := by simp [execXqflush]

/-! ### Chains (R220 to R223) -/

@[simp] theorem State.xchainWork_pending (s : State) (i d : Nat) : (s.xchainWork i d).s.pending = s.pending := by
  simp [State.xchainWork]

@[simp] theorem execXchain_goes (u : SlotRef) (w : CmdWord) (s : State) : Goes s (execXchain u w s) := by simp [execXchain]

@[simp] theorem State.entryWork_pending (s : State) (i d : Nat) (c : Chain) : (s.entryWork i d c).s.pending = s.pending := by
  simp [State.entryWork]

@[simp] theorem State.startChainEntry_pending (s : State) (j : Job) (c : Chain) :
    (s.startChainEntry j c).pending = s.pending := by
  simp only [State.startChainEntry]
  repeat' split
  all_goals simp [*]

@[simp] theorem execXchainEntryStart_goes (u : SlotRef) (s : State) : Goes s (execXchainEntryStart u s) := by
  simp only [execXchainEntryStart]
  repeat' split
  all_goals simp [*]

/-! ### Frames (R782, R783, R827) -/

@[simp] theorem State.mailboxOut_pending (s : State) (m : Nat) (frame : List Byte) :
    (s.mailboxOut m frame).pending = s.pending := by
  simp [State.mailboxOut]

@[simp] theorem State.sendOn_pending (s : State) (path : Path) (frame : List Byte) :
    (s.sendOn path frame).pending = s.pending := by
  unfold State.sendOn
  split <;> simp

@[simp] theorem State.makeFrame_pending (s : State) (session flags requestId target op status index sub param offset : Nat)
    (data : List Byte) :
    (s.makeFrame session flags requestId target op status index sub param offset data).1.pending = s.pending := by
  unfold State.makeFrame
  split <;> simp

@[simp] theorem State.answerPlain_pending (s : State) (r : Req) (h : Head) (status : Nat) :
    (s.answerPlain r h status).pending = s.pending := by
  simp [State.answerPlain]

@[simp] theorem State.answer_pending (s : State) (r : Req) (h : Head) (status : Nat) (data : List Byte) (more : Bool) :
    (s.answer r h status data more).pending = s.pending := by
  simp [State.answer]

/-! ### Proxying (R790, R793, R794) -/

@[simp] theorem State.proxy_pending (s : State) (r : Req) (h : Head) (frame : List Byte) :
    (s.proxy r h frame).pending = s.pending := by
  simp only [State.proxy]
  split
  · simp
  · split
    · simp
    · split
      · simp
      · split
        · simp
        · split
          · next h => exact (State.emit?_pending _ _ h).trans rfl
          · simp

/-! ### Requests -/

@[simp] theorem served_pending (s : State) (status : Nat) : (served s status).1.pending = s.pending := by simp [served]

@[simp] theorem State.countSegment_pending (s : State) (path : Path) : (s.countSegment path).pending = s.pending := by
  unfold State.countSegment
  split <;> simp

@[simp] theorem State.request_pending (s0 : State) (r : Req) (h : Head) (data : List Byte) (serve : State → Caller → Served)
    (hserve : ∀ s c, (serve s c).1.pending = s.pending) : (s0.request r h data serve).pending = s0.pending := by
  simp only [State.request]
  repeat' split
  all_goals simp [*]

@[simp] theorem State.serveCmd_pending (s : State) (c : Caller) (key min : Nat) (v : List Byte) (act : CmdAct)
    (hact : ∀ s c v, (act s c v).1.pending = s.pending) : (s.serveCmd c key min v act).1.pending = s.pending := by
  simp only [State.serveCmd]
  repeat' split
  all_goals simp [*]

@[simp] theorem State.noteProgress_pending (s : State) (r : Req) (key status : Nat) :
    (s.noteProgress r key status).pending = s.pending := by
  simp [State.noteProgress]

@[simp] theorem State.runCmd_pending (s : State) (r : Req) (key min : Nat) (v : List Byte) (act : CmdAct)
    (hact : ∀ s c v, (act s c v).1.pending = s.pending) : (s.runCmd r key min v act).pending = s.pending := by
  simp [State.runCmd, hact]

@[simp] theorem State.serveScalar_pending (s : State) (c : Caller) (key min : Nat) (v : List Byte)
    (act : State → Caller → Nat → State × Nat) (hact : ∀ s c v, (act s c v).1.pending = s.pending) :
    (s.serveScalar c key min v act).1.pending = s.pending := by
  simp only [State.serveScalar]
  repeat' split
  all_goals simp [*]

@[simp] theorem State.runScalar_pending (s : State) (r : Req) (key min : Nat) (v : List Byte)
    (act : State → Caller → Nat → State × Nat) (hact : ∀ s c v, (act s c v).1.pending = s.pending) :
    (s.runScalar r key min v act).pending = s.pending := by
  simp [State.runScalar, hact]

/-! ### Vendor-signed writes (R774) -/

@[simp] theorem State.redrawNonce_pending (s : State) : s.redrawNonce.pending = s.pending := by simp [State.redrawNonce]

theorem State.openSigned_pending {s : State} {key : Nat} {bytes v : List Byte} {t : State}
    (h : s.openSigned key bytes = .ok (t, v)) : t.pending = s.pending := by
  grind [State.openSigned, State.redrawNonce_pending]

@[simp] theorem State.serveSigned_pending (s : State) (c : Caller) (key : Nat) (bytes : List Byte) (act : CmdAct)
    (hact : ∀ s c v, (act s c v).1.pending = s.pending) : (s.serveSigned c key bytes act).1.pending = s.pending := by
  grind [State.serveSigned, State.openSigned_pending, State.serveCmd_pending]

@[simp] theorem State.runSigned_pending (s : State) (r : Req) (key : Nat) (bytes : List Byte) (act : CmdAct)
    (hact : ∀ s c v, (act s c v).1.pending = s.pending) : (s.runSigned r key bytes act).pending = s.pending := by
  simp [State.runSigned, hact]

@[simp] theorem State.notify_pending (s : State) (path : Path) (session requestId param status index sub : Nat)
    (data : List Byte) : (s.notify path session requestId param status index sub data).pending = s.pending := by
  simp [State.notify]

/-! ### The returns of requests to state memory -/

@[simp] theorem State.serveCoreTags_pending (s : State) (c : Nat) : (s.serveCoreTags c).pending = s.pending := by
  refine foldl_pending (fun t j => ?_) _ _
  split
  · split <;> simp
  · rfl

@[simp] theorem State.serveTags_pending (s : State) : s.serveTags.pending = s.pending := by simp [State.serveTags]

@[simp] theorem State.returnTag_pending (s : State) (j : Job) (tag : Nat) : (s.returnTag j tag).pending = s.pending := by
  unfold State.returnTag
  split <;> simp

@[simp] theorem State.afterReturn_pending (s : State) (j : Job) : (s.afterReturn j).pending = s.pending := by
  simp only [State.afterReturn]
  split <;> simp

@[simp] theorem State.poisonAt_pending (s : State) (g : Page) (off : Nat) : (s.poisonAt g off).pending = s.pending := by
  simp [State.poisonAt]

@[simp] theorem State.flashFail_pending (s : State) (g : Page) (t : Nat) : (s.flashFail g t).pending = s.pending := by
  simp [State.flashFail]

@[simp] theorem execQuotaStallTimeout_goes (pitch : Nat) (s : State) : Goes s (execQuotaStallTimeout pitch s) := by
  simp only [execQuotaStallTimeout]
  repeat' split
  all_goals simp [*]

/-! ### Producing (R231 to R234) -/

@[simp] theorem State.startPacket_pending (s : State) (q : Nat) : (s.startPacket q).1.pending = s.pending := by
  unfold State.startPacket
  repeat' split
  all_goals simp

@[simp] theorem State.putPayload_pending (s : State) (q k off : Nat) (bs : List Byte) :
    (s.putPayload q k off bs).pending = s.pending := by
  simp [State.putPayload]

@[simp] theorem State.packetBoundary_pending (s : State) (q : Nat) : (s.packetBoundary q).pending = s.pending := by
  simp [State.packetBoundary]

@[simp] theorem State.serveReaders_pending (s : State) (q : Nat) : (s.serveReaders q).pending = s.pending := by
  unfold State.serveReaders
  rw [foldl_pending State.pushMove_pending, State.serveQueue_pending]

@[simp] theorem State.endPacket_pending (s : State) (q k : Nat) : (s.endPacket q k).pending = s.pending := by
  simp [State.endPacket]

@[simp] theorem State.commitPacket_pending (s : State) (src q k stamp prodFlags length : Nat) :
    (s.commitPacket src q k stamp prodFlags length).pending = s.pending := by
  simp [State.commitPacket]

@[simp] theorem State.rewindPacket_pending (s : State) (q k : Nat) : (s.rewindPacket q k).pending = s.pending := by
  simp [State.rewindPacket]

@[simp] theorem State.burstPacket_pending (s : State) (src q stamp prodFlags : Nat) (payload : List Byte) :
    (s.burstPacket src q stamp prodFlags payload).pending = s.pending := by
  grind [State.burstPacket, State.startPacket_pending, State.commitPacket_pending, State.putPayload_pending]

/-! ### Objects and events -/

@[simp] theorem State.disableQueue_pending (s : State) (q : Nat) : (s.disableQueue q).pending = s.pending := by
  simp [State.disableQueue]

@[simp] theorem State.enableQueue_pending (s : State) (q : Nat) : (s.enableQueue q).pending = s.pending := by
  simp [State.enableQueue]

@[simp] theorem State.writeQueueEnable_pending (q : Nat) (s : State) (c : Caller) (v : Nat) :
    (State.writeQueueEnable q s c v).1.pending = s.pending := by
  simp [State.writeQueueEnable]

@[simp] theorem execQueueEnable_goes (r : Req) (queue : Fin 32) (s : State) : Goes s (execQueueEnable r queue s) := by
  simp [execQueueEnable]

@[simp] theorem execQueueDisable_goes (r : Req) (queue : Fin 32) (s : State) : Goes s (execQueueDisable r queue s) := by
  simp [execQueueDisable]

@[simp] theorem execQueueFlushEffect_goes (queue : Fin 32) (s : State) : Goes s (execQueueFlushEffect queue s) := by
  simp [execQueueFlushEffect]

@[simp] theorem execStaleTailNotice_goes (queue : Fin 32) (s : State) : Goes s (execStaleTailNotice queue s) := by
  simp [execStaleTailNotice]

/-! ### The matrix engine -/

@[simp] theorem State.mmaWork_pending (s : State) (i d : Nat) : (s.mmaWork i d).s.pending = s.pending := by
  generalize hf : @State.mmaWork = f
  delta State.mmaWork at hf
  subst hf
  induction @firstFault using for_any with | any f0
  induction @field using for_any with | any f1
  induction @Slot.opnd using for_any with | any f2
  dsimp only
  repeat' split
  all_goals simp

@[simp] theorem execMma_goes (u : SlotRef) (w : CmdWord) (s : State) : Goes s (execMma u w s) := by
  simp [execMma, State.issueEngine_pending]

@[simp] theorem State.accZeroWork_pending (s : State) (i d : Nat) : (s.accZeroWork i d).s.pending = s.pending := by
  simp only [State.accZeroWork]
  repeat' split
  all_goals simp [*]

@[simp] theorem execAccZero_goes (u : SlotRef) (w : CmdWord) (s : State) : Goes s (execAccZero u w s) := by simp [execAccZero]

@[simp] theorem State.accMoveWork_pending (s : State) (i d : Nat) : (s.accMoveWork i d).s.pending = s.pending := by
  simp only [State.accMoveWork]
  repeat' split
  all_goals simp [*]

@[simp] theorem execAccMove_goes (u : SlotRef) (w : CmdWord) (s : State) : Goes s (execAccMove u w s) := by simp [execAccMove]

/-! ### The memory tier unit and the flash controller -/

@[simp] theorem State.relocate_pending (s : State) (id : Nat) : (s.relocate id).pending = s.pending := by
  unfold State.relocate
  repeat' split
  all_goals simp

/-! ### Extents (R249, R250) -/

@[simp] theorem State.addExtent_pending (s : State) (p : Nat) (x : Extent) : (s.addExtent p x).pending = s.pending := by
  simp [State.addExtent]

@[simp] theorem State.doExtentDefine_pending (s : State) (c : Caller) (v : List Byte) :
    (s.doExtentDefine c v).1.pending = s.pending := by
  simp [State.doExtentDefine]

@[simp] theorem execExtentDefine_goes (r : Req) (v : List Byte) (s : State) : Goes s (execExtentDefine r v s) := by
  simp [execExtentDefine]

@[simp] theorem State.removeExtent_pending (s : State) (p : Nat) (x : Extent) : (s.removeExtent p x).pending = s.pending := by
  simp [State.removeExtent]

@[simp] theorem State.doExtentRemove_pending (s : State) (c : Caller) (v : List Byte) :
    (s.doExtentRemove c v).1.pending = s.pending := by
  simp only [State.doExtentRemove]
  repeat' split
  all_goals simp [*]

@[simp] theorem execExtentRemove_goes (r : Req) (v : List Byte) (s : State) : Goes s (execExtentRemove r v s) := by
  simp [execExtentRemove]

@[simp] theorem State.pinPages_pending (s : State) (p a n pin excl : Nat) : (s.pinPages p a n pin excl).pending = s.pending := by
  simp [State.pinPages]

@[simp] theorem State.doPagePin_pending (s : State) (c : Caller) (v : List Byte) : (s.doPagePin c v).1.pending = s.pending := by
  simp [State.doPagePin]

@[simp] theorem execPagePin_goes (r : Req) (v : List Byte) (s : State) : Goes s (execPagePin r v s) := by simp [execPagePin]

@[simp] theorem State.doPageFree_pending (s : State) (c : Caller) (v : List Byte) :
    (s.doPageFree c v).1.pending = s.pending := by
  simp [State.doPageFree]

@[simp] theorem execPageFree_goes (r : Req) (v : List Byte) (s : State) : Goes s (execPageFree r v s) := by simp [execPageFree]

/-! ### Heat and migration (R266 to R281) -/

@[simp] theorem State.halveHeat_pending (s : State) (bc : Bool) : (s.halveHeat bc).pending = s.pending := by
  simp [State.halveHeat]

@[simp] theorem execHeatHalving_goes (bc : Bool) (s : State) : Goes s (execHeatHalving bc s) := by simp [execHeatHalving]

@[simp] theorem State.release_pending (s : State) (g : Page) (cluster : Option Nat) (frame : Nat) :
    (s.release g cluster frame).pending = s.pending := by
  simp [State.release]

@[simp] theorem State.switchPage_pending (s : State) (g : Page) (m : Migration) : (s.switchPage g m).pending = s.pending := by
  unfold State.switchPage
  split <;> simp

@[simp] theorem State.stepMove_pending (s : State) (g : Page) (m : Migration) : (s.stepMove g m).pending = s.pending := by
  unfold State.stepMove
  split <;> simp

@[simp] theorem State.stepDown_pending (s : State) (g : Page) (m : Migration) : (s.stepDown g m).pending = s.pending := by
  unfold State.stepDown
  split <;> simp

@[simp] theorem State.stepRekey_pending (s : State) (g : Page) (m : Migration) (k : Nat × Nat) :
    (s.stepRekey g m k).pending = s.pending := by
  unfold State.stepRekey
  split <;> simp

@[simp] theorem State.stepMigration_pending (s : State) (page : Nat) : (s.stepMigration page).pending = s.pending := by
  unfold State.stepMigration
  split
  · rfl
  · split
    · rfl
    · split
      · simp
      · split
        · split
          · exact elim_pending fun _ => by simp
          · rfl
        · split <;> simp

@[simp] theorem State.sweep_pending (s : State) : s.sweep.pending = s.pending := by
  refine foldl_pending (fun t e => foldl_pending (fun t g => ?_) _ _) _ _
  split
  · simp
  · split <;> simp

@[simp] theorem State.afterStep_pending (s : State) (page : Nat) : (s.afterStep page).pending = s.pending := by
  simp [State.afterStep]

@[simp] theorem execMigrationSwitch_goes (page : Nat) (s : State) : Goes s (execMigrationSwitch page s) := by
  simp [execMigrationSwitch]

@[simp] theorem execPromotionTileArrive_goes (page tile : Nat) (readable : Bool) (s : State) :
    Goes s (execPromotionTileArrive page tile readable s) := by
  unfold execPromotionTileArrive
  split <;> simp

/-! ### State sets and checkpoints (R304 to R312, R376, R377) -/

@[simp] theorem State.modSet_pending (s : State) (id : Nat) (f : StateSet → StateSet) : (s.modSet id f).pending = s.pending := by
  simp [State.modSet]

@[simp] theorem State.startCheckpoint_pending (s : State) (id : Nat) (commanded : Bool) :
    (s.startCheckpoint id commanded).pending = s.pending := by
  unfold State.startCheckpoint
  split <;> simp

@[simp] theorem execPeriodicCheckpoint_goes (set : Nat) (s : State) : Goes s (execPeriodicCheckpoint set s) := by
  unfold execPeriodicCheckpoint
  split <;> simp

@[simp] theorem State.programCheckpoint_pending (s : State) (t : StateSet) : (s.programCheckpoint t).pending = s.pending := by
  simp [State.programCheckpoint]

@[simp] theorem State.commitCheckpoint_pending (s : State) (t : StateSet) : (s.commitCheckpoint t).pending = s.pending := by
  simp [State.commitCheckpoint]

@[simp] theorem execCheckpointCommit_goes (set : Nat) (s : State) : Goes s (execCheckpointCommit set s) := by
  unfold execCheckpointCommit
  split <;> simp

@[simp] theorem State.addSet_pending (s : State) (t : StateSet) : (s.addSet t).pending = s.pending := by simp [State.addSet]

@[simp] theorem State.attachSet_pending (s : State) (t : StateSet) (p : Nat) : (s.attachSet t p).pending = s.pending := by
  simp [State.attachSet]

@[simp] theorem State.doStateSetCreate_pending (s : State) (c : Caller) (v : List Byte) :
    (s.doStateSetCreate c v).1.pending = s.pending := by
  simp [State.doStateSetCreate]

@[simp] theorem execStateSetCreate_goes (r : Req) (v : List Byte) (s : State) : Goes s (execStateSetCreate r v s) := by
  simp [execStateSetCreate]

@[simp] theorem State.deleteSet_pending (s : State) (id : Nat) : (s.deleteSet id).pending = s.pending := by simp [State.deleteSet]

@[simp] theorem State.doStateSetDelete_pending (s : State) (c : Caller) (v : List Byte) :
    (s.doStateSetDelete c v).1.pending = s.pending := by
  unfold State.doStateSetDelete
  split <;> simp

@[simp] theorem execStateSetDelete_goes (r : Req) (v : List Byte) (s : State) : Goes s (execStateSetDelete r v s) := by
  simp [execStateSetDelete]

@[simp] theorem State.doStateSetAttach_pending (s : State) (c : Caller) (v : List Byte) :
    (s.doStateSetAttach c v).1.pending = s.pending := by
  simp only [State.doStateSetAttach]
  repeat' split
  all_goals simp [*]

@[simp] theorem execStateSetAttach_goes (r : Req) (v : List Byte) (s : State) : Goes s (execStateSetAttach r v s) := by
  simp [execStateSetAttach]

@[simp] theorem State.doCheckpointNow_pending (s : State) (c : Caller) (v : List Byte) :
    (s.doCheckpointNow c v).1.pending = s.pending := by
  unfold State.doCheckpointNow
  split <;> simp

@[simp] theorem execCheckpointNow_goes (r : Req) (v : List Byte) (s : State) : Goes s (execCheckpointNow r v s) := by
  simp [execCheckpointNow]

/-! ### Flash (R292 to R299, R676) -/

@[simp] theorem State.creditDay_pending (s : State) : s.creditDay.pending = s.pending := by simp [State.creditDay]

@[simp] theorem execBudgetDayStart_goes (s : State) : Goes s (execBudgetDayStart s) := by simp [execBudgetDayStart]

@[simp] theorem State.retireBlock_pending (s : State) (loc tiles : Nat) : (s.retireBlock loc tiles).pending = s.pending := by
  simp [State.retireBlock]

@[simp] theorem execFlashProgramFail_goes (channel die plane block : Nat) (s : State) :
    Goes s (execFlashProgramFail channel die plane block s) := by
  simp [execFlashProgramFail]

@[simp] theorem execJournalReplay_goes (durationMs : Nat) (s : State) : Goes s (execJournalReplay durationMs s) := by
  simp [execJournalReplay]

/-! ### Layouts (R313, R314) -/

@[simp] theorem State.doKvLayoutDefine_pending (s : State) (c : Caller) (v : List Byte) :
    (s.doKvLayoutDefine c v).1.pending = s.pending := by
  simp only [State.doKvLayoutDefine]
  repeat' split
  all_goals simp [*]

@[simp] theorem execKvLayoutDefine_goes (r : Req) (v : List Byte) (s : State) : Goes s (execKvLayoutDefine r v s) := by
  simp [execKvLayoutDefine]

@[simp] theorem State.doKvLayoutRemove_pending (s : State) (c : Caller) (v : List Byte) :
    (s.doKvLayoutRemove c v).1.pending = s.pending := by
  simp [State.doKvLayoutRemove]

@[simp] theorem execKvLayoutRemove_goes (r : Req) (v : List Byte) (s : State) : Goes s (execKvLayoutRemove r v s) := by
  simp [execKvLayoutRemove]

/-! ### Sequences (R318 to R320) -/

@[simp] theorem State.modSeq_pending (s : State) (p l n : Nat) (f : KvSeq → KvSeq) : (s.modSeq p l n f).pending = s.pending := by
  simp [State.modSeq]

@[simp] theorem State.doKvSeqCreate_pending (s : State) (c : Caller) (v : List Byte) :
    (s.doKvSeqCreate c v).1.pending = s.pending := by
  unfold State.doKvSeqCreate
  split <;> simp

@[simp] theorem execKvSeqCreate_goes (r : Req) (v : List Byte) (s : State) : Goes s (execKvSeqCreate r v s) := by
  simp [execKvSeqCreate]

@[simp] theorem State.doKvSeqDrop_pending (s : State) (c : Caller) (v : List Byte) :
    (s.doKvSeqDrop c v).1.pending = s.pending := by
  unfold State.doKvSeqDrop
  split <;> simp

@[simp] theorem execKvSeqDrop_goes (r : Req) (v : List Byte) (s : State) : Goes s (execKvSeqDrop r v s) := by simp [execKvSeqDrop]

/-! ### Spans and pages (R321 to R326) -/

@[simp] theorem State.spanFor_pending (s : State) (p : Nat) (l : KvLayout) (x : Extent) (q : KvSeq) (pos : Nat) :
    (s.spanFor p l x q pos).1.pending = s.pending := by
  unfold State.spanFor
  split <;> simp

@[simp] theorem State.pageForSpan_pending (s : State) (p : Nat) (l : KvLayout) (x : Extent) (q : KvSeq) (k layer : Nat)
    (sp : KvSpan) (rq : Requester) : (s.pageForSpan p l x q k layer sp rq).1.pending = s.pending := by
  grind [State.pageForSpan, State.allocPage_pending, State.modSeq_pending]

@[simp] theorem Append.row_pending (m : Append) (p : Nat) (l : KvLayout) (addr tokens : Nat) (rq : Requester) (side h t : Nat)
    (xs : List Word) : (m.row p l addr tokens rq side h t xs).s.pending = m.s.pending := by
  grind [Append.row, State.writeState_pending, State.modPage_pending]

@[simp] theorem Append.token_pending (m : Append) (p : Nat) (l : KvLayout) (x : Extent) (n layer : Nat) (rq : Requester)
    (rows : List (List Num)) : (m.token p l x n layer rq rows).s.pending = m.s.pending := by
  simp only [Append.token]
  split
  · rfl
  · split
    · rfl
    · split
      · rfl
      · split
        · simp
        · split
          · next h => exact fst_pending_of_eq h (by simp)
          · next h => exact fst_pending_of_eq h (by simp)
          · next h =>
            rw [State.modSeq_pending, foldl_keeps (g := fun m : Append => m.s.pending) fun m r => ?_]
            · exact fst_pending_of_eq h (by simp)
            · simp

/-! ### Arithmetic (R343, R351, R364) -/

@[simp] theorem KvRead.bytes_pending (m : KvRead) (i a n : Nat) : (m.bytes i a n).1.s.pending = m.s.pending := by
  refine foldl_keeps (g := fun acc : KvRead × List Byte => acc.1.s.pending) (fun acc c => ?_) _ _
  dsimp only
  split
  · rfl
  · split
    · rfl
    · simp

@[simp] theorem KvRead.openPage_pending (m : KvRead) (g : Page) : (m.openPage g).s.pending = m.s.pending := by
  unfold KvRead.openPage
  split <;> simp

@[simp] theorem KvRead.projection_pending (m : KvRead) (i : Nat) (l : KvLayout) (k : Nat) :
    (m.projection i l k).1.s.pending = m.s.pending := by
  simp [KvRead.projection]

@[simp] theorem KvRead.projections_pending (m : KvRead) (i : Nat) (l : KvLayout) :
    (m.projections i l).1.s.pending = m.s.pending := by
  refine foldl_keeps (g := fun acc : KvRead × List (List (List Word)) => acc.1.s.pending) (fun acc c => ?_) _ _
  simp

@[simp] theorem KvRead.rows_pending (m : KvRead) (i : Nat) (l : KvLayout) (g : Page) (side h t0 n : Nat) :
    (m.rows i l g side h t0 n).1.s.pending = m.s.pending := by
  grind [KvRead.rows, KvRead.bytes_pending, KvRead.openPage_pending]

/-! ### KVSKETCH (R341 to R347) -/

@[simp] theorem KvRead.sketch_pending (m : KvRead) (i : Nat) (l : KvLayout) (projs : List (List (List Word))) (q : KvSeq)
    (k : Nat) (sp : KvSpan) : (m.sketch i l projs q k sp).1.s.pending = m.s.pending := by
  simp only [KvRead.sketch]
  split
  · simp
  · refine foldl_keeps (g := fun acc : KvRead × List Byte => acc.1.s.pending) (fun acc j => ?_) _ _
    split
    · rfl
    · simp

@[simp] theorem State.kvSketchWork_pending (s : State) (i d : Nat) : (s.kvSketchWork i d).s.pending = s.pending := by
  generalize hf : @State.kvSketchWork = f
  delta State.kvSketchWork at hf
  subst hf
  induction @field using for_any with | any f0
  dsimp only
  repeat' split
  any_goals rfl
  rw [foldl_keeps (g := fun m : KvRead => m.s.pending) fun m k => ?_]
  · simp
  · split
    · rfl
    · split
      · rfl
      · split
        · next h => simpa using congrArg (fun x => x.1.s.pending) h.symm
        · next h => simpa using congrArg (fun x => x.1.s.pending) h.symm

@[simp] theorem execKvsketch_goes (u : SlotRef) (w : CmdWord) (s : State) : Goes s (execKvsketch u w s) := by simp [execKvsketch]

/-! ### Freeing (R254, R374) -/

@[simp] theorem execLazyPageFree_goes (page : Nat) (s : State) : Goes s (execLazyPageFree page s) := by
  unfold execLazyPageFree
  split <;> simp

/-! ### The vector engine -/

@[simp] theorem State.vecWork_pending (opcode : Nat) (s : State) (i d : Nat) :
    (State.vecWork opcode s i d).s.pending = s.pending := by
  simp only [State.vecWork]
  repeat' split
  all_goals simp [*]

@[simp] theorem State.vector_goes (s : State) (u : SlotRef) (w : CmdWord) (opcode : Nat) : Goes s (s.vector u w opcode) := by
  simp [State.vector]

@[simp] theorem execVadd_goes (u : SlotRef) (w : CmdWord) (s : State) : Goes s (execVadd u w s) := by simp [execVadd]

@[simp] theorem execVsub_goes (u : SlotRef) (w : CmdWord) (s : State) : Goes s (execVsub u w s) := by simp [execVsub]

@[simp] theorem execVmul_goes (u : SlotRef) (w : CmdWord) (s : State) : Goes s (execVmul u w s) := by simp [execVmul]

@[simp] theorem execVfma_goes (u : SlotRef) (w : CmdWord) (s : State) : Goes s (execVfma u w s) := by
  grind [execVfma, State.vector_goes]

@[simp] theorem execVmax_goes (u : SlotRef) (w : CmdWord) (s : State) : Goes s (execVmax u w s) := by simp [execVmax]

@[simp] theorem execVmin_goes (u : SlotRef) (w : CmdWord) (s : State) : Goes s (execVmin u w s) := by simp [execVmin]

@[simp] theorem execVcmp_goes (u : SlotRef) (w : CmdWord) (s : State) : Goes s (execVcmp u w s) := by simp [execVcmp]

@[simp] theorem execVsel_goes (u : SlotRef) (w : CmdWord) (s : State) : Goes s (execVsel u w s) := by
  grind [execVsel, State.vector_goes]

@[simp] theorem execVcvt_goes (u : SlotRef) (w : CmdWord) (s : State) : Goes s (execVcvt u w s) := by simp [execVcvt]

@[simp] theorem execVexp_goes (u : SlotRef) (w : CmdWord) (s : State) : Goes s (execVexp u w s) := by simp [execVexp]

@[simp] theorem execVexp2_goes (u : SlotRef) (w : CmdWord) (s : State) : Goes s (execVexp2 u w s) := by simp [execVexp2]

@[simp] theorem execVlog2_goes (u : SlotRef) (w : CmdWord) (s : State) : Goes s (execVlog2 u w s) := by
  grind [execVlog2, State.vector_goes]

@[simp] theorem execVrcp_goes (u : SlotRef) (w : CmdWord) (s : State) : Goes s (execVrcp u w s) := by simp [execVrcp]

@[simp] theorem execVrsqrt_goes (u : SlotRef) (w : CmdWord) (s : State) : Goes s (execVrsqrt u w s) := by simp [execVrsqrt]

@[simp] theorem execVdiv_goes (u : SlotRef) (w : CmdWord) (s : State) : Goes s (execVdiv u w s) := by simp [execVdiv]

@[simp] theorem execVtanh_goes (u : SlotRef) (w : CmdWord) (s : State) : Goes s (execVtanh u w s) := by
  grind [execVtanh, State.vector_goes]

@[simp] theorem execVsigm_goes (u : SlotRef) (w : CmdWord) (s : State) : Goes s (execVsigm u w s) := by simp [execVsigm]

@[simp] theorem execVsilu_goes (u : SlotRef) (w : CmdWord) (s : State) : Goes s (execVsilu u w s) := by simp [execVsilu]

@[simp] theorem execVgelu_goes (u : SlotRef) (w : CmdWord) (s : State) : Goes s (execVgelu u w s) := by simp [execVgelu]

@[simp] theorem execVrsum_goes (u : SlotRef) (w : CmdWord) (s : State) : Goes s (execVrsum u w s) := by
  grind [execVrsum, State.vector_goes]

@[simp] theorem execVrmax_goes (u : SlotRef) (w : CmdWord) (s : State) : Goes s (execVrmax u w s) := by simp [execVrmax]

@[simp] theorem execVrssq_goes (u : SlotRef) (w : CmdWord) (s : State) : Goes s (execVrssq u w s) := by simp [execVrssq]

@[simp] theorem execVtrans_goes (u : SlotRef) (w : CmdWord) (s : State) : Goes s (execVtrans u w s) := by simp [execVtrans]

/-! ### The KV commands of the stream -/

@[simp] theorem State.freeTiles_pending (s : State) (i tile n : Nat) : (s.freeTiles i tile n).pending = s.pending := by
  simp [State.freeTiles]

/-! ### KVAPP (R329 to R340) -/

@[simp] theorem State.rollSeqs_pending (s : State) (p : Nat) (l : KvLayout) (x : Extent) (layer : Nat) (names : List Nat) :
    (s.rollSeqs p l x layer names).pending = s.pending := by
  simp [State.rollSeqs]

@[simp] theorem State.kvAppWork_pending (s : State) (i d : Nat) : (s.kvAppWork i d).s.pending = s.pending := by
  generalize hf : @State.kvAppWork = f
  delta State.kvAppWork at hf
  subst hf
  induction @field using for_any with | any f0
  induction @Slot.opnd using for_any with | any f1
  dsimp only
  repeat' split
  any_goals rfl
  all_goals exact (foldl_keeps (g := fun m : Append => m.s.pending) (fun m jn => by simp) _ _).trans (by simp)

@[simp] theorem execKvapp_goes (u : SlotRef) (w : CmdWord) (s : State) : Goes s (execKvapp u w s) := by simp [execKvapp]

/-! ### KVSCORE (R349 to R354) -/

@[simp] theorem State.kvScoreWork_pending (s : State) (i d : Nat) : (s.kvScoreWork i d).s.pending = s.pending := by
  generalize hf : @State.kvScoreWork = f
  delta State.kvScoreWork at hf
  subst hf
  induction @field using for_any with | any f0
  induction @Slot.opnd using for_any with | any f1
  dsimp only
  repeat' split
  any_goals rfl
  rw [State.freeTiles_pending, foldl_keeps (g := fun m : KvRead => m.s.pending) fun m mn => ?_]
  · simp
  · split
    · split <;> simp
    · rfl

@[simp] theorem execKvscore_goes (u : SlotRef) (w : CmdWord) (s : State) : Goes s (execKvscore u w s) := by simp [execKvscore]

/-! ### KVSEL (R355 to R358) -/

@[simp] theorem State.kvSelWork_pending (s : State) (i d : Nat) : (s.kvSelWork i d).s.pending = s.pending := by
  generalize hf : @State.kvSelWork = f
  delta State.kvSelWork at hf
  subst hf
  induction @field using for_any with | any f0
  dsimp only
  repeat' split
  any_goals rfl
  refine foldl_keeps (g := fun w : Work => w.s.pending) (fun w mn => ?_) _ _
  repeat' split
  all_goals simp

@[simp] theorem execKvsel_goes (u : SlotRef) (w : CmdWord) (s : State) : Goes s (execKvsel u w s) := by simp [execKvsel]

/-! ### KVATTN and KVPREF (R359 to R373) -/

@[simp] theorem Attend.block_pending (a : Attend) (i : Nat) (l : KvLayout) (layer : Nat) (scale : Word) (qs : List (List Word))
    (limit : Nat → Nat) (b : KvBlock) : (a.block i l layer scale qs limit b).r.s.pending = a.r.s.pending := by
  simp only [Attend.block]
  split
  · rfl
  · split
    · rfl
    · refine foldl_keeps (g := fun a : Attend => a.r.s.pending) (fun a h => ?_) _ _
      split <;> simp

theorem Attend.blocks_pending (a : Attend) (i : Nat) (l : KvLayout) (layer : Nat) (scale : Word) (qs : List (List Word))
    (limit : Nat → Nat) (bs : List KvBlock) :
    (bs.foldl (fun (a : Attend) b => a.block i l layer scale qs limit b) a).r.s.pending = a.r.s.pending :=
  foldl_keeps (g := fun a : Attend => a.r.s.pending) (fun a b => a.block_pending i l layer scale qs limit b) bs a

@[simp] theorem State.attend_pending (s : State) (w : Work) (i : Nat) (l : KvLayout) (layer : Nat) (scale : Word)
    (cells : List (List Num)) (out : Opnd) (row : Nat) (limit : Nat → Nat) (blocks : List KvBlock) :
    (s.attend w i l layer scale cells out row limit blocks).s.pending = w.s.pending := by
  simp only [State.attend]
  split <;> simp [Attend.blocks_pending]

@[simp] theorem State.attention_pending (s : State) (i d : Nat) (l : KvLayout) (names : List Nat) (toks qpos : Nat)
    (prefill : Bool) : (s.attention i d l names toks qpos prefill).s.pending = s.pending := by
  generalize hf : @State.attention = f
  delta State.attention at hf
  subst hf
  induction @field using for_any with | any f0
  induction @Slot.opnd using for_any with | any f1
  dsimp only
  repeat' split
  any_goals rfl
  all_goals
    rw [State.freeTiles_pending, foldl_keeps (g := fun w : Work => w.s.pending) fun w mn => ?_]
    repeat' split
    all_goals simp

@[simp] theorem State.kvAttnWork_pending (s : State) (i d : Nat) : (s.kvAttnWork i d).s.pending = s.pending := by
  simp only [State.kvAttnWork]
  repeat' split
  all_goals simp [*]

@[simp] theorem execKvattn_goes (u : SlotRef) (w : CmdWord) (s : State) : Goes s (execKvattn u w s) := by simp [execKvattn]

@[simp] theorem State.kvPrefWork_pending (s : State) (i d : Nat) : (s.kvPrefWork i d).s.pending = s.pending := by
  unfold State.kvPrefWork
  split <;> simp

@[simp] theorem execKvpref_goes (u : SlotRef) (w : CmdWord) (s : State) : Goes s (execKvpref u w s) := by simp [execKvpref]

/-! ### Handles and state pages (R384 to R388) -/

@[simp] theorem State.setHandle_pending (s : State) (h : Nat) (v : Handle) : (s.setHandle h v).pending = s.pending := by
  simp [State.setHandle]

@[simp] theorem State.modHandle_pending (s : State) (h : Nat) (f : Handle → Handle) : (s.modHandle h f).pending = s.pending := by
  simp [State.modHandle]

@[simp] theorem State.allocHandlePage_pending (s : State) (p a h bytes : Nat) (rq : Requester) :
    (s.allocHandlePage p a h bytes rq).1.pending = s.pending := by
  unfold State.allocHandlePage
  split <;> simp

theorem State.bindHandle_pending (s : State) (n : Nat) (h : Handle) {r : State} (h : s.bindHandle n h = some r) :
    r.pending = s.pending := by
  grind [State.bindHandle, State.allocHandlePage_pending, State.writeState_pending, State.setHandle_pending]

@[simp] theorem State.doStateHandleBind_pending (s : State) (c : Caller) (v : List Byte) :
    (s.doStateHandleBind c v).1.pending = s.pending := by
  generalize hf : @State.doStateHandleBind = f
  delta State.doStateHandleBind at hf
  subst hf
  induction @field using for_any with | any f0
  induction @onlyBits using for_any with | any f1
  dsimp only
  repeat' split
  any_goals rfl
  next h => exact State.bindHandle_pending _ _ _ h

@[simp] theorem execStateHandleBind_goes (r : Req) (v : List Byte) (s : State) : Goes s (execStateHandleBind r v s) := by
  simp [execStateHandleBind]

/-! ### Cells (R379 to R383) -/

@[simp] theorem State.putCarried_pending (s : State) (i work : Nat) (h : Handle) (c : Carried) :
    (s.putCarried i work h c).pending = s.pending := by
  simp [State.putCarried]

@[simp] theorem State.writePage_pending (s : State) (i idx a steps : Nat) (c : Carried) :
    (s.writePage i idx a steps c).1.pending = s.pending := by
  simp [State.writePage]

/-! ### RPROJ (R389, R390) -/

@[simp] theorem State.rprojWork_pending (s : State) (i d : Nat) : (s.rprojWork i d).s.pending = s.pending := by
  generalize hf : @State.rprojWork = f
  delta State.rprojWork at hf
  subst hf
  induction @firstFault using for_any with | any f0
  induction @field using for_any with | any f1
  induction @Slot.opnd using for_any with | any f2
  dsimp only
  repeat' split
  all_goals simp

@[simp] theorem execRproj_goes (u : SlotRef) (w : CmdWord) (s : State) : Goes s (execRproj u w s) := by simp [execRproj]

/-! ### Chunks: RCELL and RSCAN -/

@[simp] theorem State.runCell_pending (s : State) (i idx : Nat) (k : CellDesc) (ran lo hi : Nat) :
    (s.runCell i idx k ran lo hi).s.pending = s.pending := by
  refine foldl_keeps (g := fun r : ChunkRun => r.s.pending) (fun r n => ?_) _ _
  dsimp only
  split
  · rfl
  · split
    · split
      · next h => exact fst_pending_of_eq h (by simp)
      · next h => exact fst_pending_of_eq h (by simp)
      · next h => exact fst_pending_of_eq h (by simp)
    · simp

@[simp] theorem State.runScan_pending (s : State) (i idx : Nat) (k : ScanDesc) (lo hi : Nat) :
    (s.runScan i idx k lo hi).s.pending = s.pending := by
  refine foldl_keeps (g := fun r : ChunkRun => r.s.pending) (fun r n => ?_) _ _
  dsimp only
  split
  · rw [foldl_fst_pending fun sm t => ?_]
    simp
  · rfl

@[simp] theorem State.runChunk_pending (s : State) (j : Job) (k : Chunk) (hi : Nat) :
    (s.runChunk j k hi).s.pending = s.pending := by
  unfold State.runChunk
  split <;> simp

/-! ### The hold (R393, R394, R403, R406 to R409) -/

@[simp] theorem State.modEntry_pending (s : State) (j : Job) (f : Job → Job) : (s.modEntry j f).pending = s.pending := by
  unfold State.modEntry
  split <;> simp

@[simp] theorem State.copyPage_pending (s : State) (h : Handle) (src dst : Nat) (rq : Requester) :
    (s.copyPage h src dst rq).1.pending = s.pending := by
  simp only [State.copyPage]
  grind [State.readState_pending, State.passTag_pending, State.writeState_pending]

@[simp] theorem State.copyTo_pending (s : State) (idx src dst : Nat) (rq : Requester) :
    (s.copyTo idx src dst rq).1.pending = s.pending := by
  grind [State.copyTo, State.allocHandlePage_pending, State.copyPage_pending]

@[simp] theorem State.freeAt_pending (s : State) (p a : Nat) : (s.freeAt p a).pending = s.pending := by
  exact elim_pending fun g => by simp

@[simp] theorem State.countStalls_pending (s : State) (idx : Nat) : (s.countStalls idx).pending = s.pending := by
  simp [State.countStalls]

@[simp] theorem State.endSwapOut_pending (s : State) (idx addr : Nat) : (s.endSwapOut idx addr).pending = s.pending := by
  simp [State.endSwapOut]

@[simp] theorem State.endSwapIn_pending (s : State) (idx addr : Nat) : (s.endSwapIn idx addr).pending = s.pending := by
  simp [State.endSwapIn]

@[simp] theorem State.takeChunk_pending (s : State) (j : Job) (k : Chunk) : (s.takeChunk j k).s.pending = s.pending := by
  grind [State.takeChunk, State.readState_pending, State.passTag_pending, State.writeSp_pending]

@[simp] theorem State.takeMove_pending (s : State) (j : Job) (k : Chunk) : (s.takeMove j k).s.pending = s.pending := by
  simp only [State.takeMove]
  repeat' split
  all_goals simp [*]

@[simp] theorem State.mcSwapOut_pending (s : State) (idx addr : Nat) : (s.mcSwapOut idx addr).pending = s.pending := by
  grind [State.mcSwapOut, State.copyTo_pending, State.endSwapOut_pending, State.stallQuota_pending, State.modHandle_pending]

@[simp] theorem State.grantOne_pending (s : State) (idx : Nat) : (s.grantOne idx).pending = s.pending := by
  simp only [State.grantOne]
  repeat' split
  all_goals simp [*]

@[simp] theorem State.grant_pending (s : State) (idx : Nat) : (s.grant idx).pending = s.pending := by simp [State.grant]

@[simp] theorem State.releaseHold_pending (s : State) (idx : Nat) : (s.releaseHold idx).pending = s.pending := by
  simp [State.releaseHold]

@[simp] theorem State.stopChunk_pending (s : State) (idx : Nat) : (s.stopChunk idx).pending = s.pending := by
  simp only [State.stopChunk]
  grind [State.fresh_pending, State.runChunk_pending, State.faultSlot_pending, State.meet_pending, State.stallQuota_pending,
    State.writePage_pending, State.putCarried_pending, State.modEntry_pending, State.reassign_pending, State.modHandle_pending]

@[simp] theorem State.stepChunk_pending (s : State) (j : Job) (n : Nat) : (s.stepChunk j n).pending = s.pending := by
  simp only [State.stepChunk]
  repeat' split
  all_goals simp [*]

@[simp] theorem State.finishChunk_pending (s : State) (j : Job) (k : Chunk) : (s.finishChunk j k).1.pending = s.pending := by
  grind [State.finishChunk, State.runChunk_pending, State.writePage_pending, State.putCarried_pending, State.modHandle_pending,
    State.freeTiles_pending]

/-! ### The commands -/

@[simp] theorem State.awaitHandle_pending (s : State) (i idx d : Nat) (xfr chunk : Bool) :
    (s.awaitHandle i idx d xfr chunk).s.pending = s.pending := by
  simp [State.awaitHandle]

@[simp] theorem State.rcellWork_pending (s : State) (i d : Nat) : (s.rcellWork i d).s.pending = s.pending := by
  simp only [State.rcellWork]
  repeat' split
  all_goals simp [*]

@[simp] theorem execRcell_goes (u : SlotRef) (w : CmdWord) (s : State) : Goes s (execRcell u w s) := by simp [execRcell]

@[simp] theorem State.rscanWork_pending (s : State) (i d : Nat) : (s.rscanWork i d).s.pending = s.pending := by
  generalize hf : @State.rscanWork = f
  delta State.rscanWork at hf
  subst hf
  induction @firstFault using for_any with | any f0
  induction @field using for_any with | any f1
  induction @Slot.scanDesc using for_any with | any f2
  induction @State.handleFault using for_any with | any f3
  induction @State.sourceFault using for_any with | any f4
  induction @onlyBits using for_any with | any f5
  dsimp only
  repeat' split
  all_goals simp

@[simp] theorem execRscan_goes (u : SlotRef) (w : CmdWord) (s : State) : Goes s (execRscan u w s) := by simp [execRscan]

@[simp] theorem State.rckptWork_pending (s : State) (i d : Nat) : (s.rckptWork i d).s.pending = s.pending := by
  simp only [State.rckptWork]
  repeat' split
  all_goals simp [*]

@[simp] theorem execRckpt_goes (u : SlotRef) (w : CmdWord) (s : State) : Goes s (execRckpt u w s) := by simp [execRckpt]

@[simp] theorem State.revoke_pending (s : State) (idx : Nat) (keep : Bool) : (s.revoke idx keep).1.pending = s.pending := by
  simp only [State.revoke]
  repeat' split
  all_goals simp [*]

@[simp] theorem State.forceSwap_pending (s : State) (idx e : Nat) : (s.forceSwap idx e).pending = s.pending := by
  simp [State.forceSwap]

@[simp] theorem State.rswapWork_pending (s : State) (i d : Nat) : (s.rswapWork i d).s.pending = s.pending := by
  generalize hf : @State.rswapWork = f
  delta State.rswapWork at hf
  subst hf
  induction @field using for_any with | any f0
  induction @onlyBits using for_any with | any f1
  dsimp only
  repeat' split
  all_goals simp

@[simp] theorem State.rswap_pending (s : State) (u : SlotRef) (w : CmdWord) (action : Nat) :
    (s.rswap u w action).pending = s.pending := by
  simp [State.rswap]

@[simp] theorem execRswapOut_goes (u : SlotRef) (w : CmdWord) (s : State) : Goes s (execRswapOut u w s) := by simp [execRswapOut]

@[simp] theorem execRswapIn_goes (u : SlotRef) (w : CmdWord) (s : State) : Goes s (execRswapIn u w s) := by simp [execRswapIn]

@[simp] theorem execRswapRevoke_goes (u : SlotRef) (w : CmdWord) (s : State) : Goes s (execRswapRevoke u w s) := by
  simp [execRswapRevoke]

@[simp] theorem State.doStateHandleRevoke_pending (s : State) (c : Caller) (v : List Byte) :
    (s.doStateHandleRevoke c v).1.pending = s.pending := by
  simp only [State.doStateHandleRevoke]
  repeat' split
  all_goals simp [*]

@[simp] theorem execStateHandleRevoke_goes (r : Req) (v : List Byte) (s : State) : Goes s (execStateHandleRevoke r v s) := by
  simp [execStateHandleRevoke]

@[simp] theorem State.askSwapOut_pending (s : State) (idx addr : Nat) (force : Bool) :
    (s.askSwapOut idx addr force).pending = s.pending := by
  simp [State.askSwapOut]

@[simp] theorem State.doStateHandleSwap_pending (s : State) (c : Caller) (v : List Byte) :
    (s.doStateHandleSwap c v).1.pending = s.pending := by
  generalize hf : @State.doStateHandleSwap = f
  delta State.doStateHandleSwap at hf
  subst hf
  induction @field using for_any with | any f0
  induction @onlyBits using for_any with | any f1
  dsimp only
  repeat' split
  any_goals rfl
  · next h => simpa using fst_pending_of_eq h (by simp)
  all_goals simp

@[simp] theorem execStateHandleSwapOut_goes (r : Req) (v : List Byte) (s : State) : Goes s (execStateHandleSwapOut r v s) := by
  simp [execStateHandleSwapOut]

@[simp] theorem execStateHandleSwapIn_goes (r : Req) (v : List Byte) (s : State) : Goes s (execStateHandleSwapIn r v s) := by
  simp [execStateHandleSwapIn]

/-! ### WCONV (R424, R430 to R434) -/

@[simp] theorem State.bumpOpen_pending (s : State) (key n : Nat) : (s.bumpOpen key n).pending = s.pending := by
  simp [State.bumpOpen]

@[simp] theorem State.wconvWork_pending (s : State) (i d : Nat) : (s.wconvWork i d).s.pending = s.pending := by
  generalize hf : @State.wconvWork = f
  delta State.wconvWork at hf
  subst hf
  induction @firstFault using for_any with | any f0
  induction @field using for_any with | any f1
  induction @Slot.opnd using for_any with | any f2
  induction @Slot.geometry using for_any with | any f3
  induction @onlyBits using for_any with | any f4
  induction @State.sourceFault using for_any with | any f5
  induction @State.imageFault using for_any with | any f6
  induction @State.spPoisonFault using for_any with | any f7
  induction @State.spacePoison using for_any with | any f8
  dsimp only
  repeat' split
  all_goals simp

@[simp] theorem execWconv_goes (u : SlotRef) (w : CmdWord) (s : State) : Goes s (execWconv u w s) := by simp [execWconv]

/-! ### WEXPAND (R435 to R437) -/

@[simp] theorem State.wexpandWork_pending (s : State) (i d : Nat) : (s.wexpandWork i d).s.pending = s.pending := by
  generalize hf : @State.wexpandWork = f
  delta State.wexpandWork at hf
  subst hf
  induction @firstFault using for_any with | any f0
  induction @field using for_any with | any f1
  induction @Slot.opnd using for_any with | any f2
  induction @Slot.geometry using for_any with | any f3
  induction @onlyBits using for_any with | any f4
  induction @State.imageFault using for_any with | any f5
  dsimp only
  repeat' split
  all_goals simp

@[simp] theorem execWexpand_goes (u : SlotRef) (w : CmdWord) (s : State) : Goes s (execWexpand u w s) := by simp [execWexpand]

/-! ### WPOOL (R438 to R442) -/

@[simp] theorem State.wpoolWork_pending (s : State) (i d : Nat) : (s.wpoolWork i d).s.pending = s.pending := by
  generalize hf : @State.wpoolWork = f
  delta State.wpoolWork at hf
  subst hf
  induction @field using for_any with | any f0
  induction @Slot.opnd using for_any with | any f1
  induction @Slot.geometry using for_any with | any f2
  induction @onlyBits using for_any with | any f3
  induction @State.imageFault using for_any with | any f4
  induction @State.spacePoison using for_any with | any f5
  induction @State.outside using for_any with | any f6
  dsimp only
  repeat' split
  all_goals simp

@[simp] theorem execWpool_goes (u : SlotRef) (w : CmdWord) (s : State) : Goes s (execWpool u w s) := by simp [execWpool]

/-! ### Creation (R453 to R455, R458, R872) -/

@[simp] theorem State.defaultObjects_pending (s : State) (p : Nat) : (s.defaultObjects p).pending = s.pending := by
  simp [State.defaultObjects]

@[simp] theorem State.createPitch_pending (s : State) (v : List Byte) : (s.createPitch v).pending = s.pending := by
  simp only [State.createPitch, State.setObj_pending, State.setPitch_pending, State.defaultObjects_pending]
  rw [foldl_pending fun u n => ?_, foldl_pending fun u x => ?_] <;> rfl

@[simp] theorem State.doPitchCreate_pending (s : State) (c : Caller) (v : List Byte) :
    (s.doPitchCreate c v).1.pending = s.pending := by
  simp [State.doPitchCreate]

@[simp] theorem execPitchCreate_goes (r : Req) (v : List Byte) (s : State) : Goes s (execPitchCreate r v s) := by
  simp [execPitchCreate]

/-! ### Start (R457, R534, R724) -/

@[simp] theorem State.routeLines_pending (s : State) (p : Nat) : (s.routeLines p).pending = s.pending := by
  unfold State.routeLines
  refine foldl_pending (fun _ _ => ?_) _ _
  split <;> simp

@[simp] theorem State.startPitch_pending (s : State) (p : Nat) : (s.startPitch p).pending = s.pending := by
  simp only [State.startPitch]
  rw [foldl_pending fun t i => ?_, State.routeLines_pending, State.setPitch_pending, foldl_pending fun t e => ?_]
  · split
    · exact foldl_pending (fun t i => by simp) _ _
    · rfl
  · rfl
  · simp

@[simp] theorem State.doPitchStart_pending (s : State) (c : Caller) (v : List Byte) :
    (s.doPitchStart c v).1.pending = s.pending := by
  simp [State.doPitchStart]

@[simp] theorem execPitchStart_goes (r : Req) (v : List Byte) (s : State) : Goes s (execPitchStart r v s) := by
  simp [execPitchStart]

/-! ### Removal (R459, R526, R724) -/

@[simp] theorem State.stopFeeds_pending (s : State) (p : Nat) : (s.stopFeeds p).pending = s.pending := by simp [State.stopFeeds]

@[simp] theorem State.removePitch_pending (s : State) (p : Nat) : (s.removePitch p).pending = s.pending := by
  simp only [State.removePitch, State.defaultObjects_pending, State.freePages_pending, State.detachSets_pending]
  rw [foldl_pending fun t n => ?_, foldl_pending fun t i => ?_, foldl_pending fun t i => ?_]
  · simp
  · simp
  · simp
  · rfl

@[simp] theorem State.removeLater_pending (s : State) (p : Nat) : (s.removeLater p).pending = s.pending := by
  simp [State.removeLater]

@[simp] theorem State.doPitchRemove_pending (s : State) (c : Caller) (v : List Byte) :
    (s.doPitchRemove c v).1.pending = s.pending := by
  simp only [State.doPitchRemove]
  repeat' split
  all_goals simp [*]

@[simp] theorem execPitchRemove_goes (r : Req) (v : List Byte) (s : State) : Goes s (execPitchRemove r v s) := by
  simp [execPitchRemove]

/-! ### Loans, pegs and priority (R461, R465, R495) -/

@[simp] theorem State.doPegShare_pending (s : State) (c : Caller) (v : List Byte) :
    (s.doPegShare c v).1.pending = s.pending := by
  generalize hf : @State.doPegShare = f
  delta State.doPegShare at hf
  subst hf
  induction @loanOf using for_any with | any f0
  dsimp only
  repeat' split
  all_goals rfl

@[simp] theorem execPegShare_goes (r : Req) (v : List Byte) (s : State) : Goes s (execPegShare r v s) := by simp [execPegShare]

@[simp] theorem State.doPegUnshare_pending (s : State) (c : Caller) (v : List Byte) :
    (s.doPegUnshare c v).1.pending = s.pending := by
  generalize hf : @State.doPegUnshare = f
  delta State.doPegUnshare at hf
  subst hf
  induction @loanOf using for_any with | any f0
  dsimp only
  repeat' split
  all_goals rfl

@[simp] theorem execPegUnshare_goes (r : Req) (v : List Byte) (s : State) : Goes s (execPegUnshare r v s) := by
  simp [execPegUnshare]

@[simp] theorem State.doPegStatusClear_pending (n : Nat) (s : State) (c : Caller) (v : List Byte) :
    (State.doPegStatusClear n s c v).1.pending = s.pending := by
  simp [State.doPegStatusClear]

@[simp] theorem execPegStatusClear_goes (r : Req) (cluster : Fin 6) (v : List Byte) (s : State) :
    Goes s (execPegStatusClear r cluster v s) := by
  simp [execPegStatusClear]

@[simp] theorem State.writePriority_pending (p : Nat) (s : State) (c : Caller) (v : Nat) :
    (State.writePriority p s c v).1.pending = s.pending := by
  simp [State.writePriority]

@[simp] theorem execPitchPriorityWrite_goes (r : Req) (pitch : Fin 32) (v : List Byte) (s : State) :
    Goes s (execPitchPriorityWrite r pitch v s) := by
  simp [execPitchPriorityWrite]

/-! ### What every fabric command checks (R30, R472, R475) -/

@[simp] theorem Formed.work_pending (f : Formed) (cmpl : List Nat) : (f.work cmpl).s.pending = f.s.pending := by
  simp [Formed.work]

@[simp] theorem Formed.run_pending (f : Formed) (i : Nat) (h : Packet) (src : Loc) (swap n : Nat) (dst : Int) :
    (f.run i h src swap n dst).s.pending = f.s.pending := by
  simp only [Formed.run]
  repeat' split
  all_goals simp [*]

/-! ### FWRITE (R519 to R522) -/

@[simp] theorem State.setStream_pending (s : State) (k : Nat) (e : EncStream) : (s.setStream k e).pending = s.pending := by
  simp [State.setStream]

@[simp] theorem State.encodeRows_pending (s : State) (i d : Nat) (f : Fmt) : (s.encodeRows i d f).1.pending = s.pending := by
  simp only [State.encodeRows]
  refine foldl_fst_pending (fun acc k => ?_) _ _
  split
  · rfl
  · split
    · rfl
    · split
      · next h => exact fst_pending_of_eq h (by simp)
      · next h => rw [State.setStream_pending]; exact fst_pending_of_eq h (by simp)

@[simp] theorem State.fwriteWork_pending (s : State) (i d : Nat) : (s.fwriteWork i d).s.pending = s.pending := by
  generalize hf : @State.fwriteWork = f
  delta State.fwriteWork at hf
  subst hf
  induction @fwriteOk using for_any with | any f0
  induction @firstFault using for_any with | any f1
  induction @field using for_any with | any f2
  dsimp only
  repeat' split
  any_goals rfl
  · rw [Formed.work_pending, foldl_keeps (g := fun f : Formed => f.s.pending) fun f k => ?_]
    simp
  all_goals simp

@[simp] theorem execFwrite_goes (u : SlotRef) (w : CmdWord) (s : State) : Goes s (execFwrite u w s) := by simp [execFwrite]

/-! ### FREAD (R523) -/

@[simp] theorem State.freadWork_pending (s : State) (i d : Nat) : (s.freadWork i d).s.pending = s.pending := by
  generalize hf : @State.freadWork = f
  delta State.freadWork at hf
  subst hf
  induction @freadOk using for_any with | any f0
  induction @field using for_any with | any f1
  dsimp only
  repeat' split
  any_goals rfl
  rw [Formed.work_pending, foldl_keeps (g := fun f : Formed => f.s.pending) fun f k => ?_]
  repeat' split
  all_goals rfl

@[simp] theorem execFread_goes (u : SlotRef) (w : CmdWord) (s : State) : Goes s (execFread u w s) := by simp [execFread]

/-! ### FMSG (R530, R532) -/

@[simp] theorem State.fmsgWork_pending (s : State) (i d : Nat) : (s.fmsgWork i d).s.pending = s.pending := by
  generalize hf : @State.fmsgWork = f
  delta State.fmsgWork at hf
  subst hf
  induction @firstFault using for_any with | any f0
  induction @field using for_any with | any f1
  induction @onlyBits using for_any with | any f2
  dsimp only
  refine (work_ite_pending _ _ _).trans (ite_keeps rfl ?_)
  split
  · rfl
  · split
    · next h => exact fst_pending_of_eq h (by simp)
    · next h =>
      refine (work_ite_pending _ _ _).trans (ite_keeps ?_ ?_)
      · simp only [State.examine_pending, State.takePeg_pending]
        exact fst_pending_of_eq h (by simp)
      · simp only [State.waitPeg_pending]
        exact fst_pending_of_eq h (by simp)

@[simp] theorem execFmsg_goes (u : SlotRef) (w : CmdWord) (s : State) : Goes s (execFmsg u w s) := by simp [execFmsg]

/-! ### WHALO (R443 to R448) -/

@[simp] theorem State.whaloWork_pending (s : State) (i d : Nat) : (s.whaloWork i d).s.pending = s.pending := by
  generalize hf : @State.whaloWork = f
  delta State.whaloWork at hf
  subst hf
  induction @field using for_any with | any f0
  induction @onlyBits using for_any with | any f1
  dsimp only
  refine (work_ite_pending _ _ _).trans (ite_keeps rfl ?_)
  split
  · rfl
  · refine (work_ite_pending _ _ _).trans (ite_keeps ?_ ?_)
    · rw [State.bumpOpen_pending, Formed.work_pending, foldl_keeps (g := fun f : Formed => f.s.pending) fun f x => ?_]
      simp
    · simp

@[simp] theorem execWhalo_goes (u : SlotRef) (w : CmdWord) (s : State) : Goes s (execWhalo u w s) := by simp [execWhalo]

/-! ### Headers (R516) -/

@[simp] theorem State.keep_pending (s : State) (p : Packet) : (s.keep p).pending = s.pending := by simp [State.keep]

@[simp] theorem State.arrive_pending (s : State) (p : Packet) (take : Packet → State → Received)
    (htake : ∀ p s, (take p s).1.pending = s.pending) : (s.arrive p take).pending = s.pending := by
  grind [State.arrive, State.beginReturn_pending, State.keep_pending]

/-! ### WRITE and READ_REQ at their destination (R521, R529) -/

@[simp] theorem takeWrite_pending (pkt : Packet) (s : State) : (takeWrite pkt s).1.pending = s.pending := by
  simp only [takeWrite]
  split
  · rfl
  · split
    · simp
    · split
      · rfl
      · next h =>
        have htag := State.takeTag_pending h
        split
        · simp
        · next hw => simpa using (fst_pending_of_eq hw (by simp)).trans htag
        · next hw => simpa using (fst_pending_of_eq hw (by simp)).trans htag

@[simp] theorem execWrite_goes (pkt : Packet) (s : State) : Goes s (execWrite pkt s) := by simp [execWrite]

@[simp] theorem takeReadReq_pending (pkt : Packet) (s : State) : (takeReadReq pkt s).1.pending = s.pending := by
  simp only [takeReadReq]
  split
  · rfl
  · split
    · simp
    · split
      · rfl
      · next h => simpa using State.takeTag_pending h

@[simp] theorem execReadReq_goes (pkt : Packet) (s : State) : Goes s (execReadReq pkt s) := by simp [execReadReq]

/-! ### Answers at the requester (R217, R218, R522, R523) -/

@[simp] theorem State.closeOp_pending (s : State) (tag : Nat) : (s.closeOp tag).pending = s.pending := by simp [State.closeOp]

@[simp] theorem State.checkTenant_pending (s : State) (i : Nat) (j : Job) : (s.checkTenant i j).pending = s.pending := by
  simp [State.checkTenant]

@[simp] theorem State.placeRead_pending (s : State) (i : Nat) (x : Send) (bs : List Byte) :
    (s.placeRead i x bs).s.pending = s.pending := by
  simp only [State.placeRead]
  refine foldl_keeps (g := fun m : Moved => m.s.pending) (fun m part => ?_) _ _
  split
  · rfl
  · split <;> next h => exact fst_pending_of_eq h (by simp)

/-! ### Messages, credits and forwarded events (R476 to R479, R532 to R535) -/

@[simp] theorem State.staleDelivery_pending (s : State) (p : Packet) (kind : Nat) :
    (s.staleDelivery p kind).pending = s.pending := by
  simp only [State.staleDelivery]
  rw [State.ite_pending]
  refine ite_keeps (State.emit_pending ..) ?_
  rw [State.emit_pending]
  exact (State.modCluster_pending ..).trans ((State.bump_pending ..).trans (State.bump_pending ..))

@[simp] theorem State.deliverMsg_pending (s : State) (i : Nat) (pkt : Packet) : (s.deliverMsg i pkt).pending = s.pending := by
  simp [State.deliverMsg]

@[simp] theorem State.takeMsg_pending (s : State) (pkt : Packet) : (s.takeMsg pkt).pending = s.pending := by simp [State.takeMsg]

@[simp] theorem execMsg_goes (pkt : Packet) (s : State) : Goes s (execMsg pkt s) := by simp [execMsg]

@[simp] theorem State.takeMsgCredit_pending (s : State) (pkt : Packet) : (s.takeMsgCredit pkt).pending = s.pending := by
  simp [State.takeMsgCredit]

@[simp] theorem execMsgCredit_goes (pkt : Packet) (s : State) : Goes s (execMsgCredit pkt s) := by simp [execMsgCredit]

@[simp] theorem State.staleNack_pending (s : State) (i : Nat) (addressed : UnitAddr) :
    (s.staleNack i addressed).pending = s.pending := by
  simp [State.staleNack]

@[simp] theorem State.takeEvent_pending (s : State) (pkt : Packet) : (s.takeEvent pkt).pending = s.pending := by
  simp [State.takeEvent]

@[simp] theorem execEventPacket_goes (pkt : Packet) (s : State) : Goes s (execEventPacket pkt s) := by simp [execEventPacket]

@[simp] theorem State.unqueue_pending (s : State) (n line : Nat) : (s.unqueue n line).pending = s.pending := by
  simp [State.unqueue]

@[simp] theorem execEventForwardSend_goes (cluster : Fin 6) (line : Nat) (s : State) :
    Goes s (execEventForwardSend cluster line s) := by
  simp only [execEventForwardSend]
  split
  · split
    · simp
    · rw [goes_next]
      split
      · next h => simp [State.inject_pending h]
      · rfl
      · simp
  · simp

/-! ### Forwarded lines as objects (R535, R563) -/

@[simp] theorem State.doEventForwardDefine_pending (n : Nat) (s : State) (c : Caller) (v : List Byte) :
    (State.doEventForwardDefine n s c v).1.pending = s.pending := by
  simp only [State.doEventForwardDefine]
  repeat' split
  all_goals simp [*]

@[simp] theorem execEventForwardDefine_goes (r : Req) (cluster : Fin 6) (v : List Byte) (s : State) :
    Goes s (execEventForwardDefine r cluster v s) := by
  simp [execEventForwardDefine]

@[simp] theorem State.doEventForwardRemove_pending (n : Nat) (s : State) (c : Caller) (v : List Byte) :
    (State.doEventForwardRemove n s c v).1.pending = s.pending := by
  simp [State.doEventForwardRemove]

@[simp] theorem execEventForwardRemove_goes (r : Req) (cluster : Fin 6) (v : List Byte) (s : State) :
    Goes s (execEventForwardRemove r cluster v s) := by
  simp [execEventForwardRemove]

/-! ### Encoding streams as objects (R525, R526, R564) -/

@[simp] theorem State.encStream_pending (assign : Bool) (s : State) (v : List Byte) :
    (State.encStream assign s v).1.pending = s.pending := by
  simp [State.encStream]

@[simp] theorem State.doEncStream_pending (s : State) (c : Caller) (v : List Byte) :
    (s.doEncStream c v).1.pending = s.pending := by
  simp [State.doEncStream]

@[simp] theorem execEncStreamAssign_goes (r : Req) (v : List Byte) (s : State) : Goes s (execEncStreamAssign r v s) := by
  simp [execEncStreamAssign]

@[simp] theorem execEncStreamRelease_goes (r : Req) (v : List Byte) (s : State) : Goes s (execEncStreamRelease r v s) := by
  simp [execEncStreamRelease]

@[simp] theorem State.doEncCountersClear_pending (s : State) (c : Caller) (v : List Byte) :
    (s.doEncCountersClear c v).1.pending = s.pending := by
  simp [State.doEncCountersClear]

@[simp] theorem execEncCountersClear_goes (r : Req) (v : List Byte) (s : State) : Goes s (execEncCountersClear r v s) := by
  simp [execEncCountersClear]

/-! ### Groups and their trees (R536, R537) -/

@[simp] theorem State.setGroup_pending (s : State) (g : Nat) (v : Group) : (s.setGroup g v).pending = s.pending := by
  simp [State.setGroup]

/-! ### Collective commands in progress -/

@[simp] theorem State.modColl_pending (s : State) (g seq : Nat) (f : CollOp → CollOp) :
    (s.modColl g seq f).pending = s.pending := by
  simp [State.modColl]

@[simp] theorem State.dropColl_pending (s : State) (g seq : Nat) : (s.dropColl g seq).pending = s.pending := by
  simp [State.dropColl]

@[simp] theorem State.failColl_pending (s : State) (o : CollOp) (f : PitchFault) : (s.failColl o f).pending = s.pending := by
  unfold State.failColl
  split <;> simp

@[simp] theorem State.queueDue_pending (s : State) (pitch : Nat) (p : Packet) : (s.queueDue pitch p).pending = s.pending := by
  simp [State.queueDue]

@[simp] theorem State.collSend_pending (s : State) (o : CollOp) (ps : List Packet) : (s.collSend o ps).pending = s.pending := by
  simp only [State.collSend]
  refine foldl_pending (fun t p => ?_) _ _
  split
  · simp
  · split
    · next h => exact State.inject_pending h
    · simp
    · simp

@[simp] theorem State.sendDue_pending (s : State) : s.sendDue.pending = s.pending := by
  simp only [State.sendDue]
  refine (foldl_pending (fun t e => ?_) _ _).trans rfl
  split
  · simp
  · split
    · next h => exact State.inject_pending h
    · simp
    · simp

theorem State.collResult_pending (s : State) (o : CollOp) (k : Nat) (bytes : Option (List Byte)) {r : State}
    (h : s.collResult o k bytes = some r) : r.pending = s.pending := by
  simp only [State.collResult] at h
  split at h
  · cases h
    split
    · simp
    · split <;> simp
  · split at h
    · cases h
    · next hw =>
      cases h
      simpa using fst_pending_of_eq hw (by simp)
    · next s1 hw =>
      have hs1 : s1.pending = s.pending := fst_pending_of_eq hw (by simp)
      split at h
      · cases h
        split
        · simp [hs1]
        · split <;> simp [hs1]
      · cases h
        split
        · simp [hs1]
        · split <;> simp [hs1]

@[simp] theorem State.stallResult_pending (s : State) (o : CollOp) (k : Nat) : (s.stallResult o k).pending = s.pending := by
  unfold State.stallResult
  split <;> simp

/-! ### Reduction (R540 to R542) -/

@[simp] theorem State.abortColl_pending (s : State) (o : CollOp) : (s.abortColl o).pending = s.pending := by
  simp [State.abortColl]

theorem State.finishReduction_pending (s : State) (o : CollOp) (k : Reduction) {t : State} (h : s.finishReduction o k = some t) :
    t.pending = s.pending := by
  simp only [State.finishReduction] at h
  split at h
  · split at h
    · exact (State.collResult_pending _ _ _ _ h).trans (by simp)
    · cases h; simp
  · split at h
    · cases h; simp
    · refine (State.collResult_pending _ _ _ _ h).trans ?_
      split <;> simp

theorem State.contribute_pending (s : State) (source : Nat) (c : Reduction) {r : State} (h : s.contribute source c = some r) :
    r.pending = s.pending := by
  simp only [State.contribute] at h
  split at h
  · split at h
    · cases h
    · split at h
      · exact (State.finishReduction_pending _ _ _ h).trans rfl
      · cases h; rfl
  · split at h
    · cases h; rfl
    · split at h
      · exact (State.finishReduction_pending _ _ _ h).trans rfl
      · cases h; rfl

theorem State.collNext_pending (s : State) (g : Nat) {r : State} (h : s.collNext g = some r) : r.pending = s.pending := by
  grind [State.collNext, State.modColl_pending, State.bump_pending, State.dropColl_pending, State.collSend_pending,
    State.collResult_pending, State.contribute_pending]

@[simp] theorem State.pumpGroup_pending (s : State) (g : Nat) : (s.pumpGroup g).pending = s.pending := by
  simp only [State.pumpGroup]
  refine foldl_fst_pending (fun acc x => ?_) _ _
  split
  · rfl
  · split
    · next h => exact State.collNext_pending _ _ h
    · exact elim_pending fun o => State.stallResult_pending ..

/-! ### Barriers (R545) -/

@[simp] theorem State.releaseBarrier_pending (s : State) (g : Nat) : (s.releaseBarrier g).pending = s.pending := by
  grind [State.releaseBarrier, State.collSend_pending, State.bump_pending, State.dropColl_pending]

@[simp] theorem State.settleBarrier_pending (s : State) (g : Nat) : (s.settleBarrier g).pending = s.pending := by
  unfold State.settleBarrier
  repeat' split
  all_goals simp

@[simp] theorem State.serveGroup_pending (s : State) (g : Nat) : (s.serveGroup g).pending = s.pending := by
  grind [State.serveGroup, State.settleBarrier_pending, State.pumpGroup_pending]

@[simp] theorem State.serveGroups_pending (s : State) : s.serveGroups.pending = s.pending := by simp [State.serveGroups]

/-! ### FCOLL and FGLOBAL (R538, R539, R544) -/

@[simp] theorem State.joinColl_pending (s : State) (o : CollOp) : (s.joinColl o).pending = s.pending := by simp [State.joinColl]

@[simp] theorem State.fcollWork_pending (s : State) (i d : Nat) : (s.fcollWork i d).s.pending = s.pending := by
  generalize hf : @State.fcollWork = f
  delta State.fcollWork at hf
  subst hf
  induction @firstFault using for_any with | any f0
  induction @field using for_any with | any f1
  induction @onlyBits using for_any with | any f2
  dsimp only
  repeat' split
  all_goals simp

@[simp] theorem State.fcoll_pending (s : State) (u : SlotRef) (w : CmdWord) (cop : Nat) :
    (s.fcoll u w cop).pending = s.pending := by
  simp [State.fcoll]

@[simp] theorem execFcollAllreduce_goes (u : SlotRef) (w : CmdWord) (s : State) : Goes s (execFcollAllreduce u w s) := by
  simp [execFcollAllreduce]

@[simp] theorem execFcollReduce_goes (u : SlotRef) (w : CmdWord) (s : State) : Goes s (execFcollReduce u w s) := by
  simp [execFcollReduce]

@[simp] theorem execFcollBroadcast_goes (u : SlotRef) (w : CmdWord) (s : State) : Goes s (execFcollBroadcast u w s) := by
  simp [execFcollBroadcast]

@[simp] theorem State.fglobalWork_pending (s : State) (i d : Nat) : (s.fglobalWork i d).s.pending = s.pending := by
  generalize hf : @State.fglobalWork = f
  delta State.fglobalWork at hf
  subst hf
  induction @firstFault using for_any with | any f0
  induction @field using for_any with | any f1
  induction @onlyBits using for_any with | any f2
  dsimp only
  repeat' split
  all_goals simp

@[simp] theorem State.fglobal_pending (s : State) (u : SlotRef) (w : CmdWord) (gop : Nat) :
    (s.fglobal u w gop).pending = s.pending := by
  simp [State.fglobal]

@[simp] theorem execFglobalBarrier_goes (u : SlotRef) (w : CmdWord) (s : State) : Goes s (execFglobalBarrier u w s) := by
  simp [execFglobalBarrier]

@[simp] theorem execFglobalBroadcast_goes (u : SlotRef) (w : CmdWord) (s : State) : Goes s (execFglobalBroadcast u w s) := by
  simp [execFglobalBroadcast]

/-! ### Packets of the tree (R539, R542, R545, R546) -/

@[simp] theorem takeCollUp_pending (pkt : Packet) (s : State) : (takeCollUp pkt s).1.pending = s.pending := by
  simp only [takeCollUp]
  split
  · rfl
  · split
    · split
      · rfl
      · cases h : s.contribute pkt.srcUnit.module (contributionOf pkt) with
        | none => rfl
        | some t => exact State.contribute_pending _ _ _ h
    · split
      · simp
      · split
        · next h => exact (State.serveGroup_pending ..).trans (State.contribute_pending _ _ _ h)
        · simp

@[simp] theorem execCollUp_goes (pkt : Packet) (s : State) : Goes s (execCollUp pkt s) := by simp [execCollUp]

@[simp] theorem takeCollDown_pending (pkt : Packet) (s : State) : (takeCollDown pkt s).1.pending = s.pending := by
  grind [takeCollDown, State.abortColl_pending, State.collResult_pending, State.collSend_pending, State.stallResult_pending,
    State.serveGroup_pending]

@[simp] theorem execCollDown_goes (pkt : Packet) (s : State) : Goes s (execCollDown pkt s) := by simp [execCollDown]

@[simp] theorem State.noteArrival_pending (s : State) (group module : Nat) :
    (s.noteArrival group module).pending = s.pending := by
  simp [State.noteArrival]

@[simp] theorem execGlobalBarrierArrival_goes (group module tenant : Nat) (s : State) :
    Goes s (execGlobalBarrierArrival group module tenant s) := by
  simp [execGlobalBarrierArrival]

@[simp] theorem execGlobalBarrierRelease_goes (group tenant : Nat) (s : State) :
    Goes s (execGlobalBarrierRelease group tenant s) := by
  simp [execGlobalBarrierRelease]

@[simp] theorem takeBroadcast_pending (pkt : Packet) (s : State) : (takeBroadcast pkt s).1.pending = s.pending := by
  grind [takeBroadcast, State.collResult_pending, State.collSend_pending, State.stallResult_pending, State.bump_pending,
    State.dropColl_pending]

@[simp] theorem execGlobalBroadcastPacket_goes (group tenant : Nat) (payload : List Byte) (s : State) :
    Goes s (execGlobalBroadcastPacket group tenant payload s) := by
  simp [execGlobalBroadcastPacket]

/-! ### Groups as objects (R536, R541, R563) -/

@[simp] theorem State.doCollGroupDefine_pending (g : Nat) (s : State) (c : Caller) (v : List Byte) :
    (State.doCollGroupDefine g s c v).1.pending = s.pending := by
  simp [State.doCollGroupDefine]

@[simp] theorem execCollGroupDefine_goes (r : Req) (group : Fin 64) (v : List Byte) (s : State) :
    Goes s (execCollGroupDefine r group v s) := by
  simp [execCollGroupDefine]

@[simp] theorem State.removeGroup_pending (s : State) (g : Nat) : (s.removeGroup g).pending = s.pending := by
  simp [State.removeGroup]

@[simp] theorem State.doCollGroupRemove_pending (g : Nat) (s : State) (c : Caller) (v : List Byte) :
    (State.doCollGroupRemove g s c v).1.pending = s.pending := by
  simp [State.doCollGroupRemove]

@[simp] theorem execCollGroupRemove_goes (r : Req) (group : Fin 64) (v : List Byte) (s : State) :
    Goes s (execCollGroupRemove r group v s) := by
  simp [execCollGroupRemove]

/-! ### Port states (R501 to R503, R554 to R557) -/

@[simp] theorem State.portTo_pending (s : State) (p : Nat) (st : PortState) : (s.portTo p st).pending = s.pending := by
  simp [State.portTo]

@[simp] theorem State.useDetour_pending (s : State) (p : Nat) : (s.useDetour p).pending = s.pending := by simp [State.useDetour]

@[simp] theorem State.idleDetour_pending (s : State) (p : Nat) : (s.idleDetour p).pending = s.pending := by
  simp [State.idleDetour]

@[simp] theorem execPortTrainingDone_goes (port : Fin 6) (farModule farPort : Nat) (s : State) :
    Goes s (execPortTrainingDone port farModule farPort s) := by
  simp [execPortTrainingDone]

@[simp] theorem execPortDown_goes (port : Fin 6) (lane : Option (Bool × Fin 4)) (s : State) :
    Goes s (execPortDown port lane s) := by
  unfold execPortDown
  split <;> simp

@[simp] theorem execPortTrainingRetry_goes (port : Fin 6) (s : State) : Goes s (execPortTrainingRetry port s) := by
  simp [execPortTrainingRetry]

@[simp] theorem State.parkPort_pending (s : State) (p : Nat) : (s.parkPort p).pending = s.pending := by
  unfold State.parkPort
  split <;> simp

@[simp] theorem State.trainPort_pending (s : State) (p : Nat) : (s.trainPort p).pending = s.pending := by simp [State.trainPort]

@[simp] theorem State.writePortEnable_pending (p : Nat) (s : State) (c : Caller) (v : Nat) :
    (State.writePortEnable p s c v).1.pending = s.pending := by
  simp [State.writePortEnable]

@[simp] theorem execPortEnable_goes (r : Req) (port : Fin 6) (v : List Byte) (s : State) :
    Goes s (execPortEnable r port v s) := by
  simp [execPortEnable]

@[simp] theorem execFlitCrcError_goes (port : Fin 6) (seq : Nat) (s : State) : Goes s (execFlitCrcError port seq s) := by
  simp [execFlitCrcError]

/-! ### Forwarding (R508 to R514, R554, R556) -/

@[simp] theorem State.putOut_pending (s : State) (p : Packet) (port vc : Nat) (detour : Bool) :
    (s.putOut p port vc detour).pending = s.pending := by
  simp [State.putOut]

@[simp] theorem State.unreachableNack_pending (s : State) (p : Packet) : (s.unreachableNack p).pending = s.pending := by
  simp [State.unreachableNack]

@[simp] theorem State.holdPacket_pending (s : State) (pkt : Packet) (port : Nat) :
    (s.holdPacket pkt port).pending = s.pending := by
  simp [State.holdPacket]

@[simp] theorem execPacketForward_goes (port : Fin 6) (pkt : Packet) (s : State) : Goes s (execPacketForward port pkt s) := by
  simp only [execPacketForward]
  repeat' split
  all_goals simp [*]

@[simp] theorem State.unhold_pending (s : State) (index : Nat) : (s.unhold index).pending = s.pending := by simp [State.unhold]

@[simp] theorem execEscapeWaitExpiry_goes (index : Nat) (s : State) : Goes s (execEscapeWaitExpiry index s) := by
  simp only [execEscapeWaitExpiry]
  repeat' split
  all_goals simp [*]

/-! ### Fabric time (R48, R551 to R553) -/

@[simp] theorem State.alignTime_pending (s : State) (offset : Int) : (s.alignTime offset).pending = s.pending := by
  simp [State.alignTime]

@[simp] theorem State.sendTime_pending (s : State) (p : Nat) (payload : List Byte) :
    (s.sendTime p payload).pending = s.pending := by
  simp [State.sendTime]

@[simp] theorem State.answerTime_pending (s : State) (p t1 : Nat) : (s.answerTime p t1).pending = s.pending := by
  simp [State.answerTime]

@[simp] theorem execTimeExchange_goes (child : Option (Fin 6 × Nat)) (s : State) : Goes s (execTimeExchange child s) := by
  unfold execTimeExchange
  split
  · simp
  · split <;> simp

@[simp] theorem State.takeExchange_pending (s : State) (delay offset : Int) :
    (s.takeExchange delay offset).pending = s.pending := by
  simp [State.takeExchange]

@[simp] theorem execTimePacket_goes (t1 t2 t3 t4 : Nat) (s : State) : Goes s (execTimePacket t1 t2 t3 t4 s) := by
  simp [execTimePacket]

@[simp] theorem State.beginHoldover_pending (s : State) : s.beginHoldover.pending = s.pending := by simp [State.beginHoldover]

@[simp] theorem execTimeHoldover_goes (s : State) : Goes s (execTimeHoldover s) := by simp [execTimeHoldover]

@[simp] theorem State.takeRoot_pending (s : State) (root : Nat) : (s.takeRoot root).pending = s.pending := by
  simp [State.takeRoot]

@[simp] theorem execTimeRootTakeover_goes (root : Nat) (s : State) : Goes s (execTimeRootTakeover root s) := by
  simp [execTimeRootTakeover]

/-! ### Samples (R569 to R577) -/

@[simp] theorem State.modListen_pending (s : State) (f : Listening → Listening) : (s.modListen f).pending = s.pending := by
  simp [State.modListen]

@[simp] theorem State.narrowBeam_pending (s : State) (x : Word) : (s.narrowBeam x).1.pending = s.pending := by
  unfold State.narrowBeam
  split <;> simp

@[simp] theorem State.trimChannel_pending (s : State) (c : Nat) (v : Int) : (s.trimChannel c v).pending = s.pending := by
  simp [State.trimChannel]

@[simp] theorem State.countSat_pending (s : State) (n : Nat) : (s.countSat n).pending = s.pending := by simp [State.countSat]

@[simp] theorem State.formBeams_pending (s : State) : s.formBeams.1.pending = s.pending := by simp [State.formBeams]

@[simp] theorem State.endBlock_pending (s : State) (n : Nat) : (s.endBlock n).pending = s.pending := by simp [State.endBlock]

@[simp] theorem State.takeChannels_pending (s : State) (samples : List Int) : (s.takeChannels samples).1.pending = s.pending := by
  simp [State.takeChannels]

@[simp] theorem execAudioSample_goes (samples : List Int) (s : State) : Goes s (execAudioSample samples s) := by
  simp [execAudioSample]

/-! ### The ring as blocks (R577, R580, R594) -/

@[simp] theorem State.commitBlock_pending (s : State) (k b : Nat) (replay : Bool) :
    (s.commitBlock k b replay).pending = s.pending := by
  simp [State.commitBlock]

@[simp] theorem State.startStream_pending (s : State) (k t : Nat) : (s.startStream k t).pending = s.pending := by
  simp [State.startStream]

@[simp] theorem State.skipBlock_pending (s : State) (k b : Nat) : (s.skipBlock k b).pending = s.pending := by
  simp [State.skipBlock]

@[simp] theorem execAudioBlockCommit_goes (stream : Fin 4) (s : State) : Goes s (execAudioBlockCommit stream s) := by
  simp only [execAudioBlockCommit]
  repeat' split
  all_goals simp [*]

@[simp] theorem execReplayBlock_goes (stream : Fin 4) (s : State) : Goes s (execReplayBlock stream s) := by simp [execReplayBlock]

/-! ### L0, L1 and the cascade (R581 to R591) -/

@[simp] theorem State.scoreBeam_pending (s : State) (b score : Nat) : (s.scoreBeam b score).pending = s.pending := by
  simp [State.scoreBeam]

@[simp] theorem execL0Frame_goes (scores : List Nat) (s : State) : Goes s (execL0Frame scores s) := by simp [execL0Frame]

@[simp] theorem State.recordTrigger_pending (s : State) (beam : Nat) : (s.recordTrigger beam).pending = s.pending := by
  simp [State.recordTrigger]

@[simp] theorem execL1Hop_goes (scores : List Nat) (s : State) : Goes s (execL1Hop scores s) := by
  unfold execL1Hop
  split
  · simp
  · split <;> simp

@[simp] theorem State.callClusters_pending (s : State) (ns : List Nat) : (s.callClusters ns).pending = s.pending := by
  simp [State.callClusters]

@[simp] theorem State.startStagePitch_pending (s : State) (p : Nat) : (s.startStagePitch p).pending = s.pending := by
  simp [State.startStagePitch]

@[simp] theorem State.awakenStage_pending (s : State) (k : Nat) : (s.awakenStage k).pending = s.pending := by
  simp [State.awakenStage]

@[simp] theorem execStageWake_goes (s : State) : Goes s (execStageWake s) := by
  unfold execStageWake
  split <;> simp

@[simp] theorem execStageTimeout_goes (stage : Nat) (s : State) : Goes s (execStageTimeout stage s) := by simp [execStageTimeout]

@[simp] theorem execDropGraceExpiry_goes (s : State) : Goes s (execDropGraceExpiry s) := by
  unfold execDropGraceExpiry
  split <;> simp

@[simp] theorem execWakeOutHoldExpiry_goes (s : State) : Goes s (execWakeOutHoldExpiry s) := by simp [execWakeOutHoldExpiry]

@[simp] theorem State.restartRing_pending (s : State) : s.restartRing.pending = s.pending := by simp [State.restartRing]

@[simp] theorem execLanternBrownout_goes (s : State) : Goes s (execLanternBrownout s) := by simp [execLanternBrownout]

/-! ### Glimpse (R595 to R597) -/

@[simp] theorem execGlimpseFrame_goes (stamp : Nat) (luma : List Byte) (s : State) : Goes s (execGlimpseFrame stamp luma s) := by
  simp only [execGlimpseFrame]
  repeat' split
  all_goals simp [*]

@[simp] theorem State.writeGlimpseEnable_pending (s : State) (c : Caller) (v : Nat) :
    (s.writeGlimpseEnable c v).1.pending = s.pending := by
  simp [State.writeGlimpseEnable]

@[simp] theorem execGlimpseEnable_goes (r : Req) (v : List Byte) (s : State) : Goes s (execGlimpseEnable r v s) := by
  simp [execGlimpseEnable]

/-! ### Playback (R598, R599) -/

@[simp] theorem State.endPlayed_pending (s : State) : s.endPlayed.pending = s.pending := by simp [State.endPlayed]

@[simp] theorem State.playBlock_pending (s : State) : s.playBlock.pending = s.pending := by simp [State.playBlock]

@[simp] theorem execPlaybackBlockDue_goes (s : State) : Goes s (execPlaybackBlockDue s) := by simp [execPlaybackBlockDue]

@[simp] theorem State.writePlaybackEnable_pending (s : State) (c : Caller) (v : Nat) :
    (s.writePlaybackEnable c v).1.pending = s.pending := by
  simp [State.writePlaybackEnable]

@[simp] theorem execPlaybackEnable_goes (r : Req) (v : List Byte) (s : State) : Goes s (execPlaybackEnable r v s) := by
  simp [execPlaybackEnable]

/-! ### The keyword model (R584, R685) -/

@[simp] theorem State.measure_pending (s : State) (register : Nat) (image : List Byte) :
    (s.measure register image).pending = s.pending := by
  simp [State.measure]

@[simp] theorem State.measureLantern_pending (s : State) : s.measureLantern.pending = s.pending := by simp [State.measureLantern]

@[simp] theorem State.doKwsModelLoad_pending (s : State) (c : Caller) (v : List Byte) :
    (s.doKwsModelLoad c v).1.pending = s.pending := by
  simp [State.doKwsModelLoad]

@[simp] theorem execKwsModelLoad_goes (r : Req) (v : List Byte) (s : State) : Goes s (execKwsModelLoad r v s) := by
  simp [execKwsModelLoad]

/-! ### Marks (R634) -/

@[simp] theorem State.modCams_pending (s : State) (g : Cameras → Cameras) : (s.modCams g).pending = s.pending := by
  simp [State.modCams]

@[simp] theorem State.modFrame_pending (s : State) (id : Nat) (g : Frame → Frame) : (s.modFrame id g).pending = s.pending := by
  simp [State.modFrame]

/-! ### Closing (R612, R616, R639) -/

@[simp] theorem State.closeFrame_pending (s : State) (f : Frame) (marks endStamp : Nat) :
    (s.closeFrame f marks endStamp).pending = s.pending := by
  simp [State.closeFrame]

@[simp] theorem State.tidyFrames_pending (s : State) : s.tidyFrames.pending = s.pending := by simp [State.tidyFrames]

/-! ### Short packets (R609 to R612) -/

@[simp] theorem State.checkHeader_pending (s : State) (p : Nat) (check : HeaderCheck) :
    (s.checkHeader p check).1.pending = s.pending := by
  unfold State.checkHeader
  split <;> simp

@[simp] theorem State.orderNumbers_pending (s : State) (stamp : Nat) : (s.orderNumbers stamp).pending = s.pending := by
  simp [State.orderNumbers]

@[simp] theorem State.startFrame_pending (s : State) (c : Nat) : (s.startFrame c).pending = s.pending := by
  simp [State.startFrame]

@[simp] theorem execCsiFrameStart_goes (port vc : Fin 4) (check : HeaderCheck) (s : State) :
    Goes s (execCsiFrameStart port vc check s) := by
  simp only [execCsiFrameStart]
  split
  · simp
  · split
    · next h => exact goes_next.mpr (fst_pending_of_eq h (by simp))
    · next s1 h =>
      have hs1 : s1.pending = s.pending := fst_pending_of_eq h (by simp)
      cases s1.openFrame (4 * port.val + vc.val) <;> split <;> simp [hs1]

@[simp] theorem execCsiFrameEnd_goes (port vc : Fin 4) (check : HeaderCheck) (s : State) :
    Goes s (execCsiFrameEnd port vc check s) := by
  simp only [execCsiFrameEnd]
  split
  · simp
  · split
    · next h => exact goes_next.mpr (fst_pending_of_eq h (by simp))
    · next s1 h =>
      have hs1 : s1.pending = s.pending := fst_pending_of_eq h (by simp)
      split
      · exact goes_next.mpr hs1
      · split <;> simp [hs1]

@[simp] theorem execFrameTimeout_goes (ctx : Fin 16) (s : State) : Goes s (execFrameTimeout ctx s) := by
  unfold execFrameTimeout
  split <;> simp

/-! ### Long packets (R607 to R609, R612, R613, R616) -/

@[simp] theorem State.overflowLine_pending (s : State) (p : Nat) (f : Frame) : (s.overflowLine p f).pending = s.pending := by
  simp [State.overflowLine]

@[simp] theorem State.placeLine_pending (s : State) (p : Nat) (f : Frame) (dataType : Nat) (payload : List Nat) (crcOk : Bool) :
    (s.placeLine p f dataType payload crcOk).pending = s.pending := by
  simp [State.placeLine]

@[simp] theorem execCsiLongPacket_goes (port vc : Fin 4) (dataType : Nat) (check : HeaderCheck) (payload : List Nat)
    (crcOk : Bool) (s : State) : Goes s (execCsiLongPacket port vc dataType check payload crcOk s) := by
  simp only [execCsiLongPacket]
  split
  · simp
  · split
    · next h => exact goes_next.mpr (fst_pending_of_eq h (by simp))
    · next s1 h =>
      have hs1 : s1.pending = s.pending := fst_pending_of_eq h (by simp)
      repeat' split
      all_goals simp [hs1]

/-! ### The arbiter (R614) -/

@[simp] theorem State.takeLine_pending (s : State) (p : Nat) : (s.takeLine p).pending = s.pending := by
  unfold State.takeLine
  split <;> simp

/-! ### Bands (R632 to R635) -/

@[simp] theorem State.openBand_pending (s : State) (f : Frame) (n : Nat) : (s.openBand f n).pending = s.pending := by
  simp [State.openBand]

@[simp] theorem State.beginBand_pending (s : State) (f : Frame) (n : Nat) : (s.beginBand f n).pending = s.pending := by
  simp [State.beginBand]

@[simp] theorem State.beginBands_pending (s : State) : s.beginBands.pending = s.pending := by simp [State.beginBands]

@[simp] theorem execLineArbitration_goes (s : State) : Goes s (execLineArbitration s) := by
  unfold execLineArbitration
  split
  · simp
  · split <;> simp

@[simp] theorem State.deliverBand_pending (s : State) (f : Frame) (n lines : Nat) (last : Bool) :
    (s.deliverBand f n lines last).pending = s.pending := by
  simp only [State.deliverBand]
  repeat' split
  all_goals simp [*]

@[simp] theorem State.serveBand_pending (s : State) (ctx n : Nat) : (s.serveBand ctx n).pending = s.pending := by
  unfold State.serveBand
  split
  · simp
  · split <;> simp

@[simp] theorem execBandCommit_goes (ctx : Fin 16) (out : Fin 3) (s : State) : Goes s (execBandCommit ctx out s) := by
  simp [execBandCommit]

@[simp] theorem State.closeCameras_pending (s : State) : s.closeCameras.pending = s.pending := by
  simp only [State.closeCameras, State.modCams_pending, State.tidyFrames_pending]
  rw [foldl_pending fun t x => ?_, foldl_pending fun t x => ?_, foldl_pending fun t f => ?_]
  · simp
  · split <;> simp
  · split <;> simp

/-! ### Frame sync and camera control (R638) -/

@[simp] theorem execFsyncPulse_goes (rising : Bool) (s : State) : Goes s (execFsyncPulse rising s) := by simp [execFsyncPulse]

@[simp] theorem State.beginCci_pending (s : State) (v : List Byte) : (s.beginCci v).pending = s.pending := by
  simp [State.beginCci]

@[simp] theorem State.doCciTransfer_pending (s : State) (c : Caller) (v : List Byte) :
    (s.doCciTransfer c v).1.pending = s.pending := by
  simp [State.doCciTransfer]

@[simp] theorem execCciTransfer_goes (r : Req) (v : List Byte) (s : State) : Goes s (execCciTransfer r v s) := by
  simp [execCciTransfer]

@[simp] theorem execCciTransferDone_goes (bus : Fin 2) (status : Nat) (data : List Byte) (s : State) :
    Goes s (execCciTransferDone bus status data s) := by
  simp [execCciTransferDone]

/-! ### Error protection and fault containment -/

@[simp] theorem State.modErrors_pending (s : State) (f : Errors → Errors) : (s.modErrors f).pending = s.pending := by
  simp [State.modErrors]

/-! ### The scrubber and the sweeps (R655, R656, R660 to R663) -/

@[simp] theorem State.poisonFrame_pending (s : State) (frame line : Nat) : (s.poisonFrame frame line).pending = s.pending := by
  unfold State.poisonFrame
  split <;> simp

@[simp] theorem State.scrubLine_pending (s : State) (cls frame : Nat) (f : Nat × Finding) :
    (s.scrubLine cls frame f).pending = s.pending := by
  simp [State.scrubLine]

@[simp] theorem execScrubSlice_goes (cls : Nat) (found : List (Nat × Finding)) (s : State) :
    Goes s (execScrubSlice cls found s) := by
  simp [execScrubSlice]

@[simp] theorem State.poisonSramLine_pending (s : State) (n line : Nat) : (s.poisonSramLine n line).pending = s.pending := by
  unfold State.poisonSramLine
  split <;> simp

@[simp] theorem State.sweptLine_pending (s : State) (n : Nat) (l : SweptLine) : (s.sweptLine n l).pending = s.pending := by
  simp [State.sweptLine]

@[simp] theorem State.sweptGround_pending (s : State) (l : SweptLine) : (s.sweptGround l).pending = s.pending := by
  simp [State.sweptGround]

@[simp] theorem execSramSweep_goes (cluster : Fin 6) (found : List SweptLine) (s : State) :
    Goes s (execSramSweep cluster found s) := by
  simp [execSramSweep]

@[simp] theorem execGroundsheetSweep_goes (found : List SweptLine) (s : State) : Goes s (execGroundsheetSweep found s) := by
  simp [execGroundsheetSweep]

@[simp] theorem execCeWindow_goes (s : State) : Goes s (execCeWindow s) := by simp [execCeWindow]

/-! ### The fault log in flash (R669) -/

@[simp] theorem execFaultLogCommit_goes (s : State) : Goes s (execFaultLogCommit s) := by simp [execFaultLogCommit]

@[simp] theorem State.doFaultLogClear_pending (s : State) (c : Caller) (v : List Byte) :
    (s.doFaultLogClear c v).1.pending = s.pending := by
  simp [State.doFaultLogClear]

@[simp] theorem execFaultLogClear_goes (r : Req) (v : List Byte) (s : State) : Goes s (execFaultLogClear r v s) := by
  simp [execFaultLogClear]

/-! ### Islands (R670, R671, R677, R678) -/

@[simp] theorem State.brownPitches_pending (s : State) (island : Nat) (ps : List Nat) :
    (s.brownPitches island ps).pending = s.pending := by
  simp [State.brownPitches]

@[simp] theorem State.loseCore_pending (s : State) (c : Nat) : (s.loseCore c).pending = s.pending := by simp [State.loseCore]

@[simp] theorem State.loseCluster_pending (s : State) (n : Nat) : (s.loseCluster n).pending = s.pending := by
  simp [State.loseCluster]

@[simp] theorem State.poisonCluster_pending (s : State) (n : Nat) : (s.poisonCluster n).pending = s.pending := by
  simp [State.poisonCluster]

@[simp] theorem State.loseRouter_pending (s : State) : s.loseRouter.pending = s.pending := by simp [State.loseRouter]

@[simp] theorem State.loseListening_pending (s : State) : s.loseListening.pending = s.pending := by simp [State.loseListening]

@[simp] theorem State.loseIsland_pending (s : State) (k : Nat) : (s.loseIsland k).pending = s.pending := by
  unfold State.loseIsland
  repeat' split
  all_goals simp

@[simp] theorem State.islandDown_pending (s : State) (k outcome : Nat) : (s.islandDown k outcome).pending = s.pending := by
  simp [State.islandDown]

@[simp] theorem execIslandBrownout_goes (island : Nat) (s : State) : Goes s (execIslandBrownout island s) := by
  simp [execIslandBrownout]

@[simp] theorem State.resume_pending (s : State) : s.resume.pending = s.pending := by simp [State.resume]

@[simp] theorem execIslandReturn_goes (island : Nat) (s : State) : Goes s (execIslandReturn island s) := by
  simp [execIslandReturn]

@[simp] theorem execCoreHeartbeatMiss_goes (c : CoreRef) (s : State) : Goes s (execCoreHeartbeatMiss c s) := by
  simp [execCoreHeartbeatMiss]

/-! ### Flash dies (R674, R678) -/

@[simp] theorem State.loseDie_pending (s : State) (die : Nat) : (s.loseDie die).pending = s.pending := by simp [State.loseDie]

@[simp] theorem State.failDie_pending (s : State) (d : Nat) : (s.failDie d).pending = s.pending := by simp [State.failDie]

@[simp] theorem execFlashDieFault_goes (channel die : Nat) (s : State) : Goes s (execFlashDieFault channel die s) := by
  simp [execFlashDieFault]

/-! ### Retirement (R673, R674) -/

@[simp] theorem State.recordRetire_pending (s : State) (key arg : Nat) (ev : FaultEntry) :
    (s.recordRetire key arg ev).pending = s.pending := by
  simp [State.recordRetire]

@[simp] theorem State.relocateAll_pending (s : State) : s.relocateAll.pending = s.pending := by simp [State.relocateAll]

@[simp] theorem State.retireFrame_pending (s : State) (f : Nat) : (s.retireFrame f).pending = s.pending := by
  simp [State.retireFrame]

@[simp] theorem State.doFrameRetire_pending (s : State) (c : Caller) (v : List Byte) :
    (s.doFrameRetire c v).1.pending = s.pending := by
  simp [State.doFrameRetire]

@[simp] theorem State.retireBank_pending (s : State) (d : Nat) : (s.retireBank d).pending = s.pending := by
  simp [State.retireBank]

@[simp] theorem State.doLpddrBankRetire_pending (s : State) (c : Caller) (v : List Byte) :
    (s.doLpddrBankRetire c v).1.pending = s.pending := by
  simp [State.doLpddrBankRetire]

@[simp] theorem State.retirePitches_pending (s : State) (ps : List Nat) : (s.retirePitches ps).pending = s.pending := by
  simp [State.retirePitches]

@[simp] theorem State.retireSram_pending (s : State) (d : Nat) : (s.retireSram d).pending = s.pending := by
  simp [State.retireSram]

@[simp] theorem State.retireCore_pending (s : State) (c : Nat) : (s.retireCore c).pending = s.pending := by
  simp [State.retireCore]

@[simp] theorem State.doSramBankRetire_pending (s : State) (c : Caller) (v : List Byte) :
    (s.doSramBankRetire c v).1.pending = s.pending := by
  simp [State.doSramBankRetire]

@[simp] theorem State.doCoreRetire_pending (s : State) (c : Caller) (v : List Byte) :
    (s.doCoreRetire c v).1.pending = s.pending := by
  simp [State.doCoreRetire]

@[simp] theorem State.doFlashDieRetire_pending (s : State) (c : Caller) (v : List Byte) :
    (s.doFlashDieRetire c v).1.pending = s.pending := by
  simp [State.doFlashDieRetire]

@[simp] theorem State.doRetireClear_pending (s : State) (c : Caller) (v : List Byte) :
    (s.doRetireClear c v).1.pending = s.pending := by
  simp [State.doRetireClear]

@[simp] theorem execFrameRetire_goes (r : Req) (v : List Byte) (s : State) : Goes s (execFrameRetire r v s) := by
  simp [execFrameRetire]

@[simp] theorem execLpddrBankRetire_goes (r : Req) (v : List Byte) (s : State) : Goes s (execLpddrBankRetire r v s) := by
  simp [execLpddrBankRetire]

@[simp] theorem execSramBankRetire_goes (r : Req) (v : List Byte) (s : State) : Goes s (execSramBankRetire r v s) := by
  simp [execSramBankRetire]

@[simp] theorem execCoreRetire_goes (r : Req) (v : List Byte) (s : State) : Goes s (execCoreRetire r v s) := by
  simp [execCoreRetire]

@[simp] theorem execFlashDieRetire_goes (r : Req) (v : List Byte) (s : State) : Goes s (execFlashDieRetire r v s) := by
  simp [execFlashDieRetire]

@[simp] theorem execRetireClear_goes (r : Req) (v : List Byte) (s : State) : Goes s (execRetireClear r v s) := by
  simp [execRetireClear]

/-! ### The security island -/

@[simp] theorem State.modSec_pending (s : State) (f : Security → Security) : (s.modSec f).pending = s.pending := by
  simp [State.modSec]

@[simp] theorem State.setTenant_pending (s : State) (t : Nat) (v : Tenant) : (s.setTenant t v).pending = s.pending := by
  simp [State.setTenant]

@[simp] theorem State.modTenant_pending (s : State) (t : Nat) (f : Tenant → Tenant) : (s.modTenant t f).pending = s.pending := by
  simp [State.modTenant]

/-! ### Attestation (R686 to R688) -/

@[simp] theorem State.doAttestRequest_pending (s : State) (c : Caller) (v : List Byte) :
    (s.doAttestRequest c v).1.pending = s.pending := by
  simp [State.doAttestRequest]

@[simp] theorem execAttestRequest_goes (r : Req) (v : List Byte) (s : State) : Goes s (execAttestRequest r v s) := by
  simp [execAttestRequest]

@[simp] theorem State.signReport_pending (s : State) : s.signReport.pending = s.pending := by simp [State.signReport]

@[simp] theorem execAttestReportReady_goes (s : State) : Goes s (execAttestReportReady s) := by simp [execAttestReportReady]

@[simp] theorem execEphemeralKeyExpiry_goes (s : State) : Goes s (execEphemeralKeyExpiry s) := by simp [execEphemeralKeyExpiry]

/-! ### Sessions (R689 to R692) -/

@[simp] theorem State.openSession_pending (s : State) (who e : Nat) (peer : List Byte) (path : Path) :
    (s.openSession who e peer path).pending = s.pending := by
  simp [State.openSession]

@[simp] theorem State.doSessionOpen_pending (s : State) (c : Caller) (v : List Byte) :
    (s.doSessionOpen c v).1.pending = s.pending := by
  simp only [State.doSessionOpen]
  repeat' split
  all_goals simp [*]

@[simp] theorem execSessionOpen_goes (r : Req) (v : List Byte) (s : State) : Goes s (execSessionOpen r v s) := by
  simp [execSessionOpen]

@[simp] theorem State.closeSessions_pending (s : State) (gone : Session → Bool) : (s.closeSessions gone).pending = s.pending := by
  simp [State.closeSessions]

@[simp] theorem State.doSessionClose_pending (s : State) (c : Caller) (v : List Byte) :
    (s.doSessionClose c v).1.pending = s.pending := by
  simp [State.doSessionClose]

@[simp] theorem execSessionClose_goes (r : Req) (v : List Byte) (s : State) : Goes s (execSessionClose r v s) := by
  simp [execSessionClose]

@[simp] theorem execSessionIdleTimeout_goes (session : Nat) (s : State) : Goes s (execSessionIdleTimeout session s) := by
  simp [execSessionIdleTimeout]

/-! ### Debug and rollback (R693, R695, R727, R728) -/

@[simp] theorem State.doDebugUnlock_pending (s : State) (c : Caller) (v : List Byte) :
    (s.doDebugUnlock c v).1.pending = s.pending := by
  simp [State.doDebugUnlock]

@[simp] theorem execDebugUnlock_goes (r : Req) (v : List Byte) (s : State) : Goes s (execDebugUnlock r v s) := by
  simp [execDebugUnlock]

@[simp] theorem State.advanceRollback_pending (s : State) : s.advanceRollback.pending = s.pending := by
  simp [State.advanceRollback]

@[simp] theorem State.doRollbackAdvanceNow_pending (s : State) (c : Caller) (v : List Byte) :
    (s.doRollbackAdvanceNow c v).1.pending = s.pending := by
  simp [State.doRollbackAdvanceNow]

@[simp] theorem execRollbackAdvanceNow_goes (r : Req) (v : List Byte) (s : State) : Goes s (execRollbackAdvanceNow r v s) := by
  simp [execRollbackAdvanceNow]

@[simp] theorem execRollbackAdvance_goes (s : State) : Goes s (execRollbackAdvance s) := by simp [execRollbackAdvance]

/-! ### Key entries (R696, R698 to R700) -/

@[simp] theorem State.modKey_pending (s : State) (i : Nat) (f : KeyEntry → KeyEntry) : (s.modKey i f).pending = s.pending := by
  simp [State.modKey]

theorem State.makeKey_pending (s : State) (t epoch : Nat) (standing : Bool) (st : KeyState) (rekey pair : Nat) {r : Nat × State}
    (h : s.makeKey t epoch standing st rekey pair = some r) : r.2.pending = s.pending := by
  simp only [State.makeKey, Option.map_eq_some_iff] at h
  obtain ⟨i, -, rfl⟩ := h
  rfl

@[simp] theorem State.withKey_pending (s : State) (t epoch : Nat) (standing : Bool) (st : KeyState) :
    (s.withKey t epoch standing st).pending = s.pending := by
  simp only [State.withKey]
  refine getD_pending fun u hu => ?_
  obtain ⟨r, hr, rfl⟩ := Option.map_eq_some_iff.mp hu
  exact State.makeKey_pending _ _ _ _ _ _ _ hr

/-! ### Tenants (R696, R697, R710, R801) -/

@[simp] theorem State.makeTenant_pending (s : State) (v : List Byte) : (s.makeTenant v).pending = s.pending := by
  simp [State.makeTenant]

@[simp] theorem State.doTenantCreate_pending (s : State) (c : Caller) (v : List Byte) :
    (s.doTenantCreate c v).1.pending = s.pending := by
  simp [State.doTenantCreate]

@[simp] theorem execTenantCreate_goes (r : Req) (v : List Byte) (s : State) : Goes s (execTenantCreate r v s) := by
  simp [execTenantCreate]

@[simp] theorem State.writeRetention_pending (t : Nat) (s : State) (c : Caller) (v : Nat) :
    (State.writeRetention t s c v).1.pending = s.pending := by
  simp [State.writeRetention]

@[simp] theorem execRetentionDaysWrite_goes (r : Req) (tenant : Fin 64) (v : List Byte) (s : State) :
    Goes s (execRetentionDaysWrite r tenant v s) := by
  simp [execRetentionDaysWrite]

/-! ### Rolls (R707 to R709) -/

@[simp] theorem State.lateRoll_pending (s : State) (t : Nat) : (s.lateRoll t).pending = s.pending := by
  grind [State.lateRoll, State.modKey_pending, State.modTenant_pending, State.withKey_pending]

@[simp] theorem State.ownRoll_pending (s : State) (t : Nat) : (s.ownRoll t).pending = s.pending := by simp [State.ownRoll]

@[simp] theorem execPendingKeyCreate_goes (tenant : Fin 64) (s : State) : Goes s (execPendingKeyCreate tenant s) := by
  simp only [execPendingKeyCreate]
  repeat' split
  all_goals simp [*]

@[simp] theorem State.rollKey_pending (s : State) (t : Nat) : (s.rollKey t).pending = s.pending := by
  simp only [State.rollKey]
  repeat' split
  all_goals simp [*]

@[simp] theorem execDayKeyRoll_goes (tenant : Fin 64) (s : State) : Goes s (execDayKeyRoll tenant s) := by simp [execDayKeyRoll]

/-! ### Expiry (R710 to R715, R720) -/

@[simp] theorem State.fixSpans_pending (s : State) (es : List Nat) : (s.fixSpans es).pending = s.pending := by
  simp [State.fixSpans]

@[simp] theorem State.startFence_pending (s : State) (i : Nat) : (s.startFence i).pending = s.pending := by
  simp only [State.startFence]
  rw [State.modSec_pending, State.fixSpans_pending, State.countAborts_pending, State.ite_pending, State.withKey_pending,
    foldl_pending fun t k => ?_]
  · exact ite_keeps rfl rfl
  · simp

@[simp] theorem execExpiryFence_goes (entry : Nat) (s : State) : Goes s (execExpiryFence entry s) := by simp [execExpiryFence]

@[simp] theorem State.zeroise_pending (s : State) (es : List Nat) : (s.zeroise es).pending = s.pending := by simp [State.zeroise]

@[simp] theorem execExpiryDrainDone_goes (entry : Nat) (s : State) : Goes s (execExpiryDrainDone entry s) := by
  simp [execExpiryDrainDone]

@[simp] theorem State.cutReferences_pending (s : State) (entry : Nat) (cut : List (Nat × Nat × Nat)) :
    (s.cutReferences entry cut).pending = s.pending := by
  simp only [State.cutReferences]
  split
  · refine foldl_pending (fun t p => ?_) _ _
    split <;> simp
  · rw [State.bump_pending _ _ cut.length, foldl_pending fun t p => ?_]
    split <;> simp

@[simp] theorem execExpiryDrainCut_goes (entry : Nat) (s : State) : Goes s (execExpiryDrainCut entry s) := by
  simp [execExpiryDrainCut]

@[simp] theorem State.expireEntry_pending (s : State) (i : Nat) : (s.expireEntry i).pending = s.pending := by
  grind [State.expireEntry, State.modKey_pending, State.startFence_pending]

@[simp] theorem State.doEpochExpire_pending (s : State) (c : Caller) (v : List Byte) :
    (s.doEpochExpire c v).1.pending = s.pending := by
  simp only [State.doEpochExpire]
  repeat' split
  all_goals simp [*]

@[simp] theorem execEpochExpire_goes (r : Req) (v : List Byte) (s : State) : Goes s (execEpochExpire r v s) := by
  simp [execEpochExpire]

/-! ### Re-key (R716 to R720) -/

@[simp] theorem State.respan_pending (s : State) (i j : Nat) : (s.respan i j).pending = s.pending := by simp [State.respan]

theorem State.startRekey_pending (s : State) (t e i : Nat) (k : KeyEntry) {r : State} (h : s.startRekey t e i k = some r) :
    r.pending = s.pending := by
  simp only [State.startRekey, Option.map_eq_some_iff] at h
  obtain ⟨x, hx, rfl⟩ := h
  simpa using State.makeKey_pending _ _ _ _ _ _ _ hx

@[simp] theorem State.doRekeyStart_pending (s : State) (c : Caller) (v : List Byte) :
    (s.doRekeyStart c v).1.pending = s.pending := by
  grind [State.doRekeyStart, State.ownRoll_pending, State.startRekey_pending]

@[simp] theorem execRekeyStart_goes (r : Req) (v : List Byte) (s : State) : Goes s (execRekeyStart r v s) := by
  simp [execRekeyStart]

@[simp] theorem State.endRekey_pending (s : State) (i : Nat) (k : KeyEntry) : (s.endRekey i k).pending = s.pending := by
  simp [State.endRekey]

@[simp] theorem execRekeySweepDone_goes (tenant : Fin 64) (s : State) : Goes s (execRekeySweepDone tenant s) := by
  unfold execRekeySweepDone
  split <;> simp

/-! ### Packets of global operations (R517, R547 to R549) -/

@[simp] theorem State.broadcastGlobal_pending (s : State) (gop tag : Nat) : (s.broadcastGlobal gop tag).pending = s.pending := by
  simp [State.broadcastGlobal]

@[simp] theorem State.sendMarkers_pending (s : State) (tag : Nat) : (s.sendMarkers tag).pending = s.pending := by
  simp [State.sendMarkers]

@[simp] theorem State.setCut_pending (s : State) (c : Option Cut) : (s.setCut c).pending = s.pending := by simp [State.setCut]

/-! ### The parts of a removal (R721) -/

@[simp] theorem State.acceptRemoval_pending (s : State) (t : Nat) (fabric : Bool) :
    (s.acceptRemoval t fabric).pending = s.pending := by
  simp [State.acceptRemoval]

@[simp] theorem State.revokeTenant_pending (s : State) (t gen : Nat) : (s.revokeTenant t gen).pending = s.pending := by
  simp [State.revokeTenant]

@[simp] theorem State.endTenant_pending (s : State) (t : Nat) : (s.endTenant t).pending = s.pending := by simp [State.endTenant]

/-! ### Cuts (R547, R549) -/

@[simp] theorem State.finishCut_pending (s : State) (c : Cut) : (s.finishCut c).pending = s.pending := by simp [State.finishCut]

@[simp] theorem State.reportCut_pending (s : State) (c : Cut) : (s.reportCut c).pending = s.pending := by simp [State.reportCut]

@[simp] theorem State.cutCheckpoints_pending (s : State) (c : Cut) : (s.cutCheckpoints c).pending = s.pending := by
  simp [State.cutCheckpoints]

@[simp] theorem State.dropFenced_pending (s : State) (t : Nat) : (s.dropFenced t).pending = s.pending := by
  simp [State.dropFenced]

@[simp] theorem State.passMarkers_pending (s : State) : s.passMarkers.pending = s.pending := by
  unfold State.passMarkers
  split <;> simp

@[simp] theorem State.advanceCut_pending (s : State) : s.advanceCut.pending = s.pending := by
  simp only [State.advanceCut]
  split <;> simp

@[simp] theorem State.startCut_pending (s : State) (c : Cut) : (s.startCut c).pending = s.pending := by simp [State.startCut]

@[simp] theorem State.startTenantFence_pending (s : State) (t gen : Nat) : (s.startTenantFence t gen).pending = s.pending := by
  simp [State.startTenantFence]

@[simp] theorem State.advanceRemoval_pending (s : State) (t : Nat) : (s.advanceRemoval t).pending = s.pending := by
  simp [State.advanceRemoval]

@[simp] theorem State.afterRequests_pending (s : State) : s.afterRequests.pending = s.pending := by simp [State.afterRequests]

@[simp] theorem State.advanceCuts_pending (s : State) : s.advanceCuts.pending = s.pending := by simp [State.advanceCuts]

/-! ### Commands of a cut -/

@[simp] theorem State.doSnapshotStart_pending (s : State) (c : Caller) (v : List Byte) :
    (s.doSnapshotStart c v).1.pending = s.pending := by
  simp [State.doSnapshotStart]

@[simp] theorem execSnapshotStart_goes (r : Req) (v : List Byte) (s : State) : Goes s (execSnapshotStart r v s) := by
  simp [execSnapshotStart]

@[simp] theorem State.fenceTenant_pending (s : State) (t gen : Nat) : (s.fenceTenant t gen).pending = s.pending := by
  simp [State.fenceTenant]

@[simp] theorem State.doTenantFence_pending (s : State) (c : Caller) (v : List Byte) :
    (s.doTenantFence c v).1.pending = s.pending := by
  simp [State.doTenantFence]

@[simp] theorem execTenantFence_goes (r : Req) (v : List Byte) (s : State) : Goes s (execTenantFence r v s) := by
  simp [execTenantFence]

@[simp] theorem State.resetFabric_pending (s : State) : s.resetFabric.pending = s.pending := by simp [State.resetFabric]

@[simp] theorem State.doFabricReset_pending (s : State) (c : Caller) (v : List Byte) :
    (s.doFabricReset c v).1.pending = s.pending := by
  simp [State.doFabricReset]

@[simp] theorem execFabricReset_goes (r : Req) (v : List Byte) (s : State) : Goes s (execFabricReset r v s) := by
  simp [execFabricReset]

@[simp] theorem execFabricResetBroadcast_goes (s : State) : Goes s (execFabricResetBroadcast s) := by
  simp [execFabricResetBroadcast]

@[simp] theorem execMarker_goes (port : Fin 6) (vc : Nat) (s : State) : Goes s (execMarker port vc s) := by
  unfold execMarker
  split <;> simp

@[simp] theorem execSnapshotBroadcast_goes (tenant origin : Nat) (s : State) :
    Goes s (execSnapshotBroadcast tenant origin s) := by
  simp [execSnapshotBroadcast]

@[simp] theorem execTenantFenceBroadcast_goes (tenant gen origin : Nat) (s : State) :
    Goes s (execTenantFenceBroadcast tenant gen origin s) := by
  simp [execTenantFenceBroadcast]

@[simp] theorem execGlobalReport_goes (module : Nat) (s : State) : Goes s (execGlobalReport module s) := by
  unfold execGlobalReport
  split <;> simp

/-! ### Tenant removal (R721, R722) -/

@[simp] theorem State.doTenantRemove_pending (s : State) (c : Caller) (v : List Byte) :
    (s.doTenantRemove c v).1.pending = s.pending := by
  simp [State.doTenantRemove]

@[simp] theorem execTenantRemove_goes (r : Req) (v : List Byte) (s : State) : Goes s (execTenantRemove r v s) := by
  simp [execTenantRemove]

@[simp] theorem execTenantRemoveFabric_goes (r : Req) (v : List Byte) (s : State) : Goes s (execTenantRemoveFabric r v s) := by
  simp [execTenantRemoveFabric]

/-! ### The key store's commit (R701, R711 step 5, R721) -/

@[simp] theorem State.freeFenced_pending (s : State) : s.freeFenced.pending = s.pending := by
  unfold State.freeFenced
  split <;> simp

@[simp] theorem State.freeTenants_pending (s : State) : s.freeTenants.pending = s.pending := by simp [State.freeTenants]

@[simp] theorem State.latchStore_pending (s : State) : s.latchStore.pending = s.pending := by simp [State.latchStore]

@[simp] theorem execKeyStoreCommit_goes (s : State) : Goes s (execKeyStoreCommit s) := by simp [execKeyStoreCommit]

/-! ### The ends of what is in progress -/

@[simp] theorem State.afterAnswer_pending (s : State) : s.afterAnswer.pending = s.pending := by simp [State.afterAnswer]

/-! ### Answers of this module's memory (R226) -/

@[simp] theorem State.noteRead_pending (s : State) (e : TagEntry) (poison : Option Nat) (found : Finding) (line : Nat) :
    (s.noteRead e poison found line).pending = s.pending := by
  unfold State.noteRead
  split <;> simp

@[simp] theorem execReadResponse_goes (tag : Nat) (poison : Option Nat) (found : Finding) (line : Nat) (s : State) :
    Goes s (execReadResponse tag poison found line s) := by
  simp only [execReadResponse]
  repeat' split
  all_goals simp [*]

@[simp] theorem execWriteCommitAck_goes (tag : Nat) (s : State) : Goes s (execWriteCommitAck tag s) := by
  simp only [execWriteCommitAck]
  repeat' split
  all_goals simp [*]

/-! ### Answers of other modules' routers (R522, R523) -/

@[simp] theorem State.answered_pending (s : State) (slot tag : Nat) : (s.answered slot tag).pending = s.pending := by
  simp [State.answered]

@[simp] theorem State.writeOn_pending (s : State) (j : Job) (tag : Nat) (writes : List Nat) :
    (s.writeOn j tag writes).pending = s.pending := by
  simp [State.writeOn]

@[simp] theorem takeReadData_pending (pkt : Packet) (s : State) : (takeReadData pkt s).1.pending = s.pending := by
  simp only [takeReadData]
  repeat' split
  all_goals simp [*]

@[simp] theorem execReadData_goes (pkt : Packet) (s : State) : Goes s (execReadData pkt s) := by simp [execReadData]

@[simp] theorem State.takeWriteAck_pending (s : State) (pkt : Packet) : (s.takeWriteAck pkt).pending = s.pending := by
  unfold State.takeWriteAck
  repeat' split
  all_goals simp

@[simp] theorem execWriteAck_goes (pkt : Packet) (s : State) : Goes s (execWriteAck pkt s) := by simp [execWriteAck]

@[simp] theorem State.takeNack_pending (s : State) (pkt : Packet) : (s.takeNack pkt).pending = s.pending := by
  unfold State.takeNack
  repeat' split
  all_goals simp

@[simp] theorem execNack_goes (pkt : Packet) (s : State) : Goes s (execNack pkt s) := by simp [execNack]

/-! ### Packets that waited (R514, R558) -/

@[simp] theorem takeByKind_pending (pkt : Packet) (s : State) : (takeByKind pkt s).1.pending = s.pending := by
  grind [takeByKind, takeWrite_pending, takeReadReq_pending, takeReadData_pending, takeCollUp_pending, takeCollDown_pending,
    takeBroadcast_pending, State.takeWriteAck_pending, State.takeMsg_pending, State.takeMsgCredit_pending,
    State.takeEvent_pending, State.takeNack_pending]

@[simp] theorem State.serveArrivals_pending (s : State) : s.serveArrivals.pending = s.pending := by simp [State.serveArrivals]

/-! ### Completion (R101, R132, R216, R332, R393) -/

@[simp] theorem State.applyDone_pending (s : State) (d : Done) : (s.applyDone d).pending = s.pending := by
  unfold State.applyDone
  split <;> simp

/-! ### Steps and packets (R101, R134 to R137) -/

theorem State.laterStep?_pending (s : State) (i : Nat) (e : Engine) {r : State} (h : s.laterStep? i e = some r) :
    r.pending = s.pending := by
  simp only [State.laterStep?, Option.bind_eq_some_iff] at h
  obtain ⟨j, -, hj⟩ := h
  split at hj
  · cases hj
  · obtain ⟨x, -, rfl⟩ := Option.map_eq_some_iff.mp hj
    split <;> simp

@[simp] theorem State.laterStep_pending (s : State) (i : Nat) (e : Engine) : (s.laterStep i e).pending = s.pending :=
  getD_pending fun _ => State.laterStep?_pending s i e

@[simp] theorem State.goOn_pending (s : State) (i : Nat) (e : Engine) : (s.goOn i e).pending = s.pending := by
  unfold State.goOn
  split <;> simp

@[simp] theorem State.startFreed_pending (s : State) (c : Nat) : (s.startFreed c).pending = s.pending := by
  unfold State.startFreed
  refine foldl_pending (fun _ _ => ?_) _ _
  split <;> simp

@[simp] theorem State.trapAt_pending (s : State) (j : Job) : (s.trapAt j).pending = s.pending := by simp [State.trapAt]

@[simp] theorem execEngineStepEnd_goes (cr : CoreRef) (e : Engine) (cycles : Nat) (s : State) :
    Goes s (execEngineStepEnd cr e cycles s) := by
  simp only [execEngineStepEnd]
  repeat' split
  all_goals simp [*]

@[simp] theorem State.runSteps_pending (i : Nat) (e : Engine) (n : Nat) (s : State) :
    (State.runSteps i e n s).pending = s.pending := by
  induction n generalizing s with
  | zero => rfl
  | succ n ih =>
    rw [State.runSteps]
    split
    · rfl
    · split
      · rfl
      · split
        · simp
        · split
          · rfl
          · next h => exact (ih _).trans ((State.laterStep?_pending _ _ _ h).trans (by simp))

@[simp] theorem State.endJob_pending (s : State) (i : Nat) (e : Engine) (j : Job) : (s.endJob i e j).pending = s.pending := by
  simp [State.endJob]

@[simp] theorem State.complete_pending (s : State) (i : Nat) (e : Engine) (j : Job) : (s.complete i e j).pending = s.pending := by
  simp only [State.complete]
  repeat' split
  all_goals simp [*]

@[simp] theorem State.pushJob_pending (s : State) (i : Nat) (e : Engine) : (s.pushJob i e).pending = s.pending := by
  simp only [State.pushJob]
  repeat' split
  all_goals simp [*]

@[simp] theorem execCommandComplete_goes (u : SlotRef) (e : Engine) (s : State) : Goes s (execCommandComplete u e s) := by
  simp only [execCommandComplete]
  repeat' split
  all_goals simp [*]

/-! ### The last step of teardown (R486, R490) -/

@[simp] theorem State.endTeardown_pending (s : State) (pitch : Nat) (d : Teardown) :
    (s.endTeardown pitch d).pending = s.pending := by
  simp only [State.endTeardown, State.setObj_pending, State.bump_pending, State.setPitch_pending]
  rw [foldl_pending fun t i => ?_, foldl_pending fun t i => ?_]
  · rfl
  · simp

@[simp] theorem State.recordTeardown_pending (s : State) (pitch : Nat) (d : Teardown) :
    (s.recordTeardown pitch d).pending = s.pending := by
  simp [State.recordTeardown]

@[simp] theorem State.tellTeardown_pending (s : State) (pitch : Nat) : (s.tellTeardown pitch).pending = s.pending := by
  simp [State.tellTeardown]

@[simp] theorem execTeardownComplete_goes (pitch : Nat) (s : State) : Goes s (execTeardownComplete pitch s) := by
  simp only [execTeardownComplete]
  split
  · rw [goes_next, State.afterRequests_pending]
    split <;> simp
  · simp

/-! ### The image in force -/

@[simp] theorem State.nvCommit_pending (s : State) (rs : List NvRecord) : (s.nvCommit rs).pending = s.pending := by
  simp [State.nvCommit]

@[simp] theorem State.nvWaitToo_pending (s : State) (sec key : Nat) (v : List Byte) :
    (s.nvWaitToo sec key v).pending = s.pending := by
  simp [State.nvWaitToo]

@[simp] theorem State.nvStore_pending (s : State) (sec key : Nat) (v : List Byte) :
    (s.nvStore sec key v).1.pending = s.pending := by
  simp [State.nvStore]

@[simp] theorem State.nvWait_pending (s : State) (image : List Byte) : (s.nvWait image).pending = s.pending := by
  simp [State.nvWait]

@[simp] theorem State.writeNvImage_pending (s : State) (v : List Byte) : (s.writeNvImage v).1.pending = s.pending := by
  unfold State.writeNvImage
  split <;> simp

@[simp] theorem State.doNvClearSection_pending (s : State) (c : Caller) (v : List Byte) :
    (s.doNvClearSection c v).1.pending = s.pending := by
  simp [State.doNvClearSection]

@[simp] theorem execNvClearSection_goes (r : Req) (v : List Byte) (s : State) : Goes s (execNvClearSection r v s) := by
  simp [execNvClearSection]

@[simp] theorem execNvImageWrite_goes (r : Req) (v : List Byte) (s : State) : Goes s (execNvImageWrite r v s) := by
  simp [execNvImageWrite]

@[simp] theorem State.nvReset_pending (s : State) : s.nvReset.pending = s.pending := by
  unfold State.nvReset
  split <;> simp

/-! ### Field update -/

@[simp] theorem State.modUpdate_pending (s : State) (f : Update → Update) : (s.modUpdate f).pending = s.pending := by
  simp [State.modUpdate]

/-! ### Staging (R807 to R812) -/

@[simp] theorem State.doUpdateBegin_pending (s : State) (c : Caller) (v : List Byte) :
    (s.doUpdateBegin c v).1.pending = s.pending := by
  simp [State.doUpdateBegin]

@[simp] theorem execUpdateBegin_goes (r : Req) (v : List Byte) (s : State) : Goes s (execUpdateBegin r v s) := by
  simp [execUpdateBegin]

@[simp] theorem State.writePiece_pending (s : State) (offset : Nat) (data : List Byte) :
    (s.writePiece offset data).1.pending = s.pending := by
  simp [State.writePiece]

@[simp] theorem execUpdatePiece_goes (r : Req) (offset : Nat) (data : List Byte) (s : State) :
    Goes s (execUpdatePiece r offset data s) := by
  simp [execUpdatePiece]

@[simp] theorem State.doUpdateActivate_pending (s : State) (c : Caller) (v : List Byte) :
    (s.doUpdateActivate c v).1.pending = s.pending := by
  simp [State.doUpdateActivate]

@[simp] theorem execUpdateActivate_goes (r : Req) (s : State) : Goes s (execUpdateActivate r s) := by simp [execUpdateActivate]

@[simp] theorem execUpdateActivateReset_goes (r : Req) (s : State) : Goes s (execUpdateActivateReset r s) := by
  simp [execUpdateActivateReset]

@[simp] theorem State.doUpdateCancel_pending (s : State) (c : Caller) (v : List Byte) :
    (s.doUpdateCancel c v).1.pending = s.pending := by
  simp [State.doUpdateCancel]

@[simp] theorem execUpdateCancel_goes (r : Req) (v : List Byte) (s : State) : Goes s (execUpdateCancel r v s) := by
  simp [execUpdateCancel]

/-! ### The update step (R815 to R817) -/

@[simp] theorem State.updateResult_pending (s : State) (code : Nat) : (s.updateResult code).pending = s.pending := by
  simp [State.updateResult]

@[simp] theorem State.updateStep_pending (s : State) : s.updateStep.pending = s.pending := by
  simp only [State.updateStep]
  repeat' split
  all_goals simp [*]

@[simp] theorem execTrialConfirm_goes (s : State) : Goes s (execTrialConfirm s) := by simp [execTrialConfirm]

/-! ### What is lost -/

@[simp] theorem State.loseMain_pending (s : State) : s.loseMain.pending = s.pending := by simp [State.loseMain]

@[simp] theorem State.loseLantern_pending (s : State) : s.loseLantern.pending = s.pending := by simp [State.loseLantern]

@[simp] theorem State.losePower_pending (s : State) : s.losePower.pending = s.pending := by simp [State.losePower]

/-! ### Time (R46, R799) -/

@[simp] theorem State.stopClock_pending (s : State) : s.stopClock.pending = s.pending := by simp [State.stopClock]

@[simp] theorem State.startClock_pending (s : State) : s.startClock.pending = s.pending := by simp [State.startClock]

/-! ### The boot's parts -/

@[simp] theorem State.loadRecord_pending (s : State) (r : NvRecord) : (s.loadRecord r).pending = s.pending := by
  unfold State.loadRecord
  split <;> simp

@[simp] theorem State.loadDictionary_pending (s : State) : s.loadDictionary.pending = s.pending := by simp [State.loadDictionary]

@[simp] theorem State.bootRetired_pending (s : State) : s.bootRetired.pending = s.pending := by simp [State.bootRetired]

@[simp] theorem State.bootMeasure_pending (s : State) : s.bootMeasure.pending = s.pending := by simp [State.bootMeasure]

@[simp] theorem State.dropTenants_pending (s : State) (ts : List Nat) : (s.dropTenants ts).pending = s.pending := by
  simp [State.dropTenants]

@[simp] theorem State.bootExpiries_pending (s : State) : s.bootExpiries.pending = s.pending := by simp [State.bootExpiries]

@[simp] theorem State.bootKeyStore_pending (s : State) : s.bootKeyStore.pending = s.pending := by simp [State.bootKeyStore]

@[simp] theorem State.creditPassed_pending (s : State) : s.creditPassed.pending = s.pending := by simp [State.creditPassed]

@[simp] theorem State.bootBalance_pending (s : State) : s.bootBalance.pending = s.pending := by simp [State.bootBalance]

@[simp] theorem State.bootFabric_pending (s : State) : s.bootFabric.pending = s.pending := by simp [State.bootFabric]

@[simp] theorem State.applyDivs_pending (s : State) : s.applyDivs.pending = s.pending := by simp [State.applyDivs]

@[simp] theorem State.bootMain_pending (s : State) : s.bootMain.pending = s.pending := by simp [State.bootMain]

@[simp] theorem State.bootLantern_pending (s : State) : s.bootLantern.pending = s.pending := by simp [State.bootLantern]

/-! ### Resets (R857 to R859) -/

@[simp] theorem State.holdReset_pending (s : State) : s.holdReset.pending = s.pending := by simp [State.holdReset]

@[simp] theorem State.releaseReset_pending (s : State) (straps : Nat) : (s.releaseReset straps).pending = s.pending := by
  simp [State.releaseReset]

@[simp] theorem execResetNAssert_goes (s : State) : Goes s (execResetNAssert s) := by simp [execResetNAssert]

@[simp] theorem execResetRelease_goes (straps : Fin 4) (s : State) : Goes s (execResetRelease straps s) := by
  simp [execResetRelease]

@[simp] theorem execRefclkLoss_goes (s : State) : Goes s (execRefclkLoss s) := by simp [execRefclkLoss]

@[simp] theorem execRefclkReturn_goes (straps : Fin 4) (s : State) : Goes s (execRefclkReturn straps s) := by
  simp [execRefclkReturn]

@[simp] theorem execActivateReset_goes (straps : Fin 4) (s : State) : Goes s (execActivateReset straps s) := by
  simp [execActivateReset]

/-! ### Lifetime counters (R797, R798) -/

@[simp] theorem State.commitLife_pending (s : State) : s.commitLife.pending = s.pending := by simp [State.commitLife]

@[simp] theorem execLifetimeCommit_goes (s : State) : Goes s (execLifetimeCommit s) := by simp [execLifetimeCommit]

@[simp] theorem State.countSecond_pending (s : State) : s.countSecond.pending = s.pending := by
  simp only [State.countSecond]
  rw [foldl_pending fun t p => ?_]
  · split <;> split <;> simp
  · simp

/-! ### Waking (R744, R749) -/

@[simp] theorem State.leaveStowed_pending (s : State) : s.leaveStowed.pending = s.pending := by simp [State.leaveStowed]

/-! ### The floor and requests (R741) -/

@[simp] theorem State.startEntry_pending (s : State) (dest : PowerState) : (s.startEntry dest).pending = s.pending := by
  simp [State.startEntry]

@[simp] theorem State.doPowerState_pending (s : State) (c : Caller) (v : List Byte) :
    (s.doPowerState c v).1.pending = s.pending := by
  simp [State.doPowerState]

@[simp] theorem execPowerFloorSet_goes (r : Req) (v : List Byte) (s : State) : Goes s (execPowerFloorSet r v s) := by
  simp [execPowerFloorSet]

@[simp] theorem execPowerRequestStowed_goes (r : Req) (s : State) : Goes s (execPowerRequestStowed r s) := by
  simp [execPowerRequestStowed]

@[simp] theorem execPowerRequestOff_goes (r : Req) (s : State) : Goes s (execPowerRequestOff r s) := by simp [execPowerRequestOff]

/-! ### Gated clusters and DOZE (R738, R742) -/

@[simp] theorem execClusterGate_goes (cluster : Fin 6) (s : State) : Goes s (execClusterGate cluster s) := by
  simp [execClusterGate]

@[simp] theorem State.saveRegisters_pending (s : State) : s.saveRegisters.pending = s.pending := by simp [State.saveRegisters]

@[simp] theorem execDozeEntry_goes (s : State) : Goes s (execDozeEntry s) := by simp [execDozeEntry]

/-! ### Entry to LANTERN, STOWED and OFF (R743) -/

@[simp] theorem execLanternEntry_goes (s : State) : Goes s (execLanternEntry s) := by simp [execLanternEntry]

@[simp] theorem State.entryCheckpoints_pending (s : State) : s.entryCheckpoints.pending = s.pending := by
  simp [State.entryCheckpoints]

@[simp] theorem State.entryTeardowns_pending (s : State) : s.entryTeardowns.pending = s.pending := by simp [State.entryTeardowns]

@[simp] theorem State.entryDemote_pending (s : State) : s.entryDemote.pending = s.pending := by simp [State.entryDemote]

@[simp] theorem State.loseMemories_pending (s : State) : s.loseMemories.pending = s.pending := by simp [State.loseMemories]

@[simp] theorem State.releaseHeld_pending (s : State) : s.releaseHeld.pending = s.pending := by
  unfold State.releaseHeld
  split <;> simp

@[simp] theorem State.entryLantern_pending (s : State) : s.entryLantern.pending = s.pending := by simp [State.entryLantern]

@[simp] theorem State.enterStowed_pending (s : State) : s.enterStowed.pending = s.pending := by simp [State.enterStowed]

@[simp] theorem State.endEntry_pending (s : State) : s.endEntry.pending = s.pending := by simp [State.endEntry]

@[simp] theorem execPowerEntryStep_goes (s : State) : Goes s (execPowerEntryStep s) := by
  unfold execPowerEntryStep
  split <;> simp

/-! ### Returning (R748 to R751) -/

@[simp] theorem execWakeSource_goes (cause : WakeCause) (s : State) : Goes s (execWakeSource cause s) := by
  unfold execWakeSource
  split <;> simp

@[simp] theorem State.returnChecked_pending (s : State) : s.returnChecked.pending = s.pending := by simp [State.returnChecked]

@[simp] theorem State.returnDoze_pending (s : State) : s.returnDoze.pending = s.pending := by simp [State.returnDoze]

@[simp] theorem State.returnCluster_pending (s : State) (n : Nat) : (s.returnCluster n).pending = s.pending := by
  simp [State.returnCluster]

@[simp] theorem State.returnActive_pending (s : State) : s.returnActive.pending = s.pending := by simp [State.returnActive]

@[simp] theorem State.stepReturn_goes (s : State) : Goes s s.stepReturn := by
  unfold State.stepReturn
  repeat' split
  all_goals simp

@[simp] theorem execPowerReturnStep_goes (s : State) : Goes s (execPowerReturnStep s) := by
  obtain ⟨t, ht, hpending⟩ := State.stepReturn_goes (s.mark tmReturn)
  simp only [execPowerReturnStep]
  split
  · exact ⟨t, ht, by simpa using hpending⟩
  · simp

@[simp] theorem execWakeAtAlarm_goes (s : State) : Goes s (execWakeAtAlarm s) := by
  unfold execWakeAtAlarm
  split <;> simp

/-! ### The power cap (R754 to R758) -/

@[simp] theorem State.capDivs_pending (s : State) (cs : List Nat) (f : Nat → Nat) : (s.capDivs cs f).pending = s.pending := by
  simp [State.capDivs]

@[simp] theorem State.windowAbove_pending (s : State) (averageMw : Nat) : (s.windowAbove averageMw).pending = s.pending := by
  simp [State.windowAbove]

@[simp] theorem State.windowBelow_pending (s : State) : s.windowBelow.pending = s.pending := by simp [State.windowBelow]

@[simp] theorem execPowerCapWindow_goes (averageMw : Nat) (s : State) : Goes s (execPowerCapWindow averageMw s) := by
  simp [execPowerCapWindow]

/-! ### Temperature (R761, R762) -/

@[simp] theorem State.takeReadings_pending (s : State) (temps : List Int) (ten : Bool) :
    (s.takeReadings temps ten).pending = s.pending := by
  simp only [State.takeReadings]
  generalize hs : (List.range 10).foldl (fun (t : State) k => t.setObj (Key.junctionTemp + k) ((reading temps k) % 4294967296).toNat) s = s1
  have hs1 : s1.pending = s.pending := by
    rw [← hs]
    exact foldl_pending (fun t k => State.setObj_pending ..) _ _
  split <;> simp [hs1]

@[simp] theorem execThermalInterval_goes (temps : List Int) (s : State) : Goes s (execThermalInterval temps s) := by
  simp [execThermalInterval]

@[simp] theorem State.trip_pending (s : State) (sensor : Nat) : (s.trip sensor).pending = s.pending := by simp [State.trip]

@[simp] theorem execThermalTrip_goes (sensor : Fin 10) (s : State) : Goes s (execThermalTrip sensor s) := by
  simp [execThermalTrip]

/-! ### Supplies (R732 to R736, R801) -/

@[simp] theorem State.loseCalendar_pending (s : State) : s.loseCalendar.pending = s.pending := by simp [State.loseCalendar]

@[simp] theorem State.onCalendar_pending (s : State) : s.onCalendar.pending = s.pending := by simp [State.onCalendar]

@[simp] theorem execVinApply_goes (s : State) : Goes s (execVinApply s) := by
  unfold execVinApply
  split
  · simp
  · split <;> simp

@[simp] theorem execVinRemove_goes (s : State) : Goes s (execVinRemove s) := by
  unfold execVinRemove
  split
  · simp
  · split <;> simp

@[simp] theorem execVlntApply_goes (straps : Fin 4) (s : State) : Goes s (execVlntApply straps s) := by
  unfold execVlntApply
  repeat' split
  all_goals simp

@[simp] theorem execVlntRemove_goes (s : State) : Goes s (execVlntRemove s) := by simp [execVlntRemove]

@[simp] theorem execVcalLoss_goes (s : State) : Goes s (execVcalLoss s) := by simp [execVcalLoss]

/-! ### Selections (R773) -/

@[simp] theorem State.select_pending (s : State) (c : Caller) (key v : Nat) : (s.select c key v).pending = s.pending := by
  simp [State.select]

/-! ### READ (R767, R775, R784) -/

@[simp] theorem State.serveRead_pending (s : State) (c : Caller) (index sub layer offset : Nat) :
    (s.serveRead c index sub layer offset).1.pending = s.pending := by
  unfold State.serveRead
  split <;> simp

@[simp] theorem execUoaRead_goes (r : Req) (index sub param offset : Nat) (s : State) :
    Goes s (execUoaRead r index sub param offset s) := by
  simp [execUoaRead]

/-! ### ENUMERATE, DISCOVER (R784) -/

@[simp] theorem State.serveEnumerate_pending (s : State) (c : Caller) (index first : Nat) :
    (s.serveEnumerate c index first).1.pending = s.pending := by
  simp [State.serveEnumerate]

@[simp] theorem execUoaEnumerate_goes (r : Req) (index first : Nat) (s : State) : Goes s (execUoaEnumerate r index first s) := by
  simp [execUoaEnumerate]

@[simp] theorem State.serveDiscover_pending (s : State) : s.serveDiscover.1.pending = s.pending := by simp [State.serveDiscover]

@[simp] theorem execUoaDiscover_goes (r : Req) (s : State) : Goes s (execUoaDiscover r s) := by simp [execUoaDiscover]

/-! ### The host link's windows -/

@[simp] theorem State.modHost_pending (s : State) (f : HostLink → HostLink) : (s.modHost f).pending = s.pending := by
  simp [State.modHost]

/-! ### The link (R825, R838, R841, R847) -/

@[simp] theorem State.dropLink_pending (s : State) : s.dropLink.pending = s.pending := by simp [State.dropLink]

@[simp] theorem execUsb4EnChange_goes (level : Bool) (s : State) : Goes s (execUsb4EnChange level s) := by simp [execUsb4EnChange]

@[simp] theorem execUsb4LinkConnect_goes (hostToModule moduleToHost : Nat) (s : State) :
    Goes s (execUsb4LinkConnect hostToModule moduleToHost s) := by
  simp [execUsb4LinkConnect]

@[simp] theorem execLinkCl2Request_goes (s : State) : Goes s (execLinkCl2Request s) := by simp [execLinkCl2Request]

/-! ### WindowPitch and HostDmaPitch (R833 to R835) -/

@[simp] theorem State.writeWindowPitch_pending (s : State) (c : Caller) (v : Nat) :
    (s.writeWindowPitch c v).1.pending = s.pending := by
  simp [State.writeWindowPitch]

@[simp] theorem execWindowPitch_goes (r : Req) (v : List Byte) (s : State) : Goes s (execWindowPitch r v s) := by
  simp [execWindowPitch]

@[simp] theorem State.writeHostDmaPitch_pending (channel : Nat) (s : State) (c : Caller) (v : Nat) :
    (State.writeHostDmaPitch channel s c v).1.pending = s.pending := by
  simp [State.writeHostDmaPitch]

/-! ### The BAR2 window (R833, R834, R839, R840) -/

@[simp] theorem execWinBase_goes (high : Bool) (value : Word) (s : State) : Goes s (execWinBase high value s) := by
  simp [execWinBase]

@[simp] theorem State.windowError_pending (s : State) : s.windowError.pending = s.pending := by simp [State.windowError]

@[simp] theorem State.completeRead_pending (s : State) (c : Completion) : (s.completeRead c).pending = s.pending := by
  simp [State.completeRead]

@[simp] theorem State.refuseRead_pending (s : State) : s.refuseRead.pending = s.pending := by simp [State.refuseRead]

@[simp] theorem State.serveWindowRead_pending (s : State) (base offset len : Nat) :
    (s.serveWindowRead base offset len).pending = s.pending := by
  grind [State.serveWindowRead, State.refuseRead_pending, State.readState_pending, State.passTag_pending,
    State.completeRead_pending]

@[simp] theorem State.serveWindowWrite_pending (s : State) (base offset : Nat) (data : List Byte) :
    (s.serveWindowWrite base offset data).1.pending = s.pending := by
  grind [State.serveWindowWrite, State.windowError_pending, State.writeState_pending, State.passTag_pending,
    State.stallQuota_pending]

@[simp] theorem State.ring_pending (s : State) (d : Nat) : (s.ring d).pending = s.pending := by simp [State.ring]

@[simp] theorem State.serveAsk_pending (s : State) (a : HostAsk) : (s.serveAsk a).1.pending = s.pending := by
  unfold State.serveAsk
  repeat' split
  all_goals simp

@[simp] theorem State.holdAsk_pending (s : State) (a : HostAsk) : (s.holdAsk a).pending = s.pending := by simp [State.holdAsk]

@[simp] theorem State.ask_pending (s : State) (a : HostAsk) : (s.ask a).pending = s.pending := by
  grind [State.ask, State.holdAsk_pending, State.serveAsk_pending]

@[simp] theorem State.serveAsks_pending (s : State) : s.serveAsks.pending = s.pending := by simp [State.serveAsks]

@[simp] theorem execBar2Read_goes (offset len : Nat) (s : State) : Goes s (execBar2Read offset len s) := by simp [execBar2Read]

@[simp] theorem execBar2Write_goes (offset : Nat) (data : List Byte) (s : State) : Goes s (execBar2Write offset data s) := by
  simp [execBar2Write]

/-! ### Doorbells (R828, R829) -/

@[simp] theorem execPwrDoorbell_goes (value : Word) (s : State) : Goes s (execPwrDoorbell value s) := by simp [execPwrDoorbell]

@[simp] theorem execDoorbell_goes (d : Fin 16) (s : State) : Goes s (execDoorbell d s) := by simp [execDoorbell]

/-! ### Host-driven transfers (R835, R836) -/

@[simp] theorem State.setDmaReg_pending (s : State) (c k : Nat) (v : Word) : (s.setDmaReg c k v).pending = s.pending := by
  simp [State.setDmaReg]

@[simp] theorem execDmaProd_goes (channel : Fin 4) (value : Word) (s : State) : Goes s (execDmaProd channel value s) := by
  simp [execDmaProd]

@[simp] theorem State.endDma_pending (s : State) (c : Nat) (d : DmaDesc) (code : Nat) :
    (s.endDma c d code).pending = s.pending := by
  simp [State.endDma]

@[simp] theorem State.runDma_pending (s : State) (c p : Nat) (d : DmaDesc) (hostData : List Byte) :
    (s.runDma c p d hostData).pending = s.pending := by
  grind [State.runDma, State.readState_pending, State.passTag_pending, State.endDma_pending, State.modHost_pending,
    State.writeState_pending, State.stallQuota_pending]

@[simp] theorem execDmaDescriptorDone_goes (channel : Fin 4) (descriptor hostData : List Byte) (s : State) :
    Goes s (execDmaDescriptorDone channel descriptor hostData s) := by
  simp only [execDmaDescriptorDone]
  repeat' split
  all_goals simp [*]

/-! ### Role keys (R769) -/

@[simp] theorem State.doRoleKeyInstall_pending (s : State) (c : Caller) (v : List Byte) :
    (s.doRoleKeyInstall c v).1.pending = s.pending := by
  simp [State.doRoleKeyInstall]

@[simp] theorem execRoleKeyInstall_goes (r : Req) (v : List Byte) (s : State) : Goes s (execRoleKeyInstall r v s) := by
  simp [execRoleKeyInstall]

@[simp] theorem State.doRoleKeyReset_pending (s : State) (c : Caller) (v : List Byte) :
    (s.doRoleKeyReset c v).1.pending = s.pending := by
  simp [State.doRoleKeyReset]

@[simp] theorem execRoleKeyReset_goes (r : Req) (v : List Byte) (s : State) : Goes s (execRoleKeyReset r v s) := by
  simp [execRoleKeyReset]

/-! ### The calendar (R800, R801) -/

@[simp] theorem State.setCalendar_pending (s : State) (v : Nat) : (s.setCalendar v).pending = s.pending := by
  simp [State.setCalendar]

@[simp] theorem State.takeCalendar_pending (s : State) (t : Nat) : (s.takeCalendar t).pending = s.pending := by
  simp [State.takeCalendar]

@[simp] theorem State.doCalendarSet_pending (s : State) (c : Caller) (v : List Byte) :
    (s.doCalendarSet c v).1.pending = s.pending := by
  simp [State.doCalendarSet]

@[simp] theorem execCalendarSet_goes (r : Req) (v : List Byte) (s : State) : Goes s (execCalendarSet r v s) := by
  simp [execCalendarSet]

/-! ### Writes of settings -/

@[simp] theorem State.writeCoreDiv_pending (s : State) (c : Caller) (v : Nat) : (s.writeCoreDiv c v).1.pending = s.pending := by
  simp [State.writeCoreDiv]

@[simp] theorem State.writeSetting_pending (row : ObjRow) (key : Nat) (s : State) (c : Caller) (v : Nat) :
    (State.writeSetting row key s c v).1.pending = s.pending := by
  simp [State.writeSetting]

@[simp] theorem State.writeDomain_pending (s : State) (row : ObjRow) (key : Nat) (v : List Byte) :
    (s.writeDomain row key v).1.pending = s.pending := by
  simp [State.writeDomain]

/-! ### WRITE (R767) -/

/-- A row of the command table whose action keeps the waiting commands. -/
def ActKeeps (o : Option (Nat × CmdAct)) : Prop :=
  ∀ k act, o = some (k, act) → ∀ s c v, (act s c v).1.pending = s.pending

theorem actKeeps_none : ActKeeps none := fun _ _ h => nomatch h

theorem actKeeps_ite {p : Prop} [Decidable p] {k : Nat} {act : CmdAct} {o : Option (Nat × CmdAct)}
    (hact : ∀ s c v, (act s c v).1.pending = s.pending) (ho : ActKeeps o) : ActKeeps (if p then some (k, act) else o) := by
  split
  · intro k' act' h
    cases h
    exact hact
  · exact ho

theorem actKeeps_or {o o' : Option (Nat × CmdAct)} (h : ActKeeps o) (h' : ActKeeps o') : ActKeeps (o.or o') := by
  cases o with
  | none => exact h'
  | some r => exact h

theorem cmdMemory_actKeeps (key : Nat) : ActKeeps (cmdMemory key) :=
  actKeeps_ite State.doExtentDefine_pending
    <| actKeeps_ite State.doExtentRemove_pending
    <| actKeeps_ite State.doPagePin_pending
    <| actKeeps_ite State.doPageFree_pending
    <| actKeeps_ite State.doStateSetCreate_pending
    <| actKeeps_ite State.doStateSetDelete_pending
    <| actKeeps_ite State.doStateSetAttach_pending
    <| actKeeps_ite State.doCheckpointNow_pending
    <| actKeeps_ite State.doKvLayoutDefine_pending
    <| actKeeps_ite State.doKvLayoutRemove_pending
    <| actKeeps_ite State.doKvSeqCreate_pending
    <| actKeeps_ite State.doKvSeqDrop_pending
    <| actKeeps_ite State.doStateHandleBind_pending
    <| actKeeps_ite State.doStateHandleRevoke_pending
    <| actKeeps_ite State.doStateHandleSwap_pending
    actKeeps_none

theorem cmdPitch_actKeeps (row i : Nat) : ActKeeps (cmdPitch row i) :=
  actKeeps_ite State.doPitchCreate_pending
    <| actKeeps_ite State.doPitchStart_pending
    <| actKeeps_ite State.doPitchRemove_pending
    <| actKeeps_ite State.doPegShare_pending
    <| actKeeps_ite State.doPegUnshare_pending
    <| actKeeps_ite (State.doPegStatusClear_pending i)
    <| actKeeps_ite State.doSnapshotStart_pending
    <| actKeeps_ite State.doFabricReset_pending
    <| actKeeps_ite State.doTenantFence_pending
    <| actKeeps_ite (State.doEventForwardDefine_pending i)
    <| actKeeps_ite (State.doEventForwardRemove_pending i)
    <| actKeeps_ite (State.doCollGroupDefine_pending i)
    <| actKeeps_ite (State.doCollGroupRemove_pending i)
    <| actKeeps_ite State.doEncStream_pending
    <| actKeeps_ite State.doEncCountersClear_pending
    actKeeps_none

theorem cmdGuard_actKeeps (key : Nat) : ActKeeps (cmdGuard key) :=
  actKeeps_ite State.doKwsModelLoad_pending
    <| actKeeps_ite State.doCciTransfer_pending
    <| actKeeps_ite State.doFaultLogClear_pending
    <| actKeeps_ite State.doFrameRetire_pending
    <| actKeeps_ite State.doLpddrBankRetire_pending
    <| actKeeps_ite State.doSramBankRetire_pending
    <| actKeeps_ite State.doCoreRetire_pending
    <| actKeeps_ite State.doFlashDieRetire_pending
    <| actKeeps_ite State.doRetireClear_pending
    <| actKeeps_ite State.doAttestRequest_pending
    <| actKeeps_ite State.doSessionOpen_pending
    <| actKeeps_ite State.doSessionClose_pending
    <| actKeeps_ite State.doDebugUnlock_pending
    <| actKeeps_ite State.doRollbackAdvanceNow_pending
    <| actKeeps_ite State.doTenantCreate_pending
    <| actKeeps_ite State.doTenantRemove_pending
    <| actKeeps_ite State.doEpochExpire_pending
    <| actKeeps_ite State.doRekeyStart_pending
    actKeeps_none

theorem cmdManage_actKeeps (key : Nat) : ActKeeps (cmdManage key) :=
  actKeeps_ite State.doPowerState_pending
    <| actKeeps_ite State.doRoleKeyInstall_pending
    <| actKeeps_ite State.doRoleKeyReset_pending
    <| actKeeps_ite State.doNvClearSection_pending
    <| actKeeps_ite State.doCalendarSet_pending
    <| actKeeps_ite State.doUpdateBegin_pending
    <| actKeeps_ite State.doUpdateActivate_pending
    <| actKeeps_ite State.doUpdateCancel_pending
    actKeeps_none

theorem cmdOf_actKeeps (row : ObjRow) (key : Nat) : ActKeeps (cmdOf row key) :=
  actKeeps_or (actKeeps_or (actKeeps_or (cmdMemory_actKeeps key) (cmdPitch_actKeeps row.key _)) (cmdGuard_actKeeps key))
    (cmdManage_actKeeps key)

@[simp] theorem State.serveWrite_pending (s : State) (c : Caller) (key offset : Nat) (v : List Byte) :
    (s.serveWrite c key offset v).1.pending = s.pending := by
  simp only [State.serveWrite]
  split
  · rfl
  · next row _ =>
    split
    · split
      · exact State.serveScalar_pending _ _ _ _ _ _ fun s c x => by split <;> simp
      · rfl
    · simp
    · split
      · rfl
      · next e he => exact State.serveCmd_pending _ _ _ _ _ _ (cmdOf_actKeeps row key _ _ he)
    · exact State.serveScalar_pending _ _ _ _ _ _ fun s c x => by split <;> simp
    · split
      · simp
      · split
        · simp
        · simp

/-! ### Segments (R786) -/

@[simp] theorem State.unstage_pending (s : State) (r : Req) (key : Nat) : (s.unstage r key).pending = s.pending := by
  simp [State.unstage]

@[simp] theorem State.takeSegment_pending (s : State) (r : Req) (key offset : Nat) (more domain : Bool) (data : List Byte) :
    (s.takeSegment r key offset more domain data).1.pending = s.pending := by
  simp [State.takeSegment]

@[simp] theorem State.serveWriteFrame_pending (s : State) (c : Caller) (r : Req) (index sub offset : Nat) (more : Bool)
    (data : List Byte) : (s.serveWriteFrame c r index sub offset more data).1.pending = s.pending := by
  grind [State.serveWriteFrame, State.writePiece_pending, State.takeSegment_pending, State.serveWrite_pending,
    State.noteProgress_pending]

@[simp] theorem execUoaWrite_goes (r : Req) (index sub offset : Nat) (more : Bool) (data : List Byte) (s : State) :
    Goes s (execUoaWrite r index sub offset more data s) := by
  simp [execUoaWrite]

/-! ### WRITE_NV (R778, R779) -/

@[simp] theorem State.serveWriteNv_pending (s : State) (c : Caller) (r : Req) (index sub param offset : Nat) (more : Bool)
    (data : List Byte) : (s.serveWriteNv c r index sub param offset more data).1.pending = s.pending := by
  grind [State.serveWriteNv, State.takeSegment_pending, State.nvStore_pending]

@[simp] theorem execUoaWriteNv_goes (r : Req) (index sub param offset : Nat) (more : Bool) (data : List Byte) (s : State) :
    Goes s (execUoaWriteNv r index sub param offset more data s) := by
  simp [execUoaWriteNv]

/-! ### WRITE_SIGNED (R774) -/

@[simp] theorem State.serveWriteSigned_pending (s : State) (c : Caller) (r : Req) (index sub : Nat) (bytes : List Byte) :
    (s.serveWriteSigned c r index sub bytes).1.pending = s.pending := by
  grind [State.serveWriteSigned, State.openSigned_pending, State.serveWrite_pending, State.noteProgress_pending]

@[simp] theorem execUoaWriteSigned_goes (r : Req) (index sub : Nat) (data : List Byte) (s : State) :
    Goes s (execUoaWriteSigned r index sub data s) := by
  simp [execUoaWriteSigned]

/-! ### ABORT and the segment timeout (R786) -/

@[simp] theorem State.unstageAll_pending (s : State) (r : Req) : (s.unstageAll r).pending = s.pending := by
  simp [State.unstageAll]

@[simp] theorem State.serveAbort_pending (s : State) (c : Caller) (r : Req) : (s.serveAbort c r).1.pending = s.pending := by
  simp [State.serveAbort]

@[simp] theorem execUoaAbort_goes (r : Req) (s : State) : Goes s (execUoaAbort r s) := by simp [execUoaAbort]

@[simp] theorem execStagedSegmentTimeout_goes (r : Req) (index sub : Nat) (s : State) :
    Goes s (execStagedSegmentTimeout r index sub s) := by
  simp [execStagedSegmentTimeout]

/-! ### CMDs that run on (R787) -/

@[simp] theorem State.endProgress_pending (s : State) (key : Nat) : (s.endProgress key).pending = s.pending := by
  simp [State.endProgress]

@[simp] theorem execCmdInProgressDone_goes (index sub status : Nat) (s : State) :
    Goes s (execCmdInProgressDone index sub status s) := by
  simp only [execCmdInProgressDone]
  split <;> simp

/-! ### Telemetry, segment managers and workers, proxied requests -/

@[simp] theorem State.modMgmt_pending (s : State) (f : Management → Management) : (s.modMgmt f).pending = s.pending := by
  simp [State.modMgmt]

/-! ### Subscriptions (R796) -/

@[simp] theorem State.addSubscription_pending (s : State) (c : Caller) (interval : Nat) (keys : List Nat) :
    (s.addSubscription c interval keys).pending = s.pending := by
  simp [State.addSubscription]

@[simp] theorem State.serveSubscribe_pending (s : State) (c : Caller) (data : List Byte) :
    (s.serveSubscribe c data).1.pending = s.pending := by
  simp only [State.serveSubscribe]
  repeat' split
  all_goals simp [*]

@[simp] theorem execUoaSubscribe_goes (r : Req) (data : List Byte) (s : State) : Goes s (execUoaSubscribe r data s) := by
  simp [execUoaSubscribe]

@[simp] theorem State.serveUnsubscribe_pending (s : State) (c : Caller) (number : Nat) :
    (s.serveUnsubscribe c number).1.pending = s.pending := by
  simp [State.serveUnsubscribe]

@[simp] theorem execUoaUnsubscribe_goes (r : Req) (number : Nat) (s : State) : Goes s (execUoaUnsubscribe r number s) := by
  simp [execUoaUnsubscribe]

@[simp] theorem State.passWindow_pending (s : State) (number w : Nat) : (s.passWindow number w).pending = s.pending := by
  simp [State.passWindow]

@[simp] theorem execTelemetrySnapshot_goes (number : Nat) (late : Bool) (s : State) :
    Goes s (execTelemetrySnapshot number late s) := by
  unfold execTelemetrySnapshot
  split <;> simp

/-! ### Managers and workers (R790 to R792) -/

@[simp] theorem State.heartbeatOn_pending (s : State) (path : Path) : (s.heartbeatOn path).pending = s.pending := by
  simp [State.heartbeatOn]

@[simp] theorem State.heartbeatGuyline_pending (s : State) : s.heartbeatGuyline.pending = s.pending := by
  simp [State.heartbeatGuyline]

@[simp] theorem execHeartbeatSend_goes (s : State) : Goes s (execHeartbeatSend s) := by simp [execHeartbeatSend]

@[simp] theorem State.hear_pending (s : State) (onSegment fromManager : Bool) (module node : Nat) (segUp : Bool) :
    (s.hear onSegment fromManager module node segUp).pending = s.pending := by
  simp [State.hear]

@[simp] theorem execUoaHeartbeat_goes (onSegment fromManager : Bool) (module node : Nat) (segUp : Bool) (s : State) :
    Goes s (execUoaHeartbeat onSegment fromManager module node segUp s) := by
  simp [execUoaHeartbeat]

@[simp] theorem execSegmentDown_goes (peer : Nat) (s : State) : Goes s (execSegmentDown peer s) := by simp [execSegmentDown]

/-! ### Proxied requests (R793, R794) -/

@[simp] theorem State.forgetProxied_pending (s : State) (worker requestId : Nat) :
    (s.forgetProxied worker requestId).pending = s.pending := by
  simp [State.forgetProxied]

@[simp] theorem State.proxyBack_pending (s : State) (worker requestId : Nat) (frame : List Byte) :
    (s.proxyBack worker requestId frame).pending = s.pending := by
  unfold State.proxyBack
  split <;> simp

@[simp] theorem execProxyResponse_goes (worker requestId : Nat) (frame : List Byte) (s : State) :
    Goes s (execProxyResponse worker requestId frame s) := by
  simp [execProxyResponse]

@[simp] theorem execProxyTimeout_goes (worker requestId : Nat) (s : State) : Goes s (execProxyTimeout worker requestId s) := by
  unfold execProxyTimeout
  split <;> simp

/-! ### Sealed frames (R691, R783) -/

@[simp] theorem State.acceptSeq_pending (s : State) (id seq : Nat) : (s.acceptSeq id seq).pending = s.pending := by
  simp [State.acceptSeq]

@[simp] theorem State.rejectFrame_pending (s : State) : s.rejectFrame.pending = s.pending := by simp [State.rejectFrame]

/-! ### Operations (R784) -/

@[simp] theorem State.serveOp_pending (s : State) (r : Req) (h : FrameHead) (data : List Byte) (c : Caller) :
    (s.serveOp r h data c).1.pending = s.pending := by
  unfold State.serveOp
  split <;> simp

@[simp] theorem State.serveFrame_pending (s : State) (r : Req) (h : FrameHead) (data : List Byte) :
    (s.serveFrame r h data).pending = s.pending := by
  simp [State.serveFrame]

/-! ### A frame arrives (R782, R783, R791, R793) -/

@[simp] theorem State.openRequest_pending (s : State) (path : Path) (h : FrameHead) (frame : List Byte) :
    (s.openRequest path h frame).pending = s.pending := by
  unfold State.openRequest
  repeat' split
  all_goals simp

@[simp] theorem State.frameIn_pending (s : State) (path : Path) (frame : List Byte) :
    (s.frameIn path frame).pending = s.pending := by
  unfold State.frameIn
  split
  · simp
  · split <;> simp

/-! ### The carriers -/

@[simp] theorem execGuyline_goes (module : Nat) (frame : List Byte) (s : State) : Goes s (execGuyline module frame s) := by
  simp [execGuyline]

@[simp] theorem execUsb2BulkTransfer_goes (frame : List Byte) (s : State) : Goes s (execUsb2BulkTransfer frame s) := by
  simp [execUsb2BulkTransfer]

@[simp] theorem execMbReqLen_goes (mailbox : Fin 8) (len : Nat) (s : State) : Goes s (execMbReqLen mailbox len s) := by
  simp [execMbReqLen]

@[simp] theorem execMbRespAck_goes (mailbox : Fin 8) (s : State) : Goes s (execMbRespAck mailbox s) := by
  simp only [execMbRespAck]
  repeat' split
  all_goals simp [*]

/-! ### BAR0 (R824, R825) -/

@[simp] theorem State.writeControl_pending (s : State) (off : Nat) (v : Word) : (s.writeControl off v).pending = s.pending := by
  unfold State.writeControl
  repeat' split
  all_goals simp

@[simp] theorem State.writeMailbox_pending (s : State) (off : Nat) (v : Word) : (s.writeMailbox off v).pending = s.pending := by
  simp [State.writeMailbox]

/-! ### A tick of the time base -/

@[simp] theorem State.returnCredits_pending (s : State) : s.returnCredits.pending = s.pending := by simp [State.returnCredits]

@[simp] theorem State.runTimers_pending (s : State) (ns : Nat) : (s.runTimers ns).pending = s.pending := by simp [State.runTimers]

@[simp] theorem State.goOnWaiting_pending (s : State) : s.goOnWaiting.pending = s.pending := by simp [State.goOnWaiting]

/-! ### Garbage collection (R297) -/

@[simp] theorem State.collectTile_pending (s : State) (f : FlashPage) (t : FlashTile) :
    (s.collectTile f t).pending = s.pending := by
  unfold State.collectTile
  split <;> simp

@[simp] theorem State.collectFlash_pending (s : State) : s.collectFlash.pending = s.pending := by
  simp only [State.collectFlash]
  repeat' split
  all_goals simp [*]

@[simp] theorem State.idle_pending (s : State) : s.idle.pending = s.pending := by simp [State.idle]

/-! ### A step and the queue -/

theorem State.writeBar0_goes_or_faults (s : State) (off : Nat) (v : Word) :
    Goes s (s.writeBar0 off v) ∨ s.writeBar0 off v = .fault (.noSuchRegister off) := by
  simp only [State.writeBar0]
  split
  · exact .inr rfl
  · left
    repeat' split
    all_goals simp

theorem State.writeDie_goes_or_faults (s : State) (a : Nat) (v : Word) :
    Goes s (s.writeDie a v) ∨ s.writeDie a v = .fault (.noSuchRegister a) := by
  simp only [State.writeDie]
  split
  · exact .inr rfl
  · split
    · simp
    · split
      · simp
      · split
        · left
          rw [goes_next]
          split <;> simp
        · exact .inr rfl

theorem execRegisterWrite_goes_or_faults (bar0 : Bool) (a : Nat) (v : Word) (s : State) :
    Goes s (execRegisterWrite bar0 a v s) ∨ execRegisterWrite bar0 a v s = .fault (.noSuchRegister a) := by
  cases bar0 with
  | true => exact s.writeBar0_goes_or_faults a v
  | false => exact s.writeDie_goes_or_faults a v

/-- Every command gives a next state in which the same commands wait; only a write of a register may fault, and does so with the
register's address. -/
theorem exec_goes_or_faults (c : Instr) (s : State) :
    Goes s (exec c s) ∨ ∃ bar0 a v, c = .registerWrite bar0 a v ∧ exec c s = .fault (.noSuchRegister a) := by
  cases c with
  | registerWrite bar0 a v => exact (execRegisterWrite_goes_or_faults bar0 a v s).imp_right fun h => ⟨bar0, a, v, rfl, h⟩
  | _ =>
    left
    simp [exec]

/-- A next state of a command keeps the queue. -/
theorem pending_of_exec {c : Instr} {s t : State} (h : exec c s = .next t) : t.pending = s.pending := by
  obtain ⟨u, hu, hpending⟩ | ⟨bar0, a, v, -, hfault⟩ := exec_goes_or_faults c s
  · rw [h] at hu
    cases hu
    exact hpending
  · rw [h] at hfault
    cases hfault

/-- Settles O3: the step takes the front command off, and the command itself keeps what waits behind it. -/
theorem stepConsumesFront : Obligations.StepConsumesFront := by
  intro s t h
  cases hq : s.pending with
  | nil =>
    simp only [step, hq] at h
    cases h
    rw [State.idle_pending, hq]
    rfl
  | cons c rest =>
    simp only [step, hq] at h
    exact pending_of_exec h

/-- Settles O4: the tail of a queue of well-formed commands holds well-formed commands. -/
theorem stepKeepsQueueWellFormed : Obligations.StepKeepsQueueWellFormed := by
  intro s t hwf h
  simp only [State.queueWf, List.all_eq_true] at hwf ⊢
  intro c hc
  rw [stepConsumesFront s t h] at hc
  exact hwf c (List.mem_of_mem_tail hc)

/-- Settles O7: every command but a write of a register gives a next state. -/
theorem onlyUnknownRegistersStop : Obligations.OnlyUnknownRegistersStop := by
  intro c s
  obtain ⟨u, hu, -⟩ | ⟨bar0, a, v, hc, hfault⟩ := exec_goes_or_faults c s
  · simp [hu]
  · refine ⟨by simp [hfault], fun f hf => ⟨bar0, a, v, hc, ?_⟩⟩
    rw [hfault] at hf
    cases hf
    rfl

end Sys2Proof.Machine
end
